-- ==== Sys2Proof/Word.lean ====
section
/-! DEFINITION. Words, bytes, and the sparse table type that holds everything numbered. -/
namespace Sys2Proof

/-- A 64-bit register value (R77). -/
abbrev Word := BitVec 64

/-- One byte (R5). -/
abbrev Byte := BitVec 8

/-- A sparse table: keys strictly rising, one entry each. -/
abbrev Tab (α : Type) := List (Nat × α)

namespace Tab

/-- The entry at `k`, if listed. -/
def find {α : Type} : Tab α → Nat → Option α
  | [], _ => none
  | (j, v) :: r, k => if j = k then some v else if k < j then none else find r k

/-- The entry at `k`, or `d`. -/
def getD {α : Type} (t : Tab α) (k : Nat) (d : α) : α := (find t k).getD d

/-- Put `v` at `k`, keeping the keys rising. -/
def set {α : Type} : Tab α → Nat → α → Tab α
  | [], k, v => [(k, v)]
  | (j, w) :: r, k, v =>
    if j = k then (k, v) :: r else if k < j then (k, v) :: (j, w) :: r else (j, w) :: set r k v

/-- Drop the entry at `k`. -/
def del {α : Type} : Tab α → Nat → Tab α
  | [], _ => []
  | (j, w) :: r, k => if j = k then r else if k < j then (j, w) :: r else (j, w) :: del r k

end Tab

/-- Put `a` into a rising list of numbers. -/
def insNat : List Nat → Nat → List Nat
  | [], a => [a]
  | b :: r, a => if a = b then b :: r else if a < b then a :: b :: r else b :: insNat r a

/-- Replace the item at index `i` (no change past the end). -/
def setAt {α : Type} : List α → Nat → α → List α
  | [], _, _ => []
  | _ :: r, 0, a => a :: r
  | b :: r, i + 1, a => b :: setAt r i a

/-- The natural number that a little-endian byte list holds (R5). -/
def leNat : List Byte → Nat
  | [] => 0
  | b :: r => b.toNat + 256 * leNat r

/-- The `n` low bytes of a number, lowest first (R5). -/
def natLe : Nat → Nat → List Byte
  | 0, _ => []
  | n + 1, v => BitVec.ofNat 8 v :: natLe n (v / 256)

/-- Signed value of the low `n` bits of a number. -/
def signedOf (n v : Nat) : Int :=
  let u := v % 2 ^ n
  if u < 2 ^ (n - 1) then (u : Int) else (u : Int) - (2 ^ n : Nat)

/-- An integer taken modulo `2 ^ n` (R9). -/
def wrapInt (n : Nat) (v : Int) : Nat := (v % (2 ^ n : Nat)).toNat

/-- Bits `h` down to `l` of a number, as a number (R5). -/
def bits (v h l : Nat) : Nat := v / 2 ^ l % 2 ^ (h + 1 - l)

/-- Round up to a multiple of `k`. -/
def roundUp (v k : Nat) : Nat := (v + (k - 1)) / k * k

/-- Ceiling division. -/
def ceilDiv (a b : Nat) : Nat := (a + (b - 1)) / b

end Sys2Proof
end

