-- ==== Sys2Proof/Syntax.lean ====
section
/-! DEFINITION. The steps of the part: every row of spec/opcode_table.json is one constructor of Instr.
Rows that are hinge-core instructions carry the issue marks and the decoded fields; rows that are events of
other agents carry what names the agent, and what the outside world brings with them (log entry 32). -/
namespace Sys2Proof

/-- GAP and SW of an instruction word (R79, R81, R86). -/
structure Marks where
  gap : BitVec 3
  sw  : Bool
deriving DecidableEq, Repr

/-- x0 to x31, v0 to v15, q0 to q15 (R80), and key numbers (R88). -/
abbrev XReg := BitVec 5
abbrev VReg := BitVec 4
abbrev QReg := BitVec 4
abbrev KIdx := BitVec 12

/-- A destination that may be an x or a v register (VRED, R149). -/
inductive XVReg where
  | x (r : XReg)
  | v (r : VReg)
deriving DecidableEq, Repr

/-- SP codes 0 to 3 (R89). -/
inductive Space where
  | dev | scr | rscr | flt
deriving DecidableEq, Repr

/-- SZ codes 0 to 3 (R89). -/
inductive Size where
  | byte | half | word | dword
deriving DecidableEq, Repr

/-- ORD codes 0 to 3 (R89). -/
inductive Order where
  | plain | acq | rel | acqrel
deriving DecidableEq, Repr

/-- Rounding codes 0 to 4 (R40). -/
inductive Rnd where
  | rne | rz | rd | ru | sr
deriving DecidableEq, Repr

/-- Lane width codes 0 to 2 (R142). -/
inductive LaneW where
  | b | h | w
deriving DecidableEq, Repr

/-- Floating lane formats, codes 1 and 2 (R143). -/
inductive FLane where
  | bf | f
deriving DecidableEq, Repr

/-- Lane types, codes 0 to 4 (R145). -/
inductive LaneTy where
  | i8 | i16 | i32 | bf | f
deriving DecidableEq, Repr

/-- Compare conditions, codes 0 to 6 (R145). -/
inductive VCond where
  | eq | ne | lt | ge | ltu | geu | un
deriving DecidableEq, Repr

/-- Scan and reduction operations, codes 0 to 7 (R149). -/
inductive ROp where
  | add | min | max | minu | maxu | and | or | xor
deriving DecidableEq, Repr

/-- Collective operations, codes 0 to 2 (R194). -/
inductive FoldOp where
  | add | min | max
deriving DecidableEq, Repr

/-- The command queues of a glade (R165, R221). -/
inductive Queue where
  | mq | cq0 | cq1 | cq2 | cq3 | xq | sr | sw | ms
deriving DecidableEq, Repr

/-- One hop of the understory or of a link (R22, R23). -/
inductive Hop where
  | gladeRouter (g : Nat)
  | groveSwitch (gr : Nat)
  | dieSwitch (d : Nat)
  | villum (d e : Nat)
  | canopy (port : Nat)
  | eth (port : Nat)
  | gladeIn (g : Nat)
deriving DecidableEq, Repr

/-- Where a request or message is going (R284): a glade's remote message queue, the bridge of a stack, the host bridge,
another package of the stand, or another stand. -/
inductive Home where
  | glade (g : Nat)
  | stack (k : Nat)
  | host
  | package (p : Nat)
  | stand (s : Nat)
deriving DecidableEq, Repr

/-- The functions with a self-test (R447); ports are numbered as LINKSEL numbers 0 to 18, adapters 0 to 3. -/
inductive DevFn where
  | glade (n : Nat)
  | mgmt (d : Nat)
  | stack (k : Nat)
  | port (p : Nat)
  | villum (i : Nat)
  | ref (i : Nat)
deriving DecidableEq, Repr

/-- The round header that members compare (R194). -/
structure CollHdr where
  kind  : Nat
  opr   : FoldOp
  fmt   : Nat
  len   : Nat
  root  : Nat
  valid : Bool
deriving DecidableEq, Repr

/-- A collective message, of this package or from another, or a table message of another (R193, R195, R405, R412). `tag` and `dest`
name the group slot; `clash` tells a member that another's TAG differs. -/
inductive CollMsg where
  | form (tag dest rank : Nat)
  | clash (tag dest : Nat)
  | contrib (tag dest rank : Nat) (hdr : CollHdr) (elems : List (BitVec 64)) (poison : List Bool)
  | probe (tag dest rank : Nat)
  | report (tag dest rank : Nat) (heard : List Nat)
  | result (tag dest : Nat) (members : List Nat)
  | tableWrite (launch : Nat) (va : Nat) (bytes : List Byte)
  | tableRead (launch : Nat) (va : Nat) (n : Nat)
deriving DecidableEq, Repr

/-- An Ethernet frame as a port sees it (R409, R410); an IPv4 address stands in its IPv4-mapped form. -/
structure EthFrame where
  v6   : Bool
  mac  : BitVec 48
  ip   : BitVec 128
  udp  : BitVec 16
  part : Nat
  msg  : CollMsg
deriving DecidableEq, Repr

/-- The member a collective message of another package names: the group's TAG and the destination rank (R405). -/
structure GroupRank where
  tag  : Nat
  dest : Nat
deriving DecidableEq, Repr

/-- A host write of the command word PCMD: its OP and the register it names (R390). -/
structure PcmdWrite where
  op  : BitVec 4
  spr : BitVec 12
deriving DecidableEq, Repr

/-- A host write of PARG, where there is one, and whether PCMD is written after it (R390). -/
structure PargWrite where
  parg : Option (BitVec 64)
  go   : Bool
deriving DecidableEq, Repr

/-- What fails: a port or adapter (R408), or the route from an Ethernet port to a stand (R409). -/
inductive FailedLink where
  | port (n : Nat)
  | route (n stand : Nat)
deriving DecidableEq, Repr

/-- The lanes a port has left, and the flits it has recovered by retransmission meanwhile (R408, R414). -/
structure LaneLoss where
  lanes : Nat
  flits : Nat
deriving DecidableEq, Repr

/-- The words of the boot window a host writes before BOOTGO, those that it does write (R450). -/
structure BootWords where
  addr : Option (BitVec 64)
  len  : Option (BitVec 32)
deriving DecidableEq, Repr

/-- The steps of the part, one constructor for each row of the table: first the instructions of the hinge core, then
the steps of other agents. -/
inductive Instr where
  /-- NOP (R105). -/
  | nop (m : Marks) (tag : BitVec 28)
  /-- ADD (R107). -/
  | add (m : Marks) (d : XReg) (a : XReg) (b : XReg)
  /-- SUB (R107). -/
  | sub (m : Marks) (d : XReg) (a : XReg) (b : XReg)
  /-- AND (R107). -/
  | and (m : Marks) (d : XReg) (a : XReg) (b : XReg)
  /-- OR (R107). -/
  | or (m : Marks) (d : XReg) (a : XReg) (b : XReg)
  /-- XOR (R107). -/
  | xor (m : Marks) (d : XReg) (a : XReg) (b : XReg)
  /-- SHL (R107). -/
  | shl (m : Marks) (d : XReg) (a : XReg) (b : XReg)
  /-- SHR (R107). -/
  | shr (m : Marks) (d : XReg) (a : XReg) (b : XReg)
  /-- SAR (R107). -/
  | sar (m : Marks) (d : XReg) (a : XReg) (b : XReg)
  /-- ROL (R107). -/
  | rol (m : Marks) (d : XReg) (a : XReg) (b : XReg)
  /-- ROR (R107). -/
  | ror (m : Marks) (d : XReg) (a : XReg) (b : XReg)
  /-- MIN (R107). -/
  | min (m : Marks) (d : XReg) (a : XReg) (b : XReg)
  /-- MAX (R107). -/
  | max (m : Marks) (d : XReg) (a : XReg) (b : XReg)
  /-- MINU (R107). -/
  | minu (m : Marks) (d : XReg) (a : XReg) (b : XReg)
  /-- MAXU (R107). -/
  | maxu (m : Marks) (d : XReg) (a : XReg) (b : XReg)
  /-- SLT (R107). -/
  | slt (m : Marks) (d : XReg) (a : XReg) (b : XReg)
  /-- SLTU (R107). -/
  | sltu (m : Marks) (d : XReg) (a : XReg) (b : XReg)
  /-- SEQ (R107). -/
  | seq (m : Marks) (d : XReg) (a : XReg) (b : XReg)
  /-- SNE (R107). -/
  | sne (m : Marks) (d : XReg) (a : XReg) (b : XReg)
  /-- ADDI (R108). -/
  | addi (m : Marks) (d : XReg) (a : XReg) (imm : BitVec 32)
  /-- SUBI (R108). -/
  | subi (m : Marks) (d : XReg) (a : XReg) (imm : BitVec 32)
  /-- ANDI (R108). -/
  | andi (m : Marks) (d : XReg) (a : XReg) (imm : BitVec 32)
  /-- ORI (R108). -/
  | ori (m : Marks) (d : XReg) (a : XReg) (imm : BitVec 32)
  /-- XORI (R108). -/
  | xori (m : Marks) (d : XReg) (a : XReg) (imm : BitVec 32)
  /-- SHLI (R108). -/
  | shli (m : Marks) (d : XReg) (a : XReg) (imm : BitVec 32)
  /-- SHRI (R108). -/
  | shri (m : Marks) (d : XReg) (a : XReg) (imm : BitVec 32)
  /-- SARI (R108). -/
  | sari (m : Marks) (d : XReg) (a : XReg) (imm : BitVec 32)
  /-- ROLI (R108). -/
  | roli (m : Marks) (d : XReg) (a : XReg) (imm : BitVec 32)
  /-- RORI (R108). -/
  | rori (m : Marks) (d : XReg) (a : XReg) (imm : BitVec 32)
  /-- MINI (R108). -/
  | mini (m : Marks) (d : XReg) (a : XReg) (imm : BitVec 32)
  /-- MAXI (R108). -/
  | maxi (m : Marks) (d : XReg) (a : XReg) (imm : BitVec 32)
  /-- MINUI (R108). -/
  | minui (m : Marks) (d : XReg) (a : XReg) (imm : BitVec 32)
  /-- MAXUI (R108). -/
  | maxui (m : Marks) (d : XReg) (a : XReg) (imm : BitVec 32)
  /-- SLTI (R108). -/
  | slti (m : Marks) (d : XReg) (a : XReg) (imm : BitVec 32)
  /-- SLTUI (R108). -/
  | sltui (m : Marks) (d : XReg) (a : XReg) (imm : BitVec 32)
  /-- SEQI (R108). -/
  | seqi (m : Marks) (d : XReg) (a : XReg) (imm : BitVec 32)
  /-- SNEI (R108). -/
  | snei (m : Marks) (d : XReg) (a : XReg) (imm : BitVec 32)
  /-- MUL (R109). -/
  | mul (m : Marks) (d : XReg) (a : XReg) (b : XReg)
  /-- MULH (R109). -/
  | mulh (m : Marks) (d : XReg) (a : XReg) (b : XReg)
  /-- MULHU (R109). -/
  | mulhu (m : Marks) (d : XReg) (a : XReg) (b : XReg)
  /-- DIV (R109). -/
  | div (m : Marks) (d : XReg) (a : XReg) (b : XReg)
  /-- DIVU (R109). -/
  | divu (m : Marks) (d : XReg) (a : XReg) (b : XReg)
  /-- REM (R109). -/
  | rem (m : Marks) (d : XReg) (a : XReg) (b : XReg)
  /-- REMU (R109). -/
  | remu (m : Marks) (d : XReg) (a : XReg) (b : XReg)
  /-- CLZ (R110). -/
  | clz (m : Marks) (d : XReg) (a : XReg)
  /-- CTZ (R110). -/
  | ctz (m : Marks) (d : XReg) (a : XReg)
  /-- POPC (R110). -/
  | popc (m : Marks) (d : XReg) (a : XReg)
  /-- SEXT_B (R110). -/
  | sextB (m : Marks) (d : XReg) (a : XReg)
  /-- SEXT_H (R110). -/
  | sextH (m : Marks) (d : XReg) (a : XReg)
  /-- SEXT_W (R110). -/
  | sextW (m : Marks) (d : XReg) (a : XReg)
  /-- ZEXT_B (R110). -/
  | zextB (m : Marks) (d : XReg) (a : XReg)
  /-- ZEXT_H (R110). -/
  | zextH (m : Marks) (d : XReg) (a : XReg)
  /-- ZEXT_W (R110). -/
  | zextW (m : Marks) (d : XReg) (a : XReg)
  /-- BREV (R110). -/
  | brev (m : Marks) (d : XReg) (a : XReg)
  /-- MOVI (R111). -/
  | movi (m : Marks) (d : XReg) (imm : BitVec 32)
  /-- MOVIH (R112). -/
  | movih (m : Marks) (d : XReg) (a : XReg) (imm : BitVec 32)
  /-- LEA (R113). -/
  | lea (m : Marks) (d : XReg) (a : XReg) (b : XReg) (sh : BitVec 2)
  /-- LEA_RG (R113). -/
  | leaRg (m : Marks) (d : XReg) (a : XReg) (b : XReg)
  /-- BEQ (R115). -/
  | beq (m : Marks) (a : XReg) (b : XReg) (off : BitVec 32)
  /-- BNE (R115). -/
  | bne (m : Marks) (a : XReg) (b : XReg) (off : BitVec 32)
  /-- BLT (R115). -/
  | blt (m : Marks) (a : XReg) (b : XReg) (off : BitVec 32)
  /-- BGE (R115). -/
  | bge (m : Marks) (a : XReg) (b : XReg) (off : BitVec 32)
  /-- BLTU (R115). -/
  | bltu (m : Marks) (a : XReg) (b : XReg) (off : BitVec 32)
  /-- BGEU (R115). -/
  | bgeu (m : Marks) (a : XReg) (b : XReg) (off : BitVec 32)
  /-- BFE (R116). -/
  | bfe (m : Marks) (off : BitVec 32)
  /-- BNFE (R116). -/
  | bnfe (m : Marks) (off : BitVec 32)
  /-- J (R117). -/
  | j (m : Marks) (off : BitVec 32)
  /-- JAL (R117). -/
  | jal (m : Marks) (off : BitVec 32)
  /-- JR (R118). -/
  | jr (m : Marks) (a : XReg) (off : BitVec 32)
  /-- LOOP (R119). -/
  | loop (m : Marks) (a : XReg) (off : BitVec 32)
  /-- ENDL (R120). -/
  | endl (m : Marks) (off : BitVec 32)
  /-- LD_B (R125). -/
  | ldB (m : Marks) (t : XReg) (a : XReg) (sp : Space) (sc : BitVec 3) (ord : Order) (off : BitVec 30)
  /-- LD_H (R125). -/
  | ldH (m : Marks) (t : XReg) (a : XReg) (sp : Space) (sc : BitVec 3) (ord : Order) (off : BitVec 30)
  /-- LD_W (R125). -/
  | ldW (m : Marks) (t : XReg) (a : XReg) (sp : Space) (sc : BitVec 3) (ord : Order) (off : BitVec 30)
  /-- LD_D (R125). -/
  | ldD (m : Marks) (t : XReg) (a : XReg) (sp : Space) (sc : BitVec 3) (ord : Order) (off : BitVec 30)
  /-- ST_B (R126). -/
  | stB (m : Marks) (t : XReg) (a : XReg) (sp : Space) (sc : BitVec 3) (ord : Order) (off : BitVec 30)
  /-- ST_H (R126). -/
  | stH (m : Marks) (t : XReg) (a : XReg) (sp : Space) (sc : BitVec 3) (ord : Order) (off : BitVec 30)
  /-- ST_W (R126). -/
  | stW (m : Marks) (t : XReg) (a : XReg) (sp : Space) (sc : BitVec 3) (ord : Order) (off : BitVec 30)
  /-- ST_D (R126). -/
  | stD (m : Marks) (t : XReg) (a : XReg) (sp : Space) (sc : BitVec 3) (ord : Order) (off : BitVec 30)
  /-- VLD (R135). -/
  | vld (m : Marks) (d : VReg) (a : XReg) (b : XReg) (sp : Space)
  /-- VST (R136). -/
  | vst (m : Marks) (c : VReg) (a : XReg) (b : XReg) (sp : Space)
  /-- VGATH (R138). -/
  | vgath (m : Marks) (d : VReg) (a : XReg) (b : VReg) (sp : Space) (sz : Size)
  /-- VSCAT (R139). -/
  | vscat (m : Marks) (c : VReg) (a : XReg) (b : VReg) (sp : Space) (sz : Size)
  /-- VADD (R142). -/
  | vadd (m : Marks) (lw : LaneW) (d : VReg) (a : VReg) (b : VReg)
  /-- VSUB (R142). -/
  | vsub (m : Marks) (lw : LaneW) (d : VReg) (a : VReg) (b : VReg)
  /-- VAND (R142). -/
  | vand (m : Marks) (lw : LaneW) (d : VReg) (a : VReg) (b : VReg)
  /-- VOR (R142). -/
  | vor (m : Marks) (lw : LaneW) (d : VReg) (a : VReg) (b : VReg)
  /-- VXOR (R142). -/
  | vxor (m : Marks) (lw : LaneW) (d : VReg) (a : VReg) (b : VReg)
  /-- VSHL (R142). -/
  | vshl (m : Marks) (lw : LaneW) (d : VReg) (a : VReg) (b : VReg)
  /-- VSHR (R142). -/
  | vshr (m : Marks) (lw : LaneW) (d : VReg) (a : VReg) (b : VReg)
  /-- VSAR (R142). -/
  | vsar (m : Marks) (lw : LaneW) (d : VReg) (a : VReg) (b : VReg)
  /-- VMIN (R142). -/
  | vmin (m : Marks) (lw : LaneW) (d : VReg) (a : VReg) (b : VReg)
  /-- VMAX (R142). -/
  | vmax (m : Marks) (lw : LaneW) (d : VReg) (a : VReg) (b : VReg)
  /-- VMINU (R142). -/
  | vminu (m : Marks) (lw : LaneW) (d : VReg) (a : VReg) (b : VReg)
  /-- VMAXU (R142). -/
  | vmaxu (m : Marks) (lw : LaneW) (d : VReg) (a : VReg) (b : VReg)
  /-- VMUL (R142). -/
  | vmul (m : Marks) (lw : LaneW) (d : VReg) (a : VReg) (b : VReg)
  /-- VMULH (R142). -/
  | vmulh (m : Marks) (lw : LaneW) (d : VReg) (a : VReg) (b : VReg)
  /-- VMULHU (R142). -/
  | vmulhu (m : Marks) (lw : LaneW) (d : VReg) (a : VReg) (b : VReg)
  /-- VADDS (R142). -/
  | vadds (m : Marks) (lw : LaneW) (d : VReg) (a : VReg) (b : VReg)
  /-- VSUBS (R142). -/
  | vsubs (m : Marks) (lw : LaneW) (d : VReg) (a : VReg) (b : VReg)
  /-- VADDSU (R142). -/
  | vaddsu (m : Marks) (lw : LaneW) (d : VReg) (a : VReg) (b : VReg)
  /-- VSUBSU (R142). -/
  | vsubsu (m : Marks) (lw : LaneW) (d : VReg) (a : VReg) (b : VReg)
  /-- VABS (R142). -/
  | vabs (m : Marks) (lw : LaneW) (d : VReg) (a : VReg)
  /-- VFADD (R143). -/
  | vfadd (m : Marks) (fl : FLane) (rm : Rnd) (d : VReg) (a : VReg) (b : VReg)
  /-- VFSUB (R143). -/
  | vfsub (m : Marks) (fl : FLane) (rm : Rnd) (d : VReg) (a : VReg) (b : VReg)
  /-- VFMUL (R143). -/
  | vfmul (m : Marks) (fl : FLane) (rm : Rnd) (d : VReg) (a : VReg) (b : VReg)
  /-- VFMIN (R143). -/
  | vfmin (m : Marks) (fl : FLane) (d : VReg) (a : VReg) (b : VReg)
  /-- VFMAX (R143). -/
  | vfmax (m : Marks) (fl : FLane) (d : VReg) (a : VReg) (b : VReg)
  /-- VFABS (R143). -/
  | vfabs (m : Marks) (fl : FLane) (d : VReg) (a : VReg)
  /-- VFNEG (R143). -/
  | vfneg (m : Marks) (fl : FLane) (d : VReg) (a : VReg)
  /-- VFMA (R143). -/
  | vfma (m : Marks) (fl : FLane) (rm : Rnd) (d : VReg) (a : VReg) (b : VReg) (c : VReg)
  /-- VFMS (R143). -/
  | vfms (m : Marks) (fl : FLane) (rm : Rnd) (d : VReg) (a : VReg) (b : VReg) (c : VReg)
  /-- VFNMA (R143). -/
  | vfnma (m : Marks) (fl : FLane) (rm : Rnd) (d : VReg) (a : VReg) (b : VReg) (c : VReg)
  /-- VFNMS (R143). -/
  | vfnms (m : Marks) (fl : FLane) (rm : Rnd) (d : VReg) (a : VReg) (b : VReg) (c : VReg)
  /-- VRCP (R144). -/
  | vrcp (m : Marks) (d : VReg) (a : VReg)
  /-- VRSQ (R144). -/
  | vrsq (m : Marks) (d : VReg) (a : VReg)
  /-- VEXP2 (R144). -/
  | vexp2 (m : Marks) (d : VReg) (a : VReg)
  /-- VLOG2 (R144). -/
  | vlog2 (m : Marks) (d : VReg) (a : VReg)
  /-- VCMP (R145). -/
  | vcmp (m : Marks) (ty : LaneTy) (cond : VCond) (d : VReg) (a : VReg) (b : VReg)
  /-- VSEL (R146). -/
  | vsel (m : Marks) (lw : LaneW) (d : VReg) (a : VReg) (b : VReg) (c : VReg)
  /-- VCVT (R148). -/
  | vcvt (m : Marks) (pair : BitVec 4) (rm : Rnd) (nan : Bool) (d : VReg) (a : VReg) (b : XReg)
  /-- VSCAN (R149). -/
  | vscan (m : Marks) (ty : LaneTy) (op : ROp) (d : VReg) (a : VReg) (h : Option VReg)
  /-- VRED (R149). -/
  | vred (m : Marks) (ty : LaneTy) (op : ROp) (d : XVReg) (a : VReg)
  /-- VPERM (R150). -/
  | vperm (m : Marks) (lw : LaneW) (d : VReg) (a : VReg) (b : VReg) (c : Option VReg)
  /-- VBCAST_X (R151). -/
  | vbcastX (m : Marks) (lw : LaneW) (d : VReg) (a : XReg)
  /-- VBCAST_V (R151). -/
  | vbcastV (m : Marks) (lw : LaneW) (d : VReg) (a : VReg) (b : XReg)
  /-- VLANE_GET (R152). -/
  | vlaneGet (m : Marks) (lw : LaneW) (d : XReg) (a : VReg) (b : XReg)
  /-- VLANE_GETU (R152). -/
  | vlaneGetu (m : Marks) (lw : LaneW) (d : XReg) (a : VReg) (b : XReg)
  /-- VLANE_SET (R152). -/
  | vlaneSet (m : Marks) (lw : LaneW) (d : VReg) (a : XReg) (b : XReg)
  /-- VLANE_IOTA (R152). -/
  | vlaneIota (m : Marks) (lw : LaneW) (d : VReg)
  /-- QSET (R155). -/
  | qset (m : Marks) (d : QReg) (a : XReg)
  /-- QSET_U (R155). -/
  | qsetU (m : Marks) (d : QReg)
  /-- QSET_CFG (R155). -/
  | qsetCfg (m : Marks) (d : QReg) (a : XReg) (b : XReg) (c : XReg)
  /-- QINFO (R156). -/
  | qinfo (m : Marks) (fld : BitVec 3) (d : XReg) (a : QReg)
  /-- QADV_C (R157). -/
  | qadvC (m : Marks) (d : QReg) (a : XReg) (imm : BitVec 32)
  /-- QADV_P (R157). -/
  | qadvP (m : Marks) (d : QReg) (a : XReg) (imm : BitVec 32)
  /-- QWAIT_C (R158). -/
  | qwaitC (m : Marks) (d : QReg) (k : BitVec 13)
  /-- QWAIT_P (R158). -/
  | qwaitP (m : Marks) (d : QReg) (k : BitVec 13)
  /-- VLDQ (R159). -/
  | vldq (m : Marks) (d : VReg) (a : QReg) (k : BitVec 12) (p : BitVec 8)
  /-- VLDQ_ADV (R159). -/
  | vldqAdv (m : Marks) (d : VReg) (a : QReg) (k : BitVec 12) (p : BitVec 8)
  /-- VSTQ (R159). -/
  | vstq (m : Marks) (d : QReg) (a : VReg) (k : BitVec 12) (p : BitVec 8)
  /-- VSTQ_ADV (R159). -/
  | vstqAdv (m : Marks) (d : QReg) (a : VReg) (k : BitVec 12) (p : BitVec 8)
  /-- KLD (R169). -/
  | kld (m : Marks) (k : KIdx) (x : XReg) (sp : Space)
  /-- KST (R169). -/
  | kst (m : Marks) (k : KIdx) (x : XReg) (sp : Space)
  /-- KSET (R170). -/
  | kset (m : Marks) (k : KIdx) (w : BitVec 4) (dbl : Bool) (x : XReg)
  /-- KINV (R170). -/
  | kinv (m : Marks) (ka : KIdx) (kb : KIdx) (range : Bool)
  /-- MMA (R175). -/
  | mma (m : Marks) (z : Bool) (ka : KIdx) (kb : KIdx) (kc : KIdx)
  /-- MZERO (R176). -/
  | mzero (m : Marks) (kc : KIdx)
  /-- MOUT (R177). -/
  | mout (m : Marks) (rm : Rnd) (nanm : Bool) (clr : Bool) (ka : KIdx) (kb : KIdx) (x : XReg)
  /-- MPROG (R178). -/
  | mprog (m : Marks) (x : XReg)
  /-- MWAIT (R172). -/
  | mwait (m : Marks) (x : XReg)
  /-- COPY (R182). -/
  | copy (m : Marks) (q : BitVec 2) (prom : Bool) (cv : Bool) (rm : BitVec 3) (nanm : Bool) (ka : KIdx) (kb : KIdx) (x : XReg)
  /-- COPY_MMA_BUNDLE (R184). -/
  | copyMmaBundle (m : Marks) (q : BitVec 2) (prom : Bool) (cv : Bool) (rm : BitVec 3) (nanm : Bool) (ka : KIdx) (kb : KIdx) (x : XReg) (z : Bool) (ma : KIdx) (mb : KIdx) (mc : KIdx)
  /-- PACK_NZ (R186). -/
  | packNz (m : Marks) (q : BitVec 2) (ka : KIdx) (kb : KIdx) (x : XReg)
  /-- PACK_THR (R186). -/
  | packThr (m : Marks) (q : BitVec 2) (ka : KIdx) (kb : KIdx) (x : XReg)
  /-- PACK_TOP (R186). -/
  | packTop (m : Marks) (q : BitVec 2) (ka : KIdx) (kb : KIdx) (x : XReg)
  /-- PACK_STO (R187). -/
  | packSto (m : Marks) (q : BitVec 2) (ka : KIdx) (kb : KIdx) (x : XReg)
  /-- UNPACK (R188). -/
  | unpack (m : Marks) (q : BitVec 2) (ka : KIdx) (kb : KIdx)
  /-- GATHER (R189). -/
  | gather (m : Marks) (q : BitVec 2) (ka : KIdx) (kb : KIdx) (kc : KIdx)
  /-- SCATTER (R189). -/
  | scatter (m : Marks) (q : BitVec 2) (ka : KIdx) (kb : KIdx) (kc : KIdx)
  /-- FILL (R191). -/
  | fill (m : Marks) (q : BitVec 2) (kb : KIdx) (x : XReg)
  /-- CPWAIT (R172). -/
  | cpwait (m : Marks) (x : XReg) (mask : BitVec 4)
  /-- COLL_ALLRED (R195). -/
  | collAllred (m : Marks) (slot : BitVec 4) (opr : FoldOp) (ka : KIdx) (kb : KIdx)
  /-- COLL_REDSCAT (R195). -/
  | collRedscat (m : Marks) (slot : BitVec 4) (opr : FoldOp) (ka : KIdx) (kb : KIdx)
  /-- COLL_ALLGATH (R195). -/
  | collAllgath (m : Marks) (slot : BitVec 4) (opr : FoldOp) (ka : KIdx) (kb : KIdx)
  /-- COLL_BCAST (R195). -/
  | collBcast (m : Marks) (slot : BitVec 4) (opr : FoldOp) (ka : KIdx) (kb : KIdx) (x : XReg)
  /-- COLLWAIT (R172). -/
  | collwait (m : Marks) (x : XReg) (slot : BitVec 4) (one : Bool)
  /-- COLLGRP_FORM (R193). -/
  | collgrpForm (m : Marks) (slot : BitVec 4) (x : XReg)
  /-- COLLGRP_REFORM (R197). -/
  | collgrpReform (m : Marks) (slot : BitVec 4) (x : XReg)
  /-- COLLGRP_RELEASE (R193). -/
  | collgrpRelease (m : Marks) (slot : BitVec 4)
  /-- AMO_ADD (R201). -/
  | amoAdd (m : Marks) (dbl : Bool) (d : XReg) (a : XReg) (b : XReg) (sp : Space) (sc : BitVec 3) (ord : Order)
  /-- AMO_AND (R201). -/
  | amoAnd (m : Marks) (dbl : Bool) (d : XReg) (a : XReg) (b : XReg) (sp : Space) (sc : BitVec 3) (ord : Order)
  /-- AMO_OR (R201). -/
  | amoOr (m : Marks) (dbl : Bool) (d : XReg) (a : XReg) (b : XReg) (sp : Space) (sc : BitVec 3) (ord : Order)
  /-- AMO_XOR (R201). -/
  | amoXor (m : Marks) (dbl : Bool) (d : XReg) (a : XReg) (b : XReg) (sp : Space) (sc : BitVec 3) (ord : Order)
  /-- AMO_MIN (R201). -/
  | amoMin (m : Marks) (dbl : Bool) (d : XReg) (a : XReg) (b : XReg) (sp : Space) (sc : BitVec 3) (ord : Order)
  /-- AMO_MAX (R201). -/
  | amoMax (m : Marks) (dbl : Bool) (d : XReg) (a : XReg) (b : XReg) (sp : Space) (sc : BitVec 3) (ord : Order)
  /-- AMO_MINU (R201). -/
  | amoMinu (m : Marks) (dbl : Bool) (d : XReg) (a : XReg) (b : XReg) (sp : Space) (sc : BitVec 3) (ord : Order)
  /-- AMO_MAXU (R201). -/
  | amoMaxu (m : Marks) (dbl : Bool) (d : XReg) (a : XReg) (b : XReg) (sp : Space) (sc : BitVec 3) (ord : Order)
  /-- AMO_SWAP (R201). -/
  | amoSwap (m : Marks) (dbl : Bool) (d : XReg) (a : XReg) (b : XReg) (sp : Space) (sc : BitVec 3) (ord : Order)
  /-- AMO_CAS (R201). -/
  | amoCas (m : Marks) (dbl : Bool) (d : XReg) (a : XReg) (b : XReg) (c : XReg) (sp : Space) (sc : BitVec 3) (ord : Order)
  /-- AMO_FADD (R201). -/
  | amoFadd (m : Marks) (d : XReg) (a : XReg) (b : XReg) (sp : Space) (sc : BitVec 3) (ord : Order)
  /-- AMO_BFADD (R201). -/
  | amoBfadd (m : Marks) (d : XReg) (a : XReg) (b : XReg) (sp : Space) (sc : BitVec 3) (ord : Order)
  /-- WAITMON (R204). -/
  | waitmon (m : Marks) (dbl : Bool) (d : XReg) (a : XReg) (b : XReg) (c : XReg) (sp : Space) (sc : BitVec 3) (ord : Order)
  /-- BAR_JOIN (R208). -/
  | barJoin (m : Marks) (d : XReg) (a : XReg) (sp : Space)
  /-- BAR_ARRIVE (R208). -/
  | barArrive (m : Marks) (d : XReg) (a : XReg) (sp : Space)
  /-- BAR_WAIT (R208). -/
  | barWait (m : Marks) (d : XReg) (a : XReg) (b : XReg) (sp : Space)
  /-- BAR_ARRWAIT (R208). -/
  | barArrwait (m : Marks) (d : XReg) (a : XReg) (sp : Space)
  /-- BAR_DROP (R208). -/
  | barDrop (m : Marks) (d : XReg) (a : XReg) (sp : Space)
  /-- FRENEW (R211). -/
  | frenew (m : Marks) (d : XReg) (a : XReg)
  /-- FLIFE (R211). -/
  | flife (m : Marks) (d : XReg) (a : XReg)
  /-- FCLAIM (R211). -/
  | fclaim (m : Marks) (d : XReg) (a : XReg)
  /-- FENCE_FULL (R213). -/
  | fenceFull (m : Marks) (sc : BitVec 3)
  /-- FENCE_ACQ (R213). -/
  | fenceAcq (m : Marks) (sc : BitVec 3)
  /-- FENCE_REL (R213). -/
  | fenceRel (m : Marks) (sc : BitVec 3)
  /-- FENCE_ST (R213). -/
  | fenceSt (m : Marks) (sc : BitVec 3)
  /-- FENCEQ (R214). -/
  | fenceq (m : Marks) (mask : BitVec 10) (sc : BitVec 3)
  /-- FENCEQ_W (R214). -/
  | fenceqW (m : Marks) (mask : BitVec 10) (sc : BitVec 3)
  /-- SLEEPUNTIL (R215). -/
  | sleepuntil (m : Marks) (a : XReg)
  /-- SLEEPUNTIL_NP (R215). -/
  | sleepuntilNp (m : Marks) (a : XReg)
  /-- RDTICK (R215). -/
  | rdtick (m : Marks) (d : XReg)
  /-- YIELD (R216). -/
  | yield (m : Marks)
  /-- EXIT (R217). -/
  | exit (m : Marks)
  /-- RNG_SEED (R218). -/
  | rngSeed (m : Marks) (a : XReg) (b : XReg)
  /-- RNG_NEXT (R218). -/
  | rngNext (m : Marks) (d : XReg)
  /-- RNG_GET (R218). -/
  | rngGet (m : Marks) (d : XReg) (a : XReg)
  /-- CFGW (R219). -/
  | cfgw (m : Marks) (d : XReg) (a : XReg)
  /-- CFGS (R219). -/
  | cfgs (m : Marks) (d : XReg) (a : XReg) (b : XReg) (sp : Space)
  /-- PLANE_RUN (R220). -/
  | planeRun (m : Marks) (p : BitVec 2)
  /-- PLANE_HALT (R220). -/
  | planeHalt (m : Marks) (p : BitVec 2)
  /-- PLANE_STAT (R253). -/
  | planeStat (m : Marks) (d : XReg) (p : BitVec 2)
  /-- PLANE_CLR (R253). -/
  | planeClr (m : Marks) (p : BitVec 2)
  /-- PLANE_FREE (R252). -/
  | planeFree (m : Marks) (p : BitVec 2)
  /-- STRM_SR (R221). -/
  | strmSr (m : Marks) (dep : BitVec 2) (ka : KIdx) (x : XReg)
  /-- STRM_SW (R221). -/
  | strmSw (m : Marks) (dep : BitVec 2) (ka : KIdx) (x : XReg)
  /-- STRM_MS (R221). -/
  | strmMs (m : Marks) (dir : Bool) (dep : BitVec 2) (ka : KIdx) (x : XReg)
  /-- SBAR (R222). -/
  | sbar (m : Marks) (mask : BitVec 3)
  /-- SBAR_W (R222). -/
  | sbarW (m : Marks) (mask : BitVec 3)
  /-- SENDVC (R223). -/
  | sendvc (m : Marks) (vc : BitVec 5) (kind : BitVec 3) (a : XReg)
  /-- RECVVC (R223). -/
  | recvvc (m : Marks) (d : XReg) (vc : BitVec 5)
  /-- RECVVC_NB (R223). -/
  | recvvcNb (m : Marks) (d : XReg) (vc : BitVec 5)
  /-- WAITVC (R223). -/
  | waitvc (m : Marks) (d : XReg) (mask : BitVec 32)
  /-- TRAP (R224). -/
  | trap (m : Marks) (imm : BitVec 28)
  /-- RTE (R103). -/
  | rte (m : Marks)
  /-- SPRR (R225). -/
  | sprr (m : Marks) (d : XReg) (spr : BitVec 12)
  /-- SPRW (R225). -/
  | sprw (m : Marks) (spr : BitVec 12) (a : XReg)
  /-- LAUNCH (R332). -/
  | launch (m : Marks) (d : XReg) (a : XReg)
  /-- LWAIT (R226). -/
  | lwait (m : Marks) (d : XReg) (a : XReg)
  /-- LEASE_GET (R374). -/
  | leaseGet (m : Marks) (d : XReg) (a : XReg) (b : XReg)
  /-- LEASE_REVOKE (R374). -/
  | leaseRevoke (m : Marks) (d : XReg) (a : XReg) (b : XReg)
  /-- LEASE_RELEASE (R374). -/
  | leaseRelease (m : Marks) (d : XReg) (a : XReg) (b : XReg)
  /-- INVPG (R372). -/
  | invpg (m : Marks) (a : XReg) (b : XReg) (big : Bool)
  /-- RETIRE_BEGIN (R431). -/
  | retireBegin (m : Marks) (d : XReg) (a : XReg)
  /-- BKPT (R224). -/
  | bkpt (m : Marks) (imm : BitVec 28)
  /-- HOLD_SET (R74). -/
  | holdSet (m : Marks) (d : XReg) (a : XReg) (b : XReg)
  /-- HOLD_REL (R74). -/
  | holdRel (m : Marks) (d : XReg) (a : XReg) (b : XReg)
  /-- PCTR_RD (R395). -/
  | pctrRd (m : Marks) (d : XReg) (a : XReg)
  /-- PCTR_SEL (R395). -/
  | pctrSel (m : Marks) (a : XReg) (b : XReg)
  /-- PCTR_CLR (R395). -/
  | pctrClr (m : Marks) (a : XReg)
  /-- HIST_RD (R396). -/
  | histRd (m : Marks) (d : XReg) (a : XReg) (b : XReg)
  /-- HIST_ARM (R396). -/
  | histArm (m : Marks) (a : XReg) (b : XReg) (c : XReg)
  /-- HIST_CLR (R396). -/
  | histClr (m : Marks) (a : XReg)
  /-- WAITMON_DEADLINE (R204). -/
  | waitmonDeadline (g : Nat) (t : Nat)
  /-- FENCEQ_ENTRY_RELEASE (R296). -/
  | fenceqEntryRelease (g : Nat) (id : Nat)
  /-- SLEEPUNTIL_WAKE (R215). -/
  | sleepuntilWake (g : Nat) (t : Nat)
  /-- CONFIG_COMMAND_APPLY (R232). -/
  | configCommandApply (g : Nat)
  /-- ENGINE_COMMIT_SAMPLE (R396). -/
  | engineCommitSample (g : Nat) (src : Nat) (v : Nat)
  /-- TRAP_ENTRY (R103). -/
  | trapEntry (g : Nat) (t : Nat)
  /-- ALU_FIRE (R239). -/
  | aluFire (g : Nat) (e : Nat)
  /-- FALU_FIRE (R240). -/
  | faluFire (g : Nat) (e : Nat)
  /-- CONST_FIRE (R241). -/
  | constFire (g : Nat) (e : Nat)
  /-- DUP_FIRE (R242). -/
  | dupFire (g : Nat) (e : Nat)
  /-- STEER_FIRE (R244). -/
  | steerFire (g : Nat) (e : Nat)
  /-- MERGE_FIRE (R244). -/
  | mergeFire (g : Nat) (e : Nat)
  /-- AMERGE_FIRE (R245). -/
  | amergeFire (g : Nat) (e : Nat)
  /-- CARRY_FIRE (R246). -/
  | carryFire (g : Nat) (e : Nat)
  /-- LCE_FIRE (R247). -/
  | lceFire (g : Nat) (e : Nat)
  /-- DJOIN_FIRE (R248). -/
  | djoinFire (g : Nat) (e : Nat)
  /-- ARB_REPLY_FIRE (R249). -/
  | arbReplyFire (g : Nat) (e : Nat)
  /-- ARB_GRANT_FIRE (R249). -/
  | arbGrantFire (g : Nat) (e : Nat)
  /-- SRC_FIRE (R250). -/
  | srcFire (g : Nat) (e : Nat)
  /-- SNK_FIRE (R250). -/
  | snkFire (g : Nat) (e : Nat)
  /-- VCI_FIRE (R250). -/
  | vciFire (g : Nat) (e : Nat)
  /-- VCO_FIRE (R250). -/
  | vcoFire (g : Nat) (e : Nat)
  /-- ENTRY_FIRE (R251). -/
  | entryFire (g : Nat) (e : Nat)
  /-- PLANE_SCHEDULE_DECISION (R255). -/
  | planeScheduleDecision (g : Nat)
  /-- VC_WORD_ARRIVE (R69). -/
  | vcWordArrive (g : Nat) (vc : Nat)
  /-- VC_PERSISTENT_BACKPRESSURE (R70). -/
  | vcPersistentBackpressure (g : Nat) (vc : Nat)
  /-- SPILL_RECORD_REINJECT (R327). -/
  | spillRecordReinject (g : Nat) (vc : Nat)
  /-- SQ_DRAIN (R285). -/
  | sqDrain (g : Nat) (t : Nat)
  /-- REQUEST_HOP (R285). -/
  | requestHop (h : Hop) (home : Home)
  /-- BANK_PERFORM (R307). -/
  | bankPerform (g : Nat) (bank : Nat)
  /-- BRIDGE_PERFORM (R284). -/
  | bridgePerform (b : Nat)
  /-- REPLAY_RELEASE (R72). -/
  | replayRelease (b : Nat)
  /-- REMOTE_MESSAGE_ARRIVE (R311). -/
  | remoteMessageArrive (g : Nat)
  /-- REMOTE_MESSAGE_DISPATCH (R311). -/
  | remoteMessageDispatch (g : Nat)
  /-- CREDIT_RETURN_RECEIVE (R312). -/
  | creditReturnReceive (g : Nat) (target : Nat)
  /-- ENGINE_BEGIN (R294). -/
  | engineBegin (g : Nat) (q : Queue) (id : Nat)
  /-- ENGINE_ACCESS (R294). -/
  | engineAccess (g : Nat) (q : Queue) (id : Nat)
  /-- ENGINE_COMPLETE (R294). -/
  | engineComplete (g : Nat) (q : Queue) (id : Nat)
  /-- COLL_MESSAGE_RECEIVE (R405). -/
  | collMessageReceive (part : Nat) (msg : CollMsg)
  /-- COLL_ROUND_TIMEOUT (R196). -/
  | collRoundTimeout (g : Nat) (slot : Nat)
  /-- REFORM_PROBE_RECEIVE (R412). -/
  | reformProbeReceive (part : Nat) (grp : GroupRank) (rank : Nat)
  /-- REFORM_PROBE_SEND (R412). -/
  | reformProbeSend (g : Nat) (slot : Nat)
  /-- REFORM_PROBE_PHASE_END (R412). -/
  | reformProbePhaseEnd (g : Nat) (slot : Nat)
  /-- REFORM_REPORT_RECEIVE (R412). -/
  | reformReportReceive (part : Nat) (grp : GroupRank) (rank : Nat) (heard : List Nat)
  /-- REFORM_REPORT_PHASE_END (R412). -/
  | reformReportPhaseEnd (g : Nat) (slot : Nat)
  /-- REFORM_RESULT_RECEIVE (R197). -/
  | reformResultReceive (part : Nat) (grp : GroupRank) (members : List Nat)
  /-- REFORM_RESULT_TIMEOUT (R412). -/
  | reformResultTimeout (g : Nat) (slot : Nat)
  /-- TICK (R27). -/
  | tick
  /-- GLADE_STOP_REQUEST (R384). -/
  | gladeStopRequest (g : Nat)
  /-- CONTEXT_SAVE (R388). -/
  | contextSave (g : Nat)
  /-- CONTEXT_RESTORE (R388). -/
  | contextRestore (part : Nat) (n : Nat)
  /-- SCHEDULER_EVALUATE (R338). -/
  | schedulerEvaluate (part : Nat)
  /-- QUANTUM_EXPIRE (R338). -/
  | quantumExpire (part : Nat) (n : Nat)
  /-- LAUNCH_DISPATCH (R337). -/
  | launchDispatch (part : Nat) (n : Nat)
  /-- LEASE_WALK (R366). -/
  | leaseWalk (part : Nat) (n : Nat)
  /-- LRESUME_WRITE (R367). -/
  | lresumeWrite (part : Nat) (v : BitVec 64)
  /-- LAUNCH_ROTATION (R342). -/
  | launchRotation (part : Nat) (n : Nat)
  /-- COMPLETION_WAVE (R350). -/
  | completionWave (part : Nat) (n : Nat)
  /-- LAUNCH_ENDING_DONE (R347). -/
  | launchEndingDone (part : Nat) (n : Nat)
  /-- LTERM_WRITE (R348). -/
  | ltermWrite (part : Nat) (v : BitVec 64)
  /-- WALKER_SET_BIT (R371). -/
  | walkerSetBit (part : Nat) (va : Nat) (dirty : Bool)
  /-- PAGE_VECTOR_MISS (R369). -/
  | pageVectorMiss (g : Nat) (va : Nat)
  /-- EVENT_RECORD_WRITE (R382). -/
  | eventRecordWrite (ring : Option Nat)
  /-- DBG_HALT (R391). -/
  | dbgHalt
  /-- DBG_RESUME (R391). -/
  | dbgResume
  /-- DBG_STEP (R391). -/
  | dbgStep
  /-- TCMD_RESUME (R397). -/
  | tcmdResume (part : Nat)
  /-- TCMD_RETIRE (R397). -/
  | tcmdRetire (part : Nat)
  /-- PORT_SPR_READ (R390): a host write of PCMD with OP 1, or with an OP that is unassigned. -/
  | portSprRead (cmd : PcmdWrite)
  /-- PORT_SPR_WRITE (R390): a host write of PDATA, where there is one, then of PCMD with OP 2, where there is one. -/
  | portSprWrite (pdata : Option (BitVec 64)) (spr : Option (BitVec 12))
  /-- PORT_HOLD_SET (R390): a host write of PARG, where there is one, then of PCMD with OP 3, where there is one. -/
  | portHoldSet (x : PargWrite)
  /-- PORT_HOLD_REL (R390): the same with OP 4. -/
  | portHoldRel (x : PargWrite)
  /-- PORT_OP_COMPLETE (R390). -/
  | portOpComplete
  /-- PGROVES_WRITE (R400). -/
  | pgrovesWrite (part : Nat) (v : BitVec 64)
  /-- GROVE_REMOVAL_EFFECT (R400). -/
  | groveRemovalEffect (part : Nat) (grove : Nat)
  /-- PKEYS_WRITE (R401). -/
  | pkeysWrite (part : Nat) (v : BitVec 64)
  /-- VXDEST_WRITE (R402). -/
  | vxdestWrite (part : Nat) (v : BitVec 64)
  /-- MAILBOX_DOORBELL (R407): a host write of the words of a mailbox page that are there, RINGBASE and RINGLOG before DOORBELL. -/
  | mailboxDoorbell (part : Nat) (tail : Option (BitVec 32)) (ringBase : Option (BitVec 64)) (ringLog : Option (BitVec 5))
  /-- MBRESP_WRITE (R407). -/
  | mbrespWrite (part : Nat) (v : BitVec 64)
  /-- LINK_FAILURE (R408, R409). -/
  | linkFailure (link : FailedLink)
  /-- ETH_FRAME_RECEIVE (R410). -/
  | ethFrameReceive (port : Nat) (fr : EthFrame)
  /-- ETHMAP_WRITE (R410). -/
  | ethmapWrite (v : BitVec 64)
  /-- ELOGPOP (R429). -/
  | elogpop
  /-- EFIRST_CLEAR (R437). -/
  | efirstClear
  /-- RETIRE_UNIT_COPY (R432). -/
  | retireUnitCopy
  /-- CAPACITY_MESSAGE_RECEIVE (R434). -/
  | capacityMessageReceive (pkg : Nat) (cap : Nat)
  /-- SREF_ENTER (R436). -/
  | srefEnter (k : Nat)
  /-- SREF_EXIT (R436). -/
  | srefExit (k : Nat)
  /-- RAILREQ_WRITE (R439). -/
  | railreqWrite (g : Nat) (v : BitVec 64)
  /-- RAIL_WINDOW_BOUNDARY (R439). -/
  | railWindowBoundary (g : Nat)
  /-- RAIL_CHANGE_DONE (R438). -/
  | railChangeDone (g : Nat)
  /-- DROOP_TRIP (R441). -/
  | droopTrip (g : Nat)
  /-- DROOP_ESCALATE (R441). -/
  | droopEscalate (g : Nat)
  /-- DROOP_RELEASE (R441). -/
  | droopRelease (g : Nat)
  /-- REFERENCE_FAILOVER (R443). -/
  | referenceFailover (adv : Fin 3)
  /-- REFERENCE_LOSS (R448). -/
  | referenceLoss
  /-- THERMAL_READING (R444). -/
  | thermalReading (d : Nat) (tj : Nat)
  /-- POWER_AVERAGE (R445). -/
  | powerAverage (watts : Nat)
  /-- POWER_ON (R447). -/
  | powerOn
  /-- SELF_TEST_PASS (R447). -/
  | selfTestPass (fn : DevFn)
  /-- BOOTGO (R450, R451): a host write of the words of the boot window that are there, BOOTGO last. -/
  | bootgo (words : BootWords) (go : Option (BitVec 64))
  /-- BOOT_VERIFY_DONE (R451). -/
  | bootVerifyDone
  /-- SVCMD_START_SUPERVISOR (R453). -/
  | svcmdStartSupervisor
  /-- SVCMD_START_MONITOR (R453). -/
  | svcmdStartMonitor
  /-- SVCMD_RETIRE (R453). -/
  | svcmdRetire
  /-- MPTROOT_WRITE (R453). -/
  | mptrootWrite (v : BitVec 64)
  /-- PMLOCK_WRITE (R452). -/
  | pmlockWrite (v : BitVec 64)
  /-- ATTCMD_GO (R455). -/
  | attcmdGo (v : BitVec 64)
  /-- ATTEST_REPORT_DONE (R455). -/
  | attestReportDone
  /-- KDATA_WRITE (R457). -/
  | kdataWrite (v : BitVec 64)
  /-- KCMD_INSTALL (R456). -/
  | kcmdInstall
  /-- KCMD_RANDOM (R456). -/
  | kcmdRandom
  /-- KCMD_DONE (R456). -/
  | kcmdDone
  /-- PORT_RECOVERY (R408). -/
  | portRecovery (port : Nat)
  /-- LIVE_LANE_LOSS (R408). -/
  | liveLaneLoss (port : Nat) (loss : LaneLoss)
deriving DecidableEq, Repr

end Sys2Proof
end

