-- ==== Sys2Proof/WellFormed.lean ====
section
/-! DEFINITION. Which instruction terms have a word: what R93 and R461 make ILLEGAL, by the ESTAT.DETAIL of R98. -/
namespace Sys2Proof

/-- The special registers of R95, R230, R329, R353, R379, R397, R414, R437, R446, R457 and R398. -/
def sprNumbers : List Nat :=
  [0x000, 0x010, 0x011, 0x012, 0x013, 0x014, 0x015, 0x020, 0x021, 0x022, 0x028, 0x029] ++
  [0x040, 0x041, 0x042, 0x043] ++ [0x080, 0x081, 0x082, 0x083, 0x084] ++
  [0x100, 0x101, 0x102, 0x108, 0x109, 0x10A, 0x10B, 0x110, 0x111] ++
  [0x140, 0x141, 0x142, 0x144, 0x145, 0x146, 0x147, 0x148, 0x14C, 0x14D, 0x14E, 0x150] ++
  [0x180, 0x181, 0x182, 0x183, 0x184, 0x188, 0x189, 0x18A, 0x18B, 0x18C] ++
  [0x190, 0x191, 0x192, 0x193, 0x1A0, 0x1A1, 0x1A2, 0x1A3] ++
  [0x1C0, 0x1C1, 0x1C4, 0x1C5, 0x1C8, 0x1C9, 0x1CC, 0x1CD] ++
  [0x1D0, 0x1D1, 0x1D2, 0x1D3, 0x1D4, 0x1D5, 0x1E0, 0x1E1, 0x1E8, 0x1E9] ++
  [0x1F0, 0x1F1, 0x1F2, 0x1F3, 0x1F4, 0x1F5, 0x1F6, 0x1F7] ++
  [0x200, 0x201, 0x210, 0x211, 0x212, 0x213, 0x214, 0x215, 0x216, 0x218, 0x219, 0x220, 0x221, 0x228, 0x229] ++
  [0x240, 0x241, 0x242, 0x243, 0x244, 0x248, 0x249, 0x24A, 0x24B, 0x24C, 0x24D] ++
  [0x280, 0x281, 0x282, 0x284, 0x285, 0x286, 0x287, 0x288, 0x289, 0x28C, 0x28D, 0x28E, 0x28F] ++
  [0x290, 0x294, 0x295, 0x296, 0x297, 0x298, 0x299, 0x29A, 0x29B, 0x29C] ++
  [0x2A0, 0x2A1, 0x2A2, 0x2A3, 0x2A8, 0x2A9, 0x2AA, 0x2AB, 0x2AC] ++
  [0x300, 0x301, 0x302, 0x303, 0x304, 0x305, 0x306, 0x307, 0x308, 0x309, 0x30A, 0x30B] ++
  [0x30C, 0x30D, 0x30E, 0x30F]

/-- The shift and rotate immediates of R108 use IMM[5:0] only. -/
def shiftImm (imm : BitVec 32) : Bool := decide (imm.toNat < 64)

/-- ORD and SCOPE of LD (R123). -/
def ldOrder (sc : BitVec 3) : Order → Bool
  | .plain => decide (sc = 0)
  | .acq => true
  | _ => false

/-- ORD and SCOPE of ST (R123). -/
def stOrder (sc : BitVec 3) : Order → Bool
  | .plain => decide (sc = 0)
  | .rel => true
  | _ => false

/-- SP, ORD and SCOPE of an AMO (R200). -/
def amoOrder (sp : Space) (sc : BitVec 3) (ord : Order) : Bool :=
  decide (sp ≠ .flt) && (decide (ord ≠ .plain) || decide (sc = 0))

/-- SP 1 or 2 (R204, R208). -/
def scrOnly (sp : Space) : Bool := decide (sp = .scr) || decide (sp = .rscr)

/-- Conversions marked exact in R147. -/
def exactPair (p : BitVec 4) : Bool := [1, 4, 5, 7, 0xB, 0xE, 0xF].contains p.toNat

/-- A field that the form reads holds a value the instruction accepts (DETAIL 2 of R98, R461). -/
def Instr.ok2 : Instr → Bool
  | .loop _ _ off => decide (0 < off.toInt)
  | .endl _ off => decide (off.toInt ≤ 0)
  | .ldB _ _ _ _ sc o _ | .ldH _ _ _ _ sc o _ | .ldW _ _ _ _ sc o _ | .ldD _ _ _ _ sc o _ => ldOrder sc o
  | .stB _ _ _ _ sc o _ | .stH _ _ _ _ sc o _ | .stW _ _ _ _ sc o _ | .stD _ _ _ _ sc o _ => stOrder sc o
  | .vgath _ _ _ _ _ sz => decide (sz ≠ .dword)
  | .vscat _ _ _ _ _ sz => decide (sz ≠ .dword)
  | .vfadd _ _ rm _ _ _ | .vfsub _ _ rm _ _ _ | .vfmul _ _ rm _ _ _ => decide (rm ≠ .sr)
  | .vfma _ _ rm _ _ _ _ | .vfms _ _ rm _ _ _ _ | .vfnma _ _ rm _ _ _ _ | .vfnms _ _ rm _ _ _ _ => decide (rm ≠ .sr)
  | .vcmp _ ty c _ _ _ =>
    match ty, c with
    | .bf, .ltu | .bf, .geu | .f, .ltu | .f, .geu => false
    | .i8, .un | .i16, .un | .i32, .un => false
    | _, _ => true
  | .vcvt _ p rm _ _ _ _ => decide (rm = .rne) || !(exactPair p)
  | .vscan _ ty op _ _ _ => (decide (ty ≠ .bf) && decide (ty ≠ .f)) || decide (op = .add ∨ op = .min ∨ op = .max)
  | .vred _ ty op _ _ => (decide (ty ≠ .bf) && decide (ty ≠ .f)) || decide (op = .add ∨ op = .min ∨ op = .max)
  | .kset _ _ w d _ => !(d && decide (w = 15))
  | .kinv _ ka kb r => !r || decide (ka.toNat ≤ kb.toNat)
  | .mout _ rm _ _ _ _ _ => decide (rm ≠ .sr)
  | .copy _ _ _ cv rm _ _ _ _ => !cv || decide (rm.toNat ≤ 4)
  | .copyMmaBundle _ _ _ cv rm _ _ _ _ _ _ _ _ => !cv || decide (rm.toNat ≤ 4)
  | .amoAdd _ _ _ _ _ sp sc o | .amoAnd _ _ _ _ _ sp sc o | .amoOr _ _ _ _ _ sp sc o | .amoXor _ _ _ _ _ sp sc o
  | .amoMin _ _ _ _ _ sp sc o | .amoMax _ _ _ _ _ sp sc o | .amoMinu _ _ _ _ _ sp sc o
  | .amoMaxu _ _ _ _ _ sp sc o | .amoSwap _ _ _ _ _ sp sc o | .amoCas _ _ _ _ _ _ sp sc o
  | .amoFadd _ _ _ _ sp sc o | .amoBfadd _ _ _ _ sp sc o => amoOrder sp sc o
  | .waitmon _ _ _ _ _ _ sp sc o => scrOnly sp && ldOrder sc o
  | .barJoin _ _ _ sp | .barArrive _ _ _ sp | .barArrwait _ _ _ sp | .barDrop _ _ _ sp => scrOnly sp
  | .barWait _ _ _ _ sp => scrOnly sp
  | .cfgs _ _ _ _ sp => decide (sp ≠ .rscr)
  | .sendvc _ _ k _ => decide (k ≠ 2 ∧ k ≠ 3)
  | _ => true

/-- The SPR field names a register (DETAIL 3). -/
def Instr.ok3 : Instr → Bool
  | .sprr _ _ n => sprNumbers.contains n.toNat
  | .sprw _ n _ => sprNumbers.contains n.toNat
  | _ => true

/-- Bits that the form never reads are zero (DETAIL 4). -/
def Instr.ok4 : Instr → Bool
  | .shli _ _ _ i | .shri _ _ _ i | .sari _ _ _ i | .roli _ _ _ i | .rori _ _ _ i => shiftImm i
  | .vperm _ lw _ _ _ c => decide (lw ≠ .b) || c.isNone
  | .kinv _ _ kb r => r || decide (kb = 0)
  | .copy _ _ prom _ _ _ _ _ x => prom || decide (x = 0)
  | .copyMmaBundle _ _ prom _ _ _ _ _ x _ _ _ _ => prom || decide (x = 0)
  | .fenceq _ mask sc | .fenceqW _ mask sc => mask.getLsbD 9 || decide (sc = 0)
  | .sendvc _ _ k a => decide (k = 0) || decide (a = 0)
  | _ => true

/-- Whether the constructor is an instruction of the hinge core; the others are steps of other agents. -/
def Instr.core : Instr → Bool
  | .waitmonDeadline .. | .fenceqEntryRelease .. | .sleepuntilWake .. | .configCommandApply ..
  | .engineCommitSample .. | .trapEntry .. | .aluFire .. | .faluFire .. | .constFire .. | .dupFire ..
  | .steerFire .. | .mergeFire .. | .amergeFire .. | .carryFire .. | .lceFire .. | .djoinFire ..
  | .arbReplyFire .. | .arbGrantFire .. | .srcFire .. | .snkFire .. | .vciFire .. | .vcoFire .. | .entryFire ..
  | .planeScheduleDecision .. | .vcWordArrive .. | .vcPersistentBackpressure .. | .spillRecordReinject ..
  | .sqDrain .. | .requestHop .. | .bankPerform .. | .bridgePerform .. | .replayRelease ..
  | .remoteMessageArrive .. | .remoteMessageDispatch .. | .creditReturnReceive .. | .engineBegin ..
  | .engineAccess .. | .engineComplete .. | .collMessageReceive .. | .collRoundTimeout ..
  | .reformProbeReceive .. | .reformProbeSend .. | .reformProbePhaseEnd .. | .reformReportReceive ..
  | .reformReportPhaseEnd .. | .reformResultReceive .. | .reformResultTimeout .. | .tick
  | .gladeStopRequest .. | .contextSave .. | .contextRestore .. | .schedulerEvaluate .. | .quantumExpire ..
  | .launchDispatch .. | .leaseWalk .. | .lresumeWrite .. | .launchRotation .. | .completionWave ..
  | .launchEndingDone .. | .ltermWrite .. | .walkerSetBit .. | .pageVectorMiss .. | .eventRecordWrite ..
  | .dbgHalt | .dbgResume | .dbgStep | .tcmdResume .. | .tcmdRetire .. | .portSprRead .. | .portSprWrite ..
  | .portHoldSet .. | .portHoldRel .. | .portOpComplete | .pgrovesWrite .. | .groveRemovalEffect ..
  | .pkeysWrite .. | .vxdestWrite .. | .mailboxDoorbell .. | .mbrespWrite .. | .linkFailure ..
  | .ethFrameReceive .. | .ethmapWrite .. | .elogpop | .efirstClear | .retireUnitCopy
  | .capacityMessageReceive .. | .srefEnter .. | .srefExit .. | .railreqWrite .. | .railWindowBoundary ..
  | .railChangeDone .. | .droopTrip .. | .droopEscalate .. | .droopRelease .. | .referenceFailover ..
  | .referenceLoss | .thermalReading .. | .powerAverage .. | .powerOn | .selfTestPass .. | .bootgo ..
  | .bootVerifyDone | .svcmdStartSupervisor | .svcmdStartMonitor | .svcmdRetire | .mptrootWrite ..
  | .pmlockWrite .. | .attcmdGo .. | .attestReportDone | .kdataWrite .. | .kcmdInstall | .kcmdRandom
  | .kcmdDone | .portRecovery .. | .liveLaneLoss .. => false
  | _ => true

/-- A term that some word stands for. -/
def Instr.wf (i : Instr) : Bool := i.core && i.ok2 && i.ok3 && i.ok4

end Sys2Proof
end

