-- ==== Sys2Proof/Decode.lean ====
section
/-! DEFINITION. Instruction words (R79, R80, R88 to R93, R98, R461): the decoder, total on any words and rejecting
with the ESTAT.DETAIL of the lowest defect, and the encoder, from the same tables. -/
namespace Sys2Proof

/-! ## The formats of R88 -/

/-- R format. -/
structure FmtR where
  gap : BitVec 3
  sw  : BitVec 1
  d   : BitVec 6
  a   : BitVec 6
  b   : BitVec 6
  c   : BitVec 6
  fn  : BitVec 8
  z   : BitVec 20
deriving DecidableEq, Repr

/-- I format. -/
structure FmtI where
  gap : BitVec 3
  sw  : BitVec 1
  d   : BitVec 6
  a   : BitVec 6
  fn  : BitVec 8
  imm : BitVec 32
deriving DecidableEq, Repr

/-- M format. -/
structure FmtM where
  gap : BitVec 3
  sw  : BitVec 1
  t   : BitVec 6
  a   : BitVec 6
  sp  : BitVec 2
  sz  : BitVec 2
  sc  : BitVec 3
  ord : BitVec 3
  off : BitVec 30
deriving DecidableEq, Repr

/-- A format. -/
structure FmtA where
  gap : BitVec 3
  sw  : BitVec 1
  d   : BitVec 6
  a   : BitVec 6
  b   : BitVec 6
  c   : BitVec 6
  sp  : BitVec 2
  sc  : BitVec 3
  ord : BitVec 3
  fn  : BitVec 8
  z   : BitVec 12
deriving DecidableEq, Repr

/-- B format. -/
structure FmtB where
  gap : BitVec 3
  sw  : BitVec 1
  a   : BitVec 6
  b   : BitVec 6
  cnd : BitVec 4
  z   : BitVec 4
  off : BitVec 32
deriving DecidableEq, Repr

/-- E format. -/
structure FmtE where
  gap  : BitVec 3
  sw   : BitVec 1
  ka   : BitVec 12
  kb   : BitVec 12
  kc   : BitVec 12
  x    : BitVec 6
  mode : BitVec 10
deriving DecidableEq, Repr

/-- S format. -/
structure FmtS where
  gap : BitVec 3
  sw  : BitVec 1
  d   : BitVec 6
  a   : BitVec 6
  spr : BitVec 12
  imm : BitVec 28
deriving DecidableEq, Repr

def opOf (w : Word) : BitVec 8 := w.extractLsb' 56 8

def splitR (w : Word) : FmtR :=
  { gap := w.extractLsb' 53 3, sw := w.extractLsb' 52 1, d := w.extractLsb' 46 6, a := w.extractLsb' 40 6
    b := w.extractLsb' 34 6, c := w.extractLsb' 28 6, fn := w.extractLsb' 20 8, z := w.extractLsb' 0 20 }

def joinR (op : BitVec 8) (f : FmtR) : Word :=
  op ++ f.gap ++ f.sw ++ f.d ++ f.a ++ f.b ++ f.c ++ f.fn ++ f.z

def splitI (w : Word) : FmtI :=
  { gap := w.extractLsb' 53 3, sw := w.extractLsb' 52 1, d := w.extractLsb' 46 6, a := w.extractLsb' 40 6
    fn := w.extractLsb' 32 8, imm := w.extractLsb' 0 32 }

def joinI (op : BitVec 8) (f : FmtI) : Word := op ++ f.gap ++ f.sw ++ f.d ++ f.a ++ f.fn ++ f.imm

def splitM (w : Word) : FmtM :=
  { gap := w.extractLsb' 53 3, sw := w.extractLsb' 52 1, t := w.extractLsb' 46 6, a := w.extractLsb' 40 6
    sp := w.extractLsb' 38 2, sz := w.extractLsb' 36 2, sc := w.extractLsb' 33 3, ord := w.extractLsb' 30 3
    off := w.extractLsb' 0 30 }

def joinM (op : BitVec 8) (f : FmtM) : Word :=
  op ++ f.gap ++ f.sw ++ f.t ++ f.a ++ f.sp ++ f.sz ++ f.sc ++ f.ord ++ f.off

def splitA (w : Word) : FmtA :=
  { gap := w.extractLsb' 53 3, sw := w.extractLsb' 52 1, d := w.extractLsb' 46 6, a := w.extractLsb' 40 6
    b := w.extractLsb' 34 6, c := w.extractLsb' 28 6, sp := w.extractLsb' 26 2, sc := w.extractLsb' 23 3
    ord := w.extractLsb' 20 3, fn := w.extractLsb' 12 8, z := w.extractLsb' 0 12 }

def joinA (op : BitVec 8) (f : FmtA) : Word :=
  op ++ f.gap ++ f.sw ++ f.d ++ f.a ++ f.b ++ f.c ++ f.sp ++ f.sc ++ f.ord ++ f.fn ++ f.z

def splitB (w : Word) : FmtB :=
  { gap := w.extractLsb' 53 3, sw := w.extractLsb' 52 1, a := w.extractLsb' 46 6, b := w.extractLsb' 40 6
    cnd := w.extractLsb' 36 4, z := w.extractLsb' 32 4, off := w.extractLsb' 0 32 }

def joinB (op : BitVec 8) (f : FmtB) : Word := op ++ f.gap ++ f.sw ++ f.a ++ f.b ++ f.cnd ++ f.z ++ f.off

def splitE (w : Word) : FmtE :=
  { gap := w.extractLsb' 53 3, sw := w.extractLsb' 52 1, ka := w.extractLsb' 40 12, kb := w.extractLsb' 28 12
    kc := w.extractLsb' 16 12, x := w.extractLsb' 10 6, mode := w.extractLsb' 0 10 }

def joinE (op : BitVec 8) (f : FmtE) : Word := op ++ f.gap ++ f.sw ++ f.ka ++ f.kb ++ f.kc ++ f.x ++ f.mode

def splitS (w : Word) : FmtS :=
  { gap := w.extractLsb' 53 3, sw := w.extractLsb' 52 1, d := w.extractLsb' 46 6, a := w.extractLsb' 40 6
    spr := w.extractLsb' 28 12, imm := w.extractLsb' 0 28 }

def joinS (op : BitVec 8) (f : FmtS) : Word := op ++ f.gap ++ f.sw ++ f.d ++ f.a ++ f.spr ++ f.imm

/-! ## Register fields (R80) and small codes (R89) -/

def isX (r : BitVec 6) : Bool := r.extractLsb' 5 1 == 0#1
def isV (r : BitVec 6) : Bool := r.extractLsb' 4 2 == 2#2
def isQ (r : BitVec 6) : Bool := r.extractLsb' 4 2 == 3#2
def xOf (r : BitVec 6) : XReg := r.extractLsb' 0 5
def vOf (r : BitVec 6) : VReg := r.extractLsb' 0 4
def qOf (r : BitVec 6) : QReg := r.extractLsb' 0 4
def x6 (r : XReg) : BitVec 6 := 0#1 ++ r
def v6 (r : VReg) : BitVec 6 := 2#2 ++ r
def q6 (r : QReg) : BitVec 6 := 3#2 ++ r

def mkOf (gap : BitVec 3) (sw : BitVec 1) : Marks := { gap := gap, sw := sw == 1#1 }
def swBit (b : Bool) : BitVec 1 := if b then 1#1 else 0#1
def bitOf (b : BitVec 1) : Bool := b == 1#1

def spOf (c : BitVec 2) : Space := if c = 0 then .dev else if c = 1 then .scr else if c = 2 then .rscr else .flt
def spCode : Space → BitVec 2
  | .dev => 0 | .scr => 1 | .rscr => 2 | .flt => 3
def szOf (c : BitVec 2) : Size := if c = 0 then .byte else if c = 1 then .half else if c = 2 then .word else .dword
def szCode : Size → BitVec 2
  | .byte => 0 | .half => 1 | .word => 2 | .dword => 3
def ordOf (c : BitVec 3) : Option Order :=
  if c = 0 then some .plain else if c = 1 then some .acq else if c = 2 then some .rel
  else if c = 3 then some .acqrel else none
def ordCode : Order → BitVec 3
  | .plain => 0 | .acq => 1 | .rel => 2 | .acqrel => 3
def rndOf (c : BitVec 3) : Option Rnd :=
  if c = 0 then some .rne else if c = 1 then some .rz else if c = 2 then some .rd
  else if c = 3 then some .ru else if c = 4 then some .sr else none
def rndCode : Rnd → BitVec 3
  | .rne => 0 | .rz => 1 | .rd => 2 | .ru => 3 | .sr => 4
def lwOf (c : BitVec 2) : Option LaneW :=
  if c = 0 then some .b else if c = 1 then some .h else if c = 2 then some .w else none
def lwCode : LaneW → BitVec 2
  | .b => 0 | .h => 1 | .w => 2
def flOf (c : BitVec 2) : Option FLane := if c = 1 then some .bf else if c = 2 then some .f else none
def flCode : FLane → BitVec 2
  | .bf => 1 | .f => 2
def tyOf (c : BitVec 3) : Option LaneTy :=
  if c = 0 then some .i8 else if c = 1 then some .i16 else if c = 2 then some .i32
  else if c = 3 then some .bf else if c = 4 then some .f else none
def tyCode : LaneTy → BitVec 3
  | .i8 => 0 | .i16 => 1 | .i32 => 2 | .bf => 3 | .f => 4
def condOf (c : BitVec 3) : Option VCond :=
  if c = 0 then some .eq else if c = 1 then some .ne else if c = 2 then some .lt else if c = 3 then some .ge
  else if c = 4 then some .ltu else if c = 5 then some .geu else if c = 6 then some .un else none
def condCode : VCond → BitVec 3
  | .eq => 0 | .ne => 1 | .lt => 2 | .ge => 3 | .ltu => 4 | .geu => 5 | .un => 6
def ropOf (c : BitVec 3) : ROp :=
  if c = 0 then .add else if c = 1 then .min else if c = 2 then .max else if c = 3 then .minu
  else if c = 4 then .maxu else if c = 5 then .and else if c = 6 then .or else .xor
def ropCode : ROp → BitVec 3
  | .add => 0 | .min => 1 | .max => 2 | .minu => 3 | .maxu => 4 | .and => 5 | .or => 6 | .xor => 7
def foldOf (c : BitVec 3) : Option FoldOp :=
  if c = 0 then some .add else if c = 1 then some .min else if c = 2 then some .max else none
def foldCode : FoldOp → BitVec 3
  | .add => 0 | .min => 1 | .max => 2

/-! ## The decoder -/

/-- A rejected word: DETAIL (R98), and whether the defect lies in the MMA word of a bundle (R92). -/
structure DecErr where
  detail : Nat
  inMma  : Bool
deriving DecidableEq, Repr

abbrev Dec := Except DecErr Instr

def bad (d : Nat) : Dec := .error { detail := d, inMma := false }

/-- The defects of a word whose codes are all assigned: `z4` marks nonzero bits the form never reads, `cls` says every
register field names an accepted class. The lowest DETAIL is reported. -/
def finish (z4 cls : Bool) (i : Instr) : Dec :=
  if !i.ok2 then bad 2 else if !i.ok3 then bad 3 else if z4 || !i.ok4 then bad 4 else if !cls then bad 5 else .ok i

abbrev RRR := Marks → XReg → XReg → XReg → Instr
abbrev RRI := Marks → XReg → XReg → BitVec 32 → Instr
abbrev RR := Marks → XReg → XReg → Instr

def aluOf : Nat → Option RRR
  | 0x00 => some .add | 0x01 => some .sub | 0x02 => some .and | 0x03 => some .or | 0x04 => some .xor
  | 0x05 => some .shl | 0x06 => some .shr | 0x07 => some .sar | 0x08 => some .rol | 0x09 => some .ror
  | 0x0A => some .min | 0x0B => some .max | 0x0C => some .minu | 0x0D => some .maxu | 0x0E => some .slt
  | 0x0F => some .sltu | 0x10 => some .seq | 0x11 => some .sne | _ => none

def aluiOf : Nat → Option RRI
  | 0x00 => some .addi | 0x01 => some .subi | 0x02 => some .andi | 0x03 => some .ori | 0x04 => some .xori
  | 0x05 => some .shli | 0x06 => some .shri | 0x07 => some .sari | 0x08 => some .roli | 0x09 => some .rori
  | 0x0A => some .mini | 0x0B => some .maxi | 0x0C => some .minui | 0x0D => some .maxui | 0x0E => some .slti
  | 0x0F => some .sltui | 0x10 => some .seqi | 0x11 => some .snei | _ => none

def mulOf : Nat → Option RRR
  | 0 => some .mul | 1 => some .mulh | 2 => some .mulhu | 3 => some .div | 4 => some .divu | 5 => some .rem
  | 6 => some .remu | _ => none

def bitOpOf : Nat → Option RR
  | 0 => some .clz | 1 => some .ctz | 2 => some .popc | 3 => some .sextB | 4 => some .sextH | 5 => some .sextW
  | 6 => some .zextB | 7 => some .zextH | 8 => some .zextW | 9 => some .brev | _ => none

def dRRR (t : Nat → Option RRR) (f : FmtR) : Dec :=
  match t f.fn.toNat with
  | none => bad 2
  | some k => finish (f.c != 0 || f.z != 0) (isX f.d && isX f.a && isX f.b)
      (k (mkOf f.gap f.sw) (xOf f.d) (xOf f.a) (xOf f.b))

def dRR (t : Nat → Option RR) (f : FmtR) : Dec :=
  match t f.fn.toNat with
  | none => bad 2
  | some k => finish (f.b != 0 || f.c != 0 || f.z != 0) (isX f.d && isX f.a)
      (k (mkOf f.gap f.sw) (xOf f.d) (xOf f.a))

def dRRI (t : Nat → Option RRI) (f : FmtI) : Dec :=
  match t f.fn.toNat with
  | none => bad 2
  | some k => finish false (isX f.d && isX f.a) (k (mkOf f.gap f.sw) (xOf f.d) (xOf f.a) f.imm)

def dLea (f : FmtR) : Dec :=
  let m := mkOf f.gap f.sw
  let z4 := f.c != 0 || f.z != 0
  let cls := isX f.d && isX f.a && isX f.b
  if f.fn.toNat < 4 then finish z4 cls (.lea m (xOf f.d) (xOf f.a) (xOf f.b) (f.fn.extractLsb' 0 2))
  else if f.fn = 0x10 then finish z4 cls (.leaRg m (xOf f.d) (xOf f.a) (xOf f.b))
  else bad 2

def dBranch (f : FmtB) : Dec :=
  let m := mkOf f.gap f.sw
  let cls := isX f.a && isX f.b
  let cmp (k : Marks → XReg → XReg → BitVec 32 → Instr) := finish (f.z != 0) cls (k m (xOf f.a) (xOf f.b) f.off)
  match f.cnd.toNat with
  | 0 => cmp .beq | 1 => cmp .bne | 2 => cmp .blt | 3 => cmp .bge | 4 => cmp .bltu | 5 => cmp .bgeu
  | 6 => finish (f.z != 0 || f.a != 0 || f.b != 0) true (.bfe m f.off)
  | 7 => finish (f.z != 0 || f.a != 0 || f.b != 0) true (.bnfe m f.off)
  | _ => bad 2

/-- J, JAL, ENDL: no register, no condition. -/
def dB0 (k : Marks → BitVec 32 → Instr) (f : FmtB) : Dec :=
  finish (f.a != 0 || f.b != 0 || f.cnd != 0 || f.z != 0) true (k (mkOf f.gap f.sw) f.off)

/-- JR, LOOP: one register. -/
def dB1 (k : Marks → XReg → BitVec 32 → Instr) (f : FmtB) : Dec :=
  finish (f.b != 0 || f.cnd != 0 || f.z != 0) (isX f.a) (k (mkOf f.gap f.sw) (xOf f.a) f.off)

abbrev MemK := Marks → XReg → XReg → Space → BitVec 3 → Order → BitVec 30 → Instr

def dMem (kb kh kw kd : MemK) (f : FmtM) : Dec :=
  match ordOf f.ord with
  | none => bad 2
  | some o =>
    let k := match szOf f.sz with
      | .byte => kb | .half => kh | .word => kw | .dword => kd
    finish false (isX f.t && isX f.a) (k (mkOf f.gap f.sw) (xOf f.t) (xOf f.a) (spOf f.sp) f.sc o f.off)

def dVld (f : FmtR) : Dec :=
  if f.fn.extractLsb' 2 6 != 0 then bad 4 else
  finish (f.c != 0 || f.z != 0) (isV f.d && isX f.a && isX f.b)
    (.vld (mkOf f.gap f.sw) (vOf f.d) (xOf f.a) (xOf f.b) (spOf (f.fn.extractLsb' 0 2)))

def dVst (f : FmtR) : Dec :=
  if f.fn.extractLsb' 2 6 != 0 then bad 4 else
  finish (f.d != 0 || f.z != 0) (isV f.c && isX f.a && isX f.b)
    (.vst (mkOf f.gap f.sw) (vOf f.c) (xOf f.a) (xOf f.b) (spOf (f.fn.extractLsb' 0 2)))

def dVgath (f : FmtR) : Dec :=
  finish (f.c != 0 || f.z != 0 || f.fn.extractLsb' 4 4 != 0) (isV f.d && isX f.a && isV f.b)
    (.vgath (mkOf f.gap f.sw) (vOf f.d) (xOf f.a) (vOf f.b) (spOf (f.fn.extractLsb' 0 2)) (szOf (f.fn.extractLsb' 2 2)))

def dVscat (f : FmtR) : Dec :=
  finish (f.d != 0 || f.z != 0 || f.fn.extractLsb' 4 4 != 0) (isV f.c && isX f.a && isV f.b)
    (.vscat (mkOf f.gap f.sw) (vOf f.c) (xOf f.a) (vOf f.b) (spOf (f.fn.extractLsb' 0 2)) (szOf (f.fn.extractLsb' 2 2)))

abbrev LVVV := Marks → LaneW → VReg → VReg → VReg → Instr

def vialuOf : Nat → Option LVVV
  | 0x00 => some .vadd | 0x01 => some .vsub | 0x02 => some .vand | 0x03 => some .vor | 0x04 => some .vxor
  | 0x05 => some .vshl | 0x06 => some .vshr | 0x07 => some .vsar | 0x0A => some .vmin | 0x0B => some .vmax
  | 0x0C => some .vminu | 0x0D => some .vmaxu | 0x10 => some .vmul | 0x11 => some .vmulh | 0x12 => some .vmulhu
  | 0x14 => some .vadds | 0x15 => some .vsubs | 0x16 => some .vaddsu | 0x17 => some .vsubsu | _ => none

def dVialu (f : FmtR) : Dec :=
  match lwOf (f.fn.extractLsb' 6 2) with
  | none => bad 2
  | some lw =>
    if f.fn.extractLsb' 0 6 = 0x18 then
      finish (f.b != 0 || f.c != 0 || f.z != 0) (isV f.d && isV f.a) (.vabs (mkOf f.gap f.sw) lw (vOf f.d) (vOf f.a))
    else match vialuOf (f.fn.extractLsb' 0 6).toNat with
      | none => bad 2
      | some k => finish (f.c != 0 || f.z != 0) (isV f.d && isV f.a && isV f.b)
          (k (mkOf f.gap f.sw) lw (vOf f.d) (vOf f.a) (vOf f.b))

def dVfalu (f : FmtR) : Dec :=
  let m := mkOf f.gap f.sw
  let rm := f.fn.extractLsb' 3 3
  let z3 := f.c != 0 || f.z != 0
  let z2 := f.b != 0 || f.c != 0 || f.z != 0
  let c3 := isV f.d && isV f.a && isV f.b
  match flOf (f.fn.extractLsb' 6 2), rndOf rm with
  | some fl, some r =>
    match (f.fn.extractLsb' 0 3).toNat with
    | 0 => finish z3 c3 (.vfadd m fl r (vOf f.d) (vOf f.a) (vOf f.b))
    | 1 => finish z3 c3 (.vfsub m fl r (vOf f.d) (vOf f.a) (vOf f.b))
    | 2 => finish z3 c3 (.vfmul m fl r (vOf f.d) (vOf f.a) (vOf f.b))
    | 3 => if rm != 0 then bad 2 else finish z3 c3 (.vfmin m fl (vOf f.d) (vOf f.a) (vOf f.b))
    | 4 => if rm != 0 then bad 2 else finish z3 c3 (.vfmax m fl (vOf f.d) (vOf f.a) (vOf f.b))
    | 5 => if rm != 0 then bad 2 else finish z2 (isV f.d && isV f.a) (.vfabs m fl (vOf f.d) (vOf f.a))
    | 6 => if rm != 0 then bad 2 else finish z2 (isV f.d && isV f.a) (.vfneg m fl (vOf f.d) (vOf f.a))
    | _ => bad 2
  | _, _ => bad 2

def dVfma (f : FmtR) : Dec :=
  let go (k : Marks → FLane → Rnd → VReg → VReg → VReg → VReg → Instr) : Dec :=
    match flOf (f.fn.extractLsb' 6 2), rndOf (f.fn.extractLsb' 3 3) with
    | some fl, some r => finish (f.z != 0) (isV f.d && isV f.a && isV f.b && isV f.c)
        (k (mkOf f.gap f.sw) fl r (vOf f.d) (vOf f.a) (vOf f.b) (vOf f.c))
    | _, _ => bad 2
  match (f.fn.extractLsb' 0 3).toNat with
  | 0 => go .vfma | 1 => go .vfms | 2 => go .vfnma | 3 => go .vfnms | _ => bad 2

def dVcmp (f : FmtR) : Dec :=
  match tyOf (f.fn.extractLsb' 5 3), condOf (f.fn.extractLsb' 0 3) with
  | some ty, some c => finish (f.c != 0 || f.z != 0 || f.fn.extractLsb' 3 2 != 0) (isV f.d && isV f.a && isV f.b)
      (.vcmp (mkOf f.gap f.sw) ty c (vOf f.d) (vOf f.a) (vOf f.b))
  | _, _ => bad 2

def dVsel (f : FmtR) : Dec :=
  match lwOf (f.fn.extractLsb' 6 2) with
  | none => bad 2
  | some lw => finish (f.z != 0 || f.fn.extractLsb' 0 6 != 0) (isV f.d && isV f.a && isV f.b && isV f.c)
      (.vsel (mkOf f.gap f.sw) lw (vOf f.d) (vOf f.a) (vOf f.b) (vOf f.c))

def dVcvt (f : FmtR) : Dec :=
  match rndOf (f.fn.extractLsb' 1 3) with
  | none => bad 2
  | some r => finish (f.c != 0 || f.z != 0) (isV f.d && isV f.a && isX f.b)
      (.vcvt (mkOf f.gap f.sw) (f.fn.extractLsb' 4 4) r (bitOf (f.fn.extractLsb' 0 1)) (vOf f.d) (vOf f.a) (xOf f.b))

/-- "x0 = none" of R132: 0 gives no operand, a v register gives one, anything else is a class defect. -/
def optV (r : BitVec 6) : Option VReg := if r = 0 then none else some (vOf r)
def optVOk (r : BitVec 6) : Bool := r == 0 || isV r
def optV6 : Option VReg → BitVec 6
  | none => 0
  | some r => v6 r

def dVscan (f : FmtR) : Dec :=
  match tyOf (f.fn.extractLsb' 5 3) with
  | none => bad 2
  | some ty => finish (f.c != 0 || f.z != 0 || f.fn.extractLsb' 0 2 != 0) (isV f.d && isV f.a && optVOk f.b)
      (.vscan (mkOf f.gap f.sw) ty (ropOf (f.fn.extractLsb' 2 3)) (vOf f.d) (vOf f.a) (optV f.b))

def xvOf (r : BitVec 6) : XVReg := if isX r then .x (xOf r) else .v (vOf r)
def xv6 : XVReg → BitVec 6
  | .x r => x6 r
  | .v r => v6 r

def dVred (f : FmtR) : Dec :=
  match tyOf (f.fn.extractLsb' 5 3) with
  | none => bad 2
  | some ty => finish (f.b != 0 || f.c != 0 || f.z != 0 || f.fn.extractLsb' 0 2 != 0)
      ((isX f.d || isV f.d) && isV f.a)
      (.vred (mkOf f.gap f.sw) ty (ropOf (f.fn.extractLsb' 2 3)) (xvOf f.d) (vOf f.a))

def dVperm (f : FmtR) : Dec :=
  match lwOf (f.fn.extractLsb' 6 2) with
  | none => bad 2
  | some lw => finish (f.z != 0 || f.fn.extractLsb' 0 6 != 0) (isV f.d && isV f.a && isV f.b && optVOk f.c)
      (.vperm (mkOf f.gap f.sw) lw (vOf f.d) (vOf f.a) (vOf f.b) (optV f.c))

def dVbcast (f : FmtR) : Dec :=
  match lwOf (f.fn.extractLsb' 6 2) with
  | none => bad 2
  | some lw =>
    let z := f.c != 0 || f.z != 0 || f.fn.extractLsb' 0 5 != 0
    if f.fn.extractLsb' 5 1 = 0 then
      finish (z || f.b != 0) (isV f.d && isX f.a) (.vbcastX (mkOf f.gap f.sw) lw (vOf f.d) (xOf f.a))
    else finish z (isV f.d && isV f.a && isX f.b) (.vbcastV (mkOf f.gap f.sw) lw (vOf f.d) (vOf f.a) (xOf f.b))

def dVlane (f : FmtR) : Dec :=
  match lwOf (f.fn.extractLsb' 6 2) with
  | none => bad 2
  | some lw =>
    let m := mkOf f.gap f.sw
    let z := f.c != 0 || f.z != 0 || f.fn.extractLsb' 0 4 != 0
    match (f.fn.extractLsb' 4 2).toNat with
    | 0 => finish z (isX f.d && isV f.a && isX f.b) (.vlaneGet m lw (xOf f.d) (vOf f.a) (xOf f.b))
    | 1 => finish z (isX f.d && isV f.a && isX f.b) (.vlaneGetu m lw (xOf f.d) (vOf f.a) (xOf f.b))
    | 2 => finish z (isV f.d && isX f.a && isX f.b) (.vlaneSet m lw (vOf f.d) (xOf f.a) (xOf f.b))
    | _ => finish (z || f.a != 0 || f.b != 0) (isV f.d) (.vlaneIota m lw (vOf f.d))

def dVfunc (f : FmtR) : Dec :=
  let go (k : Marks → VReg → VReg → Instr) : Dec :=
    finish (f.b != 0 || f.c != 0 || f.z != 0) (isV f.d && isV f.a) (k (mkOf f.gap f.sw) (vOf f.d) (vOf f.a))
  match f.fn.toNat with
  | 0 => go .vrcp | 1 => go .vrsq | 2 => go .vexp2 | 3 => go .vlog2 | _ => bad 2

def dQset (f : FmtR) : Dec :=
  let m := mkOf f.gap f.sw
  match f.fn.toNat with
  | 0 => finish (f.b != 0 || f.c != 0 || f.z != 0) (isQ f.d && isX f.a) (.qset m (qOf f.d) (xOf f.a))
  | 1 => finish (f.a != 0 || f.b != 0 || f.c != 0 || f.z != 0) (isQ f.d) (.qsetU m (qOf f.d))
  | 2 => finish (f.z != 0) (isQ f.d && isX f.a && isX f.b && isX f.c)
      (.qsetCfg m (qOf f.d) (xOf f.a) (xOf f.b) (xOf f.c))
  | _ => bad 2

def dQinfo (f : FmtR) : Dec :=
  if f.fn.toNat < 8 then
    finish (f.b != 0 || f.c != 0 || f.z != 0) (isX f.d && isQ f.a)
      (.qinfo (mkOf f.gap f.sw) (f.fn.extractLsb' 0 3) (xOf f.d) (qOf f.a))
  else bad 2

def dQadv (f : FmtI) : Dec :=
  let go (k : Marks → QReg → XReg → BitVec 32 → Instr) : Dec :=
    finish false (isQ f.d && isX f.a) (k (mkOf f.gap f.sw) (qOf f.d) (xOf f.a) f.imm)
  match f.fn.toNat with
  | 0 => go .qadvC | 1 => go .qadvP | _ => bad 2

def dQwait (f : FmtI) : Dec :=
  let go (k : Marks → QReg → BitVec 13 → Instr) : Dec :=
    finish (f.a != 0 || f.imm.extractLsb' 13 19 != 0) (isQ f.d) (k (mkOf f.gap f.sw) (qOf f.d) (f.imm.extractLsb' 0 13))
  match f.fn.toNat with
  | 0 => go .qwaitC | 1 => go .qwaitP | _ => bad 2

def dVldq (f : FmtI) : Dec :=
  let go (k : Marks → VReg → QReg → BitVec 12 → BitVec 8 → Instr) : Dec :=
    finish (f.imm.extractLsb' 20 12 != 0) (isV f.d && isQ f.a)
      (k (mkOf f.gap f.sw) (vOf f.d) (qOf f.a) (f.imm.extractLsb' 0 12) (f.imm.extractLsb' 12 8))
  match f.fn.toNat with
  | 0 => go .vldq | 1 => go .vldqAdv | _ => bad 2

def dVstq (f : FmtI) : Dec :=
  let go (k : Marks → QReg → VReg → BitVec 12 → BitVec 8 → Instr) : Dec :=
    finish (f.imm.extractLsb' 20 12 != 0) (isQ f.d && isV f.a)
      (k (mkOf f.gap f.sw) (qOf f.d) (vOf f.a) (f.imm.extractLsb' 0 12) (f.imm.extractLsb' 12 8))
  match f.fn.toNat with
  | 0 => go .vstq | 1 => go .vstqAdv | _ => bad 2

/-! ### E format (R167, R221) -/

/-- The mode bits above bit `n`. -/
def hi (m : BitVec 10) (n : Nat) : Bool := m.toNat / 2 ^ n != 0

def dKld (k : Marks → KIdx → XReg → Space → Instr) (f : FmtE) : Dec :=
  finish (f.kb != 0 || f.kc != 0 || hi f.mode 2) (isX f.x)
    (k (mkOf f.gap f.sw) f.ka (xOf f.x) (spOf (f.mode.extractLsb' 0 2)))

def dKset (f : FmtE) : Dec :=
  finish (f.kb != 0 || f.kc != 0 || hi f.mode 5) (isX f.x)
    (.kset (mkOf f.gap f.sw) f.ka (f.mode.extractLsb' 0 4) (bitOf (f.mode.extractLsb' 4 1)) (xOf f.x))

def dKinv (f : FmtE) : Dec :=
  finish (f.kc != 0 || f.x != 0 || hi f.mode 1) true
    (.kinv (mkOf f.gap f.sw) f.ka f.kb (bitOf (f.mode.extractLsb' 0 1)))

def dMma (f : FmtE) : Dec :=
  finish (f.x != 0 || hi f.mode 1) true (.mma (mkOf f.gap f.sw) (bitOf (f.mode.extractLsb' 0 1)) f.ka f.kb f.kc)

def dMzero (f : FmtE) : Dec :=
  finish (f.ka != 0 || f.kb != 0 || f.x != 0 || f.mode != 0) true (.mzero (mkOf f.gap f.sw) f.kc)

def dMout (f : FmtE) : Dec :=
  match rndOf (f.mode.extractLsb' 0 3) with
  | none => bad 2
  | some r => finish (f.kc != 0 || hi f.mode 5) (isX f.x)
      (.mout (mkOf f.gap f.sw) r (bitOf (f.mode.extractLsb' 3 1)) (bitOf (f.mode.extractLsb' 4 1)) f.ka f.kb (xOf f.x))

def dX (k : Marks → XReg → Instr) (f : FmtE) : Dec :=
  finish (f.ka != 0 || f.kb != 0 || f.kc != 0 || f.mode != 0) (isX f.x) (k (mkOf f.gap f.sw) (xOf f.x))

/-- MODE of a CQ command with only Q: bits [6:lo] and [9] zero (R167). -/
def qOnly (m : BitVec 10) (lo : Nat) : Bool := m.toNat % 128 / 2 ^ lo != 0 || m.extractLsb' 9 1 != 0

def dCopy (f : FmtE) : Dec :=
  let prom := bitOf (f.mode.extractLsb' 1 1)
  finish (f.kc != 0 || f.mode.extractLsb' 9 1 != 0 || (!prom && f.x != 0)) (isX f.x)
    (.copy (mkOf f.gap f.sw) (f.mode.extractLsb' 7 2) prom (bitOf (f.mode.extractLsb' 2 1)) (f.mode.extractLsb' 3 3)
      (bitOf (f.mode.extractLsb' 6 1)) f.ka f.kb (xOf f.x))

def dPack (f : FmtE) : Dec :=
  let go (k : Marks → BitVec 2 → KIdx → KIdx → XReg → Instr) : Dec :=
    finish (f.kc != 0 || qOnly f.mode 3) (isX f.x)
      (k (mkOf f.gap f.sw) (f.mode.extractLsb' 7 2) f.ka f.kb (xOf f.x))
  match (f.mode.extractLsb' 0 3).toNat with
  | 0 => go .packNz | 1 => go .packThr | 2 => go .packTop | 3 => go .packSto | _ => bad 2

def dUnpack (f : FmtE) : Dec :=
  finish (f.kc != 0 || f.x != 0 || qOnly f.mode 0) true
    (.unpack (mkOf f.gap f.sw) (f.mode.extractLsb' 7 2) f.ka f.kb)

def dGath (k : Marks → BitVec 2 → KIdx → KIdx → KIdx → Instr) (f : FmtE) : Dec :=
  finish (f.x != 0 || qOnly f.mode 0) true (k (mkOf f.gap f.sw) (f.mode.extractLsb' 7 2) f.ka f.kb f.kc)

def dFill (f : FmtE) : Dec :=
  finish (f.ka != 0 || f.kc != 0 || qOnly f.mode 0) (isX f.x)
    (.fill (mkOf f.gap f.sw) (f.mode.extractLsb' 7 2) f.kb (xOf f.x))

def dCpwait (f : FmtE) : Dec :=
  finish (f.ka != 0 || f.kb != 0 || f.kc != 0 || hi f.mode 4) (isX f.x)
    (.cpwait (mkOf f.gap f.sw) (xOf f.x) (f.mode.extractLsb' 0 4))

def dColl (f : FmtE) : Dec :=
  let m := mkOf f.gap f.sw
  let slot := f.mode.extractLsb' 0 4
  let z := f.kc != 0 || hi f.mode 9
  match foldOf (f.mode.extractLsb' 6 3) with
  | none => bad 2
  | some o =>
    match (f.mode.extractLsb' 4 2).toNat with
    | 0 => finish (z || f.x != 0) true (.collAllred m slot o f.ka f.kb)
    | 1 => finish (z || f.x != 0) true (.collRedscat m slot o f.ka f.kb)
    | 2 => finish (z || f.x != 0) true (.collAllgath m slot o f.ka f.kb)
    | _ => finish z (isX f.x) (.collBcast m slot o f.ka f.kb (xOf f.x))

def dCollwait (f : FmtE) : Dec :=
  finish (f.ka != 0 || f.kb != 0 || f.kc != 0 || hi f.mode 5) (isX f.x)
    (.collwait (mkOf f.gap f.sw) (xOf f.x) (f.mode.extractLsb' 0 4) (bitOf (f.mode.extractLsb' 4 1)))

def dCollgrp (f : FmtE) : Dec :=
  let m := mkOf f.gap f.sw
  let slot := f.mode.extractLsb' 0 4
  let z := f.ka != 0 || f.kb != 0 || f.kc != 0 || hi f.mode 6
  match (f.mode.extractLsb' 4 2).toNat with
  | 0 => finish z (isX f.x) (.collgrpForm m slot (xOf f.x))
  | 1 => finish z (isX f.x) (.collgrpReform m slot (xOf f.x))
  | 2 => finish (z || f.x != 0) true (.collgrpRelease m slot)
  | _ => bad 2

def dStrm (f : FmtE) : Dec :=
  let m := mkOf f.gap f.sw
  let dep := f.mode.extractLsb' 3 2
  let dir := bitOf (f.mode.extractLsb' 2 1)
  let z := f.kb != 0 || f.kc != 0 || hi f.mode 5
  match (f.mode.extractLsb' 0 2).toNat with
  | 0 => finish (z || dir) (isX f.x) (.strmSr m dep f.ka (xOf f.x))
  | 1 => finish (z || dir) (isX f.x) (.strmSw m dep f.ka (xOf f.x))
  | 2 => finish z (isX f.x) (.strmMs m dir dep f.ka (xOf f.x))
  | _ => bad 2

/-! ### A format (R200, R204) -/

def amoDbl (f : FmtA) : Option Bool :=
  if f.fn.extractLsb' 4 2 = 2 then some false else if f.fn.extractLsb' 4 2 = 3 then some true else none

def dAmo (f : FmtA) : Dec :=
  let m := mkOf f.gap f.sw
  let d := xOf f.d
  let a := xOf f.a
  let b := xOf f.b
  let sp := spOf f.sp
  let cls := isX f.d && isX f.a && isX f.b
  let z := f.z != 0 || f.fn.extractLsb' 6 2 != 0
  match ordOf f.ord, amoDbl f with
  | some o, some dbl =>
    let two (k : Marks → Bool → XReg → XReg → XReg → Space → BitVec 3 → Order → Instr) : Dec :=
      finish (z || f.c != 0) cls (k m dbl d a b sp f.sc o)
    match (f.fn.extractLsb' 0 4).toNat with
    | 0 => two .amoAdd | 1 => two .amoAnd | 2 => two .amoOr | 3 => two .amoXor | 4 => two .amoMin | 5 => two .amoMax
    | 6 => two .amoMinu | 7 => two .amoMaxu | 8 => two .amoSwap
    | 9 => finish z (cls && isX f.c) (.amoCas m dbl d a b (xOf f.c) sp f.sc o)
    | 10 => if dbl then bad 2 else finish (z || f.c != 0) cls (.amoFadd m d a b sp f.sc o)
    | 11 => if dbl then bad 2 else finish (z || f.c != 0) cls (.amoBfadd m d a b sp f.sc o)
    | _ => bad 2
  | _, _ => bad 2

def dWaitmon (f : FmtA) : Dec :=
  match ordOf f.ord, amoDbl f with
  | some o, some dbl =>
    finish (f.z != 0 || f.fn.extractLsb' 6 2 != 0 || f.fn.extractLsb' 0 4 != 0)
      (isX f.d && isX f.a && isX f.b && isX f.c)
      (.waitmon (mkOf f.gap f.sw) dbl (xOf f.d) (xOf f.a) (xOf f.b) (xOf f.c) (spOf f.sp) f.sc o)
  | _, _ => bad 2

/-! ### The system words (R199) -/

def dFrenew (f : FmtR) : Dec :=
  let go (k : RR) : Dec := finish (f.b != 0 || f.c != 0 || f.z != 0) (isX f.d && isX f.a)
    (k (mkOf f.gap f.sw) (xOf f.d) (xOf f.a))
  match f.fn.toNat with
  | 0 => go .frenew | 1 => go .flife | 2 => go .fclaim | _ => bad 2

def dBar (f : FmtR) : Dec :=
  let m := mkOf f.gap f.sw
  let sp := spOf (f.fn.extractLsb' 0 2)
  let z := f.c != 0 || f.z != 0 || f.fn.extractLsb' 5 3 != 0
  let go (k : Marks → XReg → XReg → Space → Instr) : Dec :=
    finish (z || f.b != 0) (isX f.d && isX f.a) (k m (xOf f.d) (xOf f.a) sp)
  match (f.fn.extractLsb' 2 3).toNat with
  | 0 => go .barJoin | 1 => go .barArrive
  | 2 => finish z (isX f.d && isX f.a && isX f.b) (.barWait m (xOf f.d) (xOf f.a) (xOf f.b) sp)
  | 3 => go .barArrwait | 4 => go .barDrop | _ => bad 2

/-- R format, FN 0, D and A. -/
def dDA (k : RR) (f : FmtR) : Dec :=
  if f.fn != 0 then bad 2 else
  finish (f.b != 0 || f.c != 0 || f.z != 0) (isX f.d && isX f.a) (k (mkOf f.gap f.sw) (xOf f.d) (xOf f.a))

/-- FN bits beside the SP subfield are bits the form never reads: DETAIL 4 (R461), as with the FN bits of BAR, RECVVC and INVPG
beside their subfields. (DEDUCED, log entry 51.) -/
def dCfgs (f : FmtR) : Dec :=
  finish (f.c != 0 || f.z != 0 || f.fn.extractLsb' 2 6 != 0) (isX f.d && isX f.a && isX f.b)
    (.cfgs (mkOf f.gap f.sw) (xOf f.d) (xOf f.a) (xOf f.b) (spOf (f.fn.extractLsb' 0 2)))

def dPlane (f : FmtI) : Dec :=
  let m := mkOf f.gap f.sw
  let p := f.imm.extractLsb' 0 2
  let z := f.a != 0 || f.imm.extractLsb' 2 30 != 0
  let go (k : Marks → BitVec 2 → Instr) : Dec := finish (z || f.d != 0) true (k m p)
  match f.fn.toNat with
  | 0 => go .planeRun | 1 => go .planeHalt | 2 => finish z (isX f.d) (.planeStat m (xOf f.d) p)
  | 3 => go .planeClr | 4 => go .planeFree | _ => bad 2

def dSbar (f : FmtI) : Dec :=
  let go (k : Marks → BitVec 3 → Instr) : Dec :=
    finish (f.d != 0 || f.a != 0 || f.imm.extractLsb' 3 29 != 0) true (k (mkOf f.gap f.sw) (f.imm.extractLsb' 0 3))
  match f.fn.toNat with
  | 0 => go .sbar | 1 => go .sbarW | _ => bad 2

def dSendvc (f : FmtR) : Dec :=
  finish (f.d != 0 || f.b != 0 || f.c != 0 || f.z != 0 || (f.fn.extractLsb' 5 3 != 0 && f.a != 0)) (isX f.a)
    (.sendvc (mkOf f.gap f.sw) (f.fn.extractLsb' 0 5) (f.fn.extractLsb' 5 3) (xOf f.a))

def dRecvvc (f : FmtR) : Dec :=
  let go (k : Marks → XReg → BitVec 5 → Instr) : Dec :=
    finish (f.a != 0 || f.b != 0 || f.c != 0 || f.z != 0 || f.fn.extractLsb' 6 2 != 0) (isX f.d)
      (k (mkOf f.gap f.sw) (xOf f.d) (f.fn.extractLsb' 0 5))
  if f.fn.extractLsb' 5 1 = 0 then go .recvvc else go .recvvcNb

def dWaitvc (f : FmtI) : Dec :=
  if f.fn != 0 then bad 2 else
  finish (f.a != 0) (isX f.d) (.waitvc (mkOf f.gap f.sw) (xOf f.d) f.imm)

def dFence (f : FmtI) : Dec :=
  let go (k : Marks → BitVec 3 → Instr) : Dec :=
    finish (f.d != 0 || f.a != 0 || f.imm.extractLsb' 3 29 != 0) true (k (mkOf f.gap f.sw) (f.imm.extractLsb' 0 3))
  match f.fn.toNat with
  | 0 => go .fenceFull | 1 => go .fenceAcq | 2 => go .fenceRel | 3 => go .fenceSt | _ => bad 2

def dFenceq (f : FmtI) : Dec :=
  let go (k : Marks → BitVec 10 → BitVec 3 → Instr) : Dec :=
    finish (f.d != 0 || f.a != 0 || f.imm.extractLsb' 13 19 != 0) true
      (k (mkOf f.gap f.sw) (f.imm.extractLsb' 0 10) (f.imm.extractLsb' 10 3))
  match f.fn.toNat with
  | 0 => go .fenceq | 1 => go .fenceqW | _ => bad 2

def dSleep (f : FmtR) : Dec :=
  let go (k : Marks → XReg → Instr) : Dec :=
    finish (f.d != 0 || f.b != 0 || f.c != 0 || f.z != 0) (isX f.a) (k (mkOf f.gap f.sw) (xOf f.a))
  match f.fn.toNat with
  | 0 => go .sleepuntil | 1 => go .sleepuntilNp | _ => bad 2

def dRdtick (f : FmtR) : Dec :=
  if f.fn != 0 then bad 2 else
  finish (f.a != 0 || f.b != 0 || f.c != 0 || f.z != 0) (isX f.d) (.rdtick (mkOf f.gap f.sw) (xOf f.d))

def dRng (f : FmtR) : Dec :=
  let m := mkOf f.gap f.sw
  match f.fn.toNat with
  | 0 => finish (f.d != 0 || f.c != 0 || f.z != 0) (isX f.a && isX f.b) (.rngSeed m (xOf f.a) (xOf f.b))
  | 1 => finish (f.a != 0 || f.b != 0 || f.c != 0 || f.z != 0) (isX f.d) (.rngNext m (xOf f.d))
  | 2 => finish (f.b != 0 || f.c != 0 || f.z != 0) (isX f.d && isX f.a) (.rngGet m (xOf f.d) (xOf f.a))
  | _ => bad 2

/-- S format without operands. -/
def dS0 (k : Marks → Instr) (f : FmtS) : Dec :=
  finish (f.d != 0 || f.a != 0 || f.spr != 0 || f.imm != 0) true (k (mkOf f.gap f.sw))

/-- S format with IMM28. -/
def dSi (k : Marks → BitVec 28 → Instr) (f : FmtS) : Dec :=
  finish (f.d != 0 || f.a != 0 || f.spr != 0) true (k (mkOf f.gap f.sw) f.imm)

def dSprr (f : FmtS) : Dec :=
  finish (f.a != 0 || f.imm != 0) (isX f.d) (.sprr (mkOf f.gap f.sw) (xOf f.d) f.spr)

def dSprw (f : FmtS) : Dec :=
  finish (f.d != 0 || f.imm != 0) (isX f.a) (.sprw (mkOf f.gap f.sw) f.spr (xOf f.a))

/-- R format with D, A, B and an FN table. -/
def dDAB (t : Nat → Option RRR) (f : FmtR) : Dec := dRRR t f

def leaseOf : Nat → Option RRR
  | 0 => some .leaseGet | 1 => some .leaseRevoke | 2 => some .leaseRelease | _ => none

def holdOf : Nat → Option RRR
  | 0 => some .holdSet | 1 => some .holdRel | _ => none

def dInvpg (f : FmtR) : Dec :=
  finish (f.d != 0 || f.c != 0 || f.z != 0 || f.fn.extractLsb' 1 7 != 0) (isX f.a && isX f.b)
    (.invpg (mkOf f.gap f.sw) (xOf f.a) (xOf f.b) (bitOf (f.fn.extractLsb' 0 1)))

def dPctr (f : FmtR) : Dec :=
  let m := mkOf f.gap f.sw
  match f.fn.toNat with
  | 0 => finish (f.b != 0 || f.c != 0 || f.z != 0) (isX f.d && isX f.a) (.pctrRd m (xOf f.d) (xOf f.a))
  | 1 => finish (f.d != 0 || f.c != 0 || f.z != 0) (isX f.a && isX f.b) (.pctrSel m (xOf f.a) (xOf f.b))
  | 2 => finish (f.d != 0 || f.b != 0 || f.c != 0 || f.z != 0) (isX f.a) (.pctrClr m (xOf f.a))
  | _ => bad 2

def dHist (f : FmtR) : Dec :=
  let m := mkOf f.gap f.sw
  match f.fn.toNat with
  | 0 => finish (f.c != 0 || f.z != 0) (isX f.d && isX f.a && isX f.b) (.histRd m (xOf f.d) (xOf f.a) (xOf f.b))
  | 1 => finish (f.d != 0 || f.z != 0) (isX f.a && isX f.b && isX f.c) (.histArm m (xOf f.a) (xOf f.b) (xOf f.c))
  | 2 => finish (f.d != 0 || f.b != 0 || f.c != 0 || f.z != 0) (isX f.a) (.histClr m (xOf f.a))
  | _ => bad 2

def dMovi (f : FmtI) : Dec :=
  if f.fn != 0 then bad 2 else finish (f.a != 0) (isX f.d) (.movi (mkOf f.gap f.sw) (xOf f.d) f.imm)

def dMovih (f : FmtI) : Dec :=
  if f.fn != 0 then bad 2 else
  finish false (isX f.d && isX f.a) (.movih (mkOf f.gap f.sw) (xOf f.d) (xOf f.a) f.imm)

/-- The word by its major opcode (R90). -/
def decodeOp (op : Nat) (w : Word) : Dec :=
  match op with
  | 0x01 => dSi .nop (splitS w)
  | 0x10 => dRRR aluOf (splitR w)
  | 0x11 => dRRI aluiOf (splitI w)
  | 0x12 => dRRR mulOf (splitR w)
  | 0x13 => dRR bitOpOf (splitR w)
  | 0x14 => dMovi (splitI w)
  | 0x15 => dMovih (splitI w)
  | 0x16 => dLea (splitR w)
  | 0x20 => dBranch (splitB w)
  | 0x21 => dB0 .j (splitB w)
  | 0x22 => dB0 .jal (splitB w)
  | 0x23 => dB1 .jr (splitB w)
  | 0x24 => dB1 .loop (splitB w)
  | 0x25 => dB0 .endl (splitB w)
  | 0x30 => dMem .ldB .ldH .ldW .ldD (splitM w)
  | 0x31 => dMem .stB .stH .stW .stD (splitM w)
  | 0x32 => dVld (splitR w)
  | 0x33 => dVst (splitR w)
  | 0x34 => dVgath (splitR w)
  | 0x35 => dVscat (splitR w)
  | 0x36 => dFrenew (splitR w)
  | 0x40 => dAmo (splitA w)
  | 0x41 => dWaitmon (splitA w)
  | 0x42 => dBar (splitR w)
  | 0x50 => dVialu (splitR w)
  | 0x51 => dVfalu (splitR w)
  | 0x52 => dVfma (splitR w)
  | 0x53 => dVcmp (splitR w)
  | 0x54 => dVsel (splitR w)
  | 0x55 => dVcvt (splitR w)
  | 0x56 => dVscan (splitR w)
  | 0x57 => dVred (splitR w)
  | 0x58 => dVperm (splitR w)
  | 0x59 => dVbcast (splitR w)
  | 0x5A => dVlane (splitR w)
  | 0x5B => dVfunc (splitR w)
  | 0x60 => dQset (splitR w)
  | 0x61 => dQadv (splitI w)
  | 0x62 => dQwait (splitI w)
  | 0x63 => dQinfo (splitR w)
  | 0x64 => dVldq (splitI w)
  | 0x65 => dVstq (splitI w)
  | 0x68 => dKld .kld (splitE w)
  | 0x69 => dKld .kst (splitE w)
  | 0x6A => dKset (splitE w)
  | 0x6B => dKinv (splitE w)
  | 0x70 => dMma (splitE w)
  | 0x71 => dMzero (splitE w)
  | 0x72 => dMout (splitE w)
  | 0x73 => dX .mprog (splitE w)
  | 0x74 => dX .mwait (splitE w)
  | 0x78 => dCopy (splitE w)
  | 0x79 => dPack (splitE w)
  | 0x7A => dUnpack (splitE w)
  | 0x7B => dGath .gather (splitE w)
  | 0x7C => dGath .scatter (splitE w)
  | 0x7D => dFill (splitE w)
  | 0x7E => dCpwait (splitE w)
  | 0x80 => dColl (splitE w)
  | 0x81 => dCollwait (splitE w)
  | 0x82 => dCollgrp (splitE w)
  | 0x88 => dDA .cfgw (splitR w)
  | 0x89 => dCfgs (splitR w)
  | 0x8A => dPlane (splitI w)
  | 0x8B => dStrm (splitE w)
  | 0x8C => dSbar (splitI w)
  | 0x8D => dSendvc (splitR w)
  | 0x8E => dRecvvc (splitR w)
  | 0x8F => dWaitvc (splitI w)
  | 0x90 => dFence (splitI w)
  | 0x91 => dFenceq (splitI w)
  | 0x92 => dSleep (splitR w)
  | 0x93 => dRdtick (splitR w)
  | 0x94 => dS0 .yield (splitS w)
  | 0x95 => dS0 .exit (splitS w)
  | 0x96 => dRng (splitR w)
  | 0xA0 => dSi .trap (splitS w)
  | 0xA1 => dS0 .rte (splitS w)
  | 0xA2 => dSprr (splitS w)
  | 0xA3 => dSprw (splitS w)
  | 0xA4 => dDA .launch (splitR w)
  | 0xA5 => dDA .lwait (splitR w)
  | 0xA6 => dDAB leaseOf (splitR w)
  | 0xA7 => dInvpg (splitR w)
  | 0xA8 => dDA .retireBegin (splitR w)
  | 0xA9 => dSi .bkpt (splitS w)
  | 0xAA => dDAB holdOf (splitR w)
  | 0xAB => dPctr (splitR w)
  | 0xAC => dHist (splitR w)
  | _ => bad 1

/-- A word by itself. -/
def decodeWord (w : Word) : Dec := if w = 0 then bad 0 else decodeOp (opOf w).toNat w

/-- The bundle flag of a COPY word (R92, R167). -/
def isBundle (w : Word) : Bool := opOf w == 0x78#8 && w.extractLsb' 0 1 == 1#1

/-- COPY followed by `next` (R92): a defect of the COPY word first, then the pairing, then a defect of the MMA. -/
def pair (c next : Word) : Dec :=
  match decodeWord (c &&& ~~~1) with
  | .error e => .error e
  | .ok (.copy m q prom cv rm nanm ka kb x) =>
    if opOf next != 0x70 || m.gap != 0 || m.sw then bad 6
    else match decodeWord next with
      | .error e => .error { detail := e.detail, inMma := true }
      | .ok (.mma m' z ma mb mc) => .ok (.copyMmaBundle m' q prom cv rm nanm ka kb x z ma mb mc)
      | .ok _ => bad 6
  | .ok _ => bad 1

/-- The instruction at a word, with the word after it for a bundle. (DEDUCED, log entry 51.) -/
def decode (w next : Word) : Dec := if isBundle w then pair w next else decodeWord w

/-! ## The encoder -/

def sB (m : Marks) : BitVec 1 := swBit m.sw

def rW (op : BitVec 8) (m : Marks) (d a b c : BitVec 6) (fn : BitVec 8) : Word :=
  joinR op { gap := m.gap, sw := sB m, d := d, a := a, b := b, c := c, fn := fn, z := 0 }
def iW (op : BitVec 8) (m : Marks) (d a : BitVec 6) (fn : BitVec 8) (imm : BitVec 32) : Word :=
  joinI op { gap := m.gap, sw := sB m, d := d, a := a, fn := fn, imm := imm }
def mW (op : BitVec 8) (m : Marks) (t a : XReg) (sp : Space) (sz : BitVec 2) (sc : BitVec 3) (o : Order)
    (off : BitVec 30) : Word :=
  joinM op { gap := m.gap, sw := sB m, t := x6 t, a := x6 a, sp := spCode sp, sz := sz, sc := sc, ord := ordCode o, off := off }
def aW (op : BitVec 8) (m : Marks) (d a b c : XReg) (sp : Space) (sc : BitVec 3) (o : Order) (fn : BitVec 8) : Word :=
  joinA op { gap := m.gap, sw := sB m, d := x6 d, a := x6 a, b := x6 b, c := x6 c, sp := spCode sp, sc := sc
             ord := ordCode o, fn := fn, z := 0 }
def bW (op : BitVec 8) (m : Marks) (a b : BitVec 6) (cnd : BitVec 4) (off : BitVec 32) : Word :=
  joinB op { gap := m.gap, sw := sB m, a := a, b := b, cnd := cnd, z := 0, off := off }
def eW (op : BitVec 8) (m : Marks) (ka kb kc : KIdx) (x : BitVec 6) (mode : BitVec 10) : Word :=
  joinE op { gap := m.gap, sw := sB m, ka := ka, kb := kb, kc := kc, x := x, mode := mode }
def sW (op : BitVec 8) (m : Marks) (d a : BitVec 6) (spr : BitVec 12) (imm : BitVec 28) : Word :=
  joinS op { gap := m.gap, sw := sB m, d := d, a := a, spr := spr, imm := imm }

def alu3 (m : Marks) (d a b : XReg) (fn : BitVec 8) : Word := rW 0x10 m (x6 d) (x6 a) (x6 b) 0 fn
def alui (m : Marks) (d a : XReg) (imm : BitVec 32) (fn : BitVec 8) : Word := iW 0x11 m (x6 d) (x6 a) fn imm
def mul3 (m : Marks) (d a b : XReg) (fn : BitVec 8) : Word := rW 0x12 m (x6 d) (x6 a) (x6 b) 0 fn
def bit2 (m : Marks) (d a : XReg) (fn : BitVec 8) : Word := rW 0x13 m (x6 d) (x6 a) 0 0 fn
def br (m : Marks) (a b : XReg) (cnd : BitVec 4) (off : BitVec 32) : Word := bW 0x20 m (x6 a) (x6 b) cnd off
def vi (m : Marks) (lw : LaneW) (d a b : VReg) (fn : BitVec 6) : Word :=
  rW 0x50 m (v6 d) (v6 a) (v6 b) 0 (lwCode lw ++ fn)
def vf (m : Marks) (fl : FLane) (rm : Rnd) (d a : VReg) (b : BitVec 6) (fn : BitVec 3) : Word :=
  rW 0x51 m (v6 d) (v6 a) b 0 (flCode fl ++ rndCode rm ++ fn)
def vm (m : Marks) (fl : FLane) (rm : Rnd) (d a b c : VReg) (fn : BitVec 3) : Word :=
  rW 0x52 m (v6 d) (v6 a) (v6 b) (v6 c) (flCode fl ++ rndCode rm ++ fn)
def amo (m : Marks) (dbl : Bool) (d a b c : XReg) (sp : Space) (sc : BitVec 3) (o : Order) (op : BitVec 4) : Word :=
  aW 0x40 m d a b c sp sc o (0#2 ++ (1#1 ++ swBit dbl) ++ op)

/-- The words of a well-formed instruction; none for a step of another agent. -/
def encode : Instr → List Word
  | .nop m tag => [sW 0x01 m 0 0 0 tag]
  | .add m d a b => [alu3 m d a b 0x00]
  | .sub m d a b => [alu3 m d a b 0x01]
  | .and m d a b => [alu3 m d a b 0x02]
  | .or m d a b => [alu3 m d a b 0x03]
  | .xor m d a b => [alu3 m d a b 0x04]
  | .shl m d a b => [alu3 m d a b 0x05]
  | .shr m d a b => [alu3 m d a b 0x06]
  | .sar m d a b => [alu3 m d a b 0x07]
  | .rol m d a b => [alu3 m d a b 0x08]
  | .ror m d a b => [alu3 m d a b 0x09]
  | .min m d a b => [alu3 m d a b 0x0A]
  | .max m d a b => [alu3 m d a b 0x0B]
  | .minu m d a b => [alu3 m d a b 0x0C]
  | .maxu m d a b => [alu3 m d a b 0x0D]
  | .slt m d a b => [alu3 m d a b 0x0E]
  | .sltu m d a b => [alu3 m d a b 0x0F]
  | .seq m d a b => [alu3 m d a b 0x10]
  | .sne m d a b => [alu3 m d a b 0x11]
  | .addi m d a i => [alui m d a i 0x00]
  | .subi m d a i => [alui m d a i 0x01]
  | .andi m d a i => [alui m d a i 0x02]
  | .ori m d a i => [alui m d a i 0x03]
  | .xori m d a i => [alui m d a i 0x04]
  | .shli m d a i => [alui m d a i 0x05]
  | .shri m d a i => [alui m d a i 0x06]
  | .sari m d a i => [alui m d a i 0x07]
  | .roli m d a i => [alui m d a i 0x08]
  | .rori m d a i => [alui m d a i 0x09]
  | .mini m d a i => [alui m d a i 0x0A]
  | .maxi m d a i => [alui m d a i 0x0B]
  | .minui m d a i => [alui m d a i 0x0C]
  | .maxui m d a i => [alui m d a i 0x0D]
  | .slti m d a i => [alui m d a i 0x0E]
  | .sltui m d a i => [alui m d a i 0x0F]
  | .seqi m d a i => [alui m d a i 0x10]
  | .snei m d a i => [alui m d a i 0x11]
  | .mul m d a b => [mul3 m d a b 0]
  | .mulh m d a b => [mul3 m d a b 1]
  | .mulhu m d a b => [mul3 m d a b 2]
  | .div m d a b => [mul3 m d a b 3]
  | .divu m d a b => [mul3 m d a b 4]
  | .rem m d a b => [mul3 m d a b 5]
  | .remu m d a b => [mul3 m d a b 6]
  | .clz m d a => [bit2 m d a 0]
  | .ctz m d a => [bit2 m d a 1]
  | .popc m d a => [bit2 m d a 2]
  | .sextB m d a => [bit2 m d a 3]
  | .sextH m d a => [bit2 m d a 4]
  | .sextW m d a => [bit2 m d a 5]
  | .zextB m d a => [bit2 m d a 6]
  | .zextH m d a => [bit2 m d a 7]
  | .zextW m d a => [bit2 m d a 8]
  | .brev m d a => [bit2 m d a 9]
  | .movi m d i => [iW 0x14 m (x6 d) 0 0 i]
  | .movih m d a i => [iW 0x15 m (x6 d) (x6 a) 0 i]
  | .lea m d a b s => [rW 0x16 m (x6 d) (x6 a) (x6 b) 0 (0#6 ++ s)]
  | .leaRg m d a b => [rW 0x16 m (x6 d) (x6 a) (x6 b) 0 0x10]
  | .beq m a b off => [br m a b 0 off]
  | .bne m a b off => [br m a b 1 off]
  | .blt m a b off => [br m a b 2 off]
  | .bge m a b off => [br m a b 3 off]
  | .bltu m a b off => [br m a b 4 off]
  | .bgeu m a b off => [br m a b 5 off]
  | .bfe m off => [bW 0x20 m 0 0 6 off]
  | .bnfe m off => [bW 0x20 m 0 0 7 off]
  | .j m off => [bW 0x21 m 0 0 0 off]
  | .jal m off => [bW 0x22 m 0 0 0 off]
  | .jr m a off => [bW 0x23 m (x6 a) 0 0 off]
  | .loop m a off => [bW 0x24 m (x6 a) 0 0 off]
  | .endl m off => [bW 0x25 m 0 0 0 off]
  | .ldB m t a sp sc o off => [mW 0x30 m t a sp 0 sc o off]
  | .ldH m t a sp sc o off => [mW 0x30 m t a sp 1 sc o off]
  | .ldW m t a sp sc o off => [mW 0x30 m t a sp 2 sc o off]
  | .ldD m t a sp sc o off => [mW 0x30 m t a sp 3 sc o off]
  | .stB m t a sp sc o off => [mW 0x31 m t a sp 0 sc o off]
  | .stH m t a sp sc o off => [mW 0x31 m t a sp 1 sc o off]
  | .stW m t a sp sc o off => [mW 0x31 m t a sp 2 sc o off]
  | .stD m t a sp sc o off => [mW 0x31 m t a sp 3 sc o off]
  | .vld m d a b sp => [rW 0x32 m (v6 d) (x6 a) (x6 b) 0 (0#6 ++ spCode sp)]
  | .vst m c a b sp => [rW 0x33 m 0 (x6 a) (x6 b) (v6 c) (0#6 ++ spCode sp)]
  | .vgath m d a b sp sz => [rW 0x34 m (v6 d) (x6 a) (v6 b) 0 (0#4 ++ szCode sz ++ spCode sp)]
  | .vscat m c a b sp sz => [rW 0x35 m 0 (x6 a) (v6 b) (v6 c) (0#4 ++ szCode sz ++ spCode sp)]
  | .vadd m lw d a b => [vi m lw d a b 0x00]
  | .vsub m lw d a b => [vi m lw d a b 0x01]
  | .vand m lw d a b => [vi m lw d a b 0x02]
  | .vor m lw d a b => [vi m lw d a b 0x03]
  | .vxor m lw d a b => [vi m lw d a b 0x04]
  | .vshl m lw d a b => [vi m lw d a b 0x05]
  | .vshr m lw d a b => [vi m lw d a b 0x06]
  | .vsar m lw d a b => [vi m lw d a b 0x07]
  | .vmin m lw d a b => [vi m lw d a b 0x0A]
  | .vmax m lw d a b => [vi m lw d a b 0x0B]
  | .vminu m lw d a b => [vi m lw d a b 0x0C]
  | .vmaxu m lw d a b => [vi m lw d a b 0x0D]
  | .vmul m lw d a b => [vi m lw d a b 0x10]
  | .vmulh m lw d a b => [vi m lw d a b 0x11]
  | .vmulhu m lw d a b => [vi m lw d a b 0x12]
  | .vadds m lw d a b => [vi m lw d a b 0x14]
  | .vsubs m lw d a b => [vi m lw d a b 0x15]
  | .vaddsu m lw d a b => [vi m lw d a b 0x16]
  | .vsubsu m lw d a b => [vi m lw d a b 0x17]
  | .vabs m lw d a => [rW 0x50 m (v6 d) (v6 a) 0 0 (lwCode lw ++ 0x18#6)]
  | .vfadd m fl rm d a b => [vf m fl rm d a (v6 b) 0]
  | .vfsub m fl rm d a b => [vf m fl rm d a (v6 b) 1]
  | .vfmul m fl rm d a b => [vf m fl rm d a (v6 b) 2]
  | .vfmin m fl d a b => [vf m fl .rne d a (v6 b) 3]
  | .vfmax m fl d a b => [vf m fl .rne d a (v6 b) 4]
  | .vfabs m fl d a => [vf m fl .rne d a 0 5]
  | .vfneg m fl d a => [vf m fl .rne d a 0 6]
  | .vfma m fl rm d a b c => [vm m fl rm d a b c 0]
  | .vfms m fl rm d a b c => [vm m fl rm d a b c 1]
  | .vfnma m fl rm d a b c => [vm m fl rm d a b c 2]
  | .vfnms m fl rm d a b c => [vm m fl rm d a b c 3]
  | .vrcp m d a => [rW 0x5B m (v6 d) (v6 a) 0 0 0]
  | .vrsq m d a => [rW 0x5B m (v6 d) (v6 a) 0 0 1]
  | .vexp2 m d a => [rW 0x5B m (v6 d) (v6 a) 0 0 2]
  | .vlog2 m d a => [rW 0x5B m (v6 d) (v6 a) 0 0 3]
  | .vcmp m ty c d a b => [rW 0x53 m (v6 d) (v6 a) (v6 b) 0 (tyCode ty ++ 0#2 ++ condCode c)]
  | .vsel m lw d a b c => [rW 0x54 m (v6 d) (v6 a) (v6 b) (v6 c) (lwCode lw ++ 0#6)]
  | .vcvt m p rm nan d a b => [rW 0x55 m (v6 d) (v6 a) (x6 b) 0 (p ++ rndCode rm ++ swBit nan)]
  | .vscan m ty op d a h => [rW 0x56 m (v6 d) (v6 a) (optV6 h) 0 (tyCode ty ++ ropCode op ++ 0#2)]
  | .vred m ty op d a => [rW 0x57 m (xv6 d) (v6 a) 0 0 (tyCode ty ++ ropCode op ++ 0#2)]
  | .vperm m lw d a b c => [rW 0x58 m (v6 d) (v6 a) (v6 b) (optV6 c) (lwCode lw ++ 0#6)]
  | .vbcastX m lw d a => [rW 0x59 m (v6 d) (x6 a) 0 0 (lwCode lw ++ 0#1 ++ 0#5)]
  | .vbcastV m lw d a b => [rW 0x59 m (v6 d) (v6 a) (x6 b) 0 (lwCode lw ++ 1#1 ++ 0#5)]
  | .vlaneGet m lw d a b => [rW 0x5A m (x6 d) (v6 a) (x6 b) 0 (lwCode lw ++ 0#2 ++ 0#4)]
  | .vlaneGetu m lw d a b => [rW 0x5A m (x6 d) (v6 a) (x6 b) 0 (lwCode lw ++ 1#2 ++ 0#4)]
  | .vlaneSet m lw d a b => [rW 0x5A m (v6 d) (x6 a) (x6 b) 0 (lwCode lw ++ 2#2 ++ 0#4)]
  | .vlaneIota m lw d => [rW 0x5A m (v6 d) 0 0 0 (lwCode lw ++ 3#2 ++ 0#4)]
  | .qset m d a => [rW 0x60 m (q6 d) (x6 a) 0 0 0]
  | .qsetU m d => [rW 0x60 m (q6 d) 0 0 0 1]
  | .qsetCfg m d a b c => [rW 0x60 m (q6 d) (x6 a) (x6 b) (x6 c) 2]
  | .qinfo m fld d a => [rW 0x63 m (x6 d) (q6 a) 0 0 (0#5 ++ fld)]
  | .qadvC m d a i => [iW 0x61 m (q6 d) (x6 a) 0 i]
  | .qadvP m d a i => [iW 0x61 m (q6 d) (x6 a) 1 i]
  | .qwaitC m d k => [iW 0x62 m (q6 d) 0 0 (0#19 ++ k)]
  | .qwaitP m d k => [iW 0x62 m (q6 d) 0 1 (0#19 ++ k)]
  | .vldq m d a k p => [iW 0x64 m (v6 d) (q6 a) 0 (0#12 ++ p ++ k)]
  | .vldqAdv m d a k p => [iW 0x64 m (v6 d) (q6 a) 1 (0#12 ++ p ++ k)]
  | .vstq m d a k p => [iW 0x65 m (q6 d) (v6 a) 0 (0#12 ++ p ++ k)]
  | .vstqAdv m d a k p => [iW 0x65 m (q6 d) (v6 a) 1 (0#12 ++ p ++ k)]
  | .kld m k x sp => [eW 0x68 m k 0 0 (x6 x) (0#8 ++ spCode sp)]
  | .kst m k x sp => [eW 0x69 m k 0 0 (x6 x) (0#8 ++ spCode sp)]
  | .kset m k w dbl x => [eW 0x6A m k 0 0 (x6 x) (0#5 ++ swBit dbl ++ w)]
  | .kinv m ka kb r => [eW 0x6B m ka kb 0 0 (0#9 ++ swBit r)]
  | .mma m z ka kb kc => [eW 0x70 m ka kb kc 0 (0#9 ++ swBit z)]
  | .mzero m kc => [eW 0x71 m 0 0 kc 0 0]
  | .mout m rm nanm clr ka kb x => [eW 0x72 m ka kb 0 (x6 x) (0#5 ++ swBit clr ++ swBit nanm ++ rndCode rm)]
  | .mprog m x => [eW 0x73 m 0 0 0 (x6 x) 0]
  | .mwait m x => [eW 0x74 m 0 0 0 (x6 x) 0]
  | .copy m q prom cv rm nanm ka kb x =>
    [eW 0x78 m ka kb 0 (x6 x) (0#1 ++ q ++ swBit nanm ++ rm ++ swBit cv ++ swBit prom ++ 0#1)]
  | .copyMmaBundle m q prom cv rm nanm ka kb x z ma mb mc =>
    [eW 0x78 { gap := 0, sw := false } ka kb 0 (x6 x)
      (0#1 ++ q ++ swBit nanm ++ rm ++ swBit cv ++ swBit prom ++ 1#1), eW 0x70 m ma mb mc 0 (0#9 ++ swBit z)]
  | .packNz m q ka kb x => [eW 0x79 m ka kb 0 (x6 x) (0#1 ++ q ++ 0#4 ++ 0#3)]
  | .packThr m q ka kb x => [eW 0x79 m ka kb 0 (x6 x) (0#1 ++ q ++ 0#4 ++ 1#3)]
  | .packTop m q ka kb x => [eW 0x79 m ka kb 0 (x6 x) (0#1 ++ q ++ 0#4 ++ 2#3)]
  | .packSto m q ka kb x => [eW 0x79 m ka kb 0 (x6 x) (0#1 ++ q ++ 0#4 ++ 3#3)]
  | .unpack m q ka kb => [eW 0x7A m ka kb 0 0 (0#1 ++ q ++ 0#7)]
  | .gather m q ka kb kc => [eW 0x7B m ka kb kc 0 (0#1 ++ q ++ 0#7)]
  | .scatter m q ka kb kc => [eW 0x7C m ka kb kc 0 (0#1 ++ q ++ 0#7)]
  | .fill m q kb x => [eW 0x7D m 0 kb 0 (x6 x) (0#1 ++ q ++ 0#7)]
  | .cpwait m x mask => [eW 0x7E m 0 0 0 (x6 x) (0#6 ++ mask)]
  | .collAllred m slot o ka kb => [eW 0x80 m ka kb 0 0 (0#1 ++ foldCode o ++ 0#2 ++ slot)]
  | .collRedscat m slot o ka kb => [eW 0x80 m ka kb 0 0 (0#1 ++ foldCode o ++ 1#2 ++ slot)]
  | .collAllgath m slot o ka kb => [eW 0x80 m ka kb 0 0 (0#1 ++ foldCode o ++ 2#2 ++ slot)]
  | .collBcast m slot o ka kb x => [eW 0x80 m ka kb 0 (x6 x) (0#1 ++ foldCode o ++ 3#2 ++ slot)]
  | .collwait m x slot one => [eW 0x81 m 0 0 0 (x6 x) (0#5 ++ swBit one ++ slot)]
  | .collgrpForm m slot x => [eW 0x82 m 0 0 0 (x6 x) (0#4 ++ 0#2 ++ slot)]
  | .collgrpReform m slot x => [eW 0x82 m 0 0 0 (x6 x) (0#4 ++ 1#2 ++ slot)]
  | .collgrpRelease m slot => [eW 0x82 m 0 0 0 0 (0#4 ++ 2#2 ++ slot)]
  | .amoAdd m z d a b sp sc o => [amo m z d a b 0 sp sc o 0]
  | .amoAnd m z d a b sp sc o => [amo m z d a b 0 sp sc o 1]
  | .amoOr m z d a b sp sc o => [amo m z d a b 0 sp sc o 2]
  | .amoXor m z d a b sp sc o => [amo m z d a b 0 sp sc o 3]
  | .amoMin m z d a b sp sc o => [amo m z d a b 0 sp sc o 4]
  | .amoMax m z d a b sp sc o => [amo m z d a b 0 sp sc o 5]
  | .amoMinu m z d a b sp sc o => [amo m z d a b 0 sp sc o 6]
  | .amoMaxu m z d a b sp sc o => [amo m z d a b 0 sp sc o 7]
  | .amoSwap m z d a b sp sc o => [amo m z d a b 0 sp sc o 8]
  | .amoCas m z d a b c sp sc o => [amo m z d a b c sp sc o 9]
  | .amoFadd m d a b sp sc o => [amo m false d a b 0 sp sc o 10]
  | .amoBfadd m d a b sp sc o => [amo m false d a b 0 sp sc o 11]
  | .waitmon m z d a b c sp sc o => [aW 0x41 m d a b c sp sc o (0#2 ++ (1#1 ++ swBit z) ++ 0#4)]
  | .barJoin m d a sp => [rW 0x42 m (x6 d) (x6 a) 0 0 (0#3 ++ 0#3 ++ spCode sp)]
  | .barArrive m d a sp => [rW 0x42 m (x6 d) (x6 a) 0 0 (0#3 ++ 1#3 ++ spCode sp)]
  | .barWait m d a b sp => [rW 0x42 m (x6 d) (x6 a) (x6 b) 0 (0#3 ++ 2#3 ++ spCode sp)]
  | .barArrwait m d a sp => [rW 0x42 m (x6 d) (x6 a) 0 0 (0#3 ++ 3#3 ++ spCode sp)]
  | .barDrop m d a sp => [rW 0x42 m (x6 d) (x6 a) 0 0 (0#3 ++ 4#3 ++ spCode sp)]
  | .frenew m d a => [rW 0x36 m (x6 d) (x6 a) 0 0 0]
  | .flife m d a => [rW 0x36 m (x6 d) (x6 a) 0 0 1]
  | .fclaim m d a => [rW 0x36 m (x6 d) (x6 a) 0 0 2]
  | .fenceFull m sc => [iW 0x90 m 0 0 0 (0#29 ++ sc)]
  | .fenceAcq m sc => [iW 0x90 m 0 0 1 (0#29 ++ sc)]
  | .fenceRel m sc => [iW 0x90 m 0 0 2 (0#29 ++ sc)]
  | .fenceSt m sc => [iW 0x90 m 0 0 3 (0#29 ++ sc)]
  | .fenceq m mask sc => [iW 0x91 m 0 0 0 (0#19 ++ sc ++ mask)]
  | .fenceqW m mask sc => [iW 0x91 m 0 0 1 (0#19 ++ sc ++ mask)]
  | .sleepuntil m a => [rW 0x92 m 0 (x6 a) 0 0 0]
  | .sleepuntilNp m a => [rW 0x92 m 0 (x6 a) 0 0 1]
  | .rdtick m d => [rW 0x93 m (x6 d) 0 0 0 0]
  | .yield m => [sW 0x94 m 0 0 0 0]
  | .exit m => [sW 0x95 m 0 0 0 0]
  | .rngSeed m a b => [rW 0x96 m 0 (x6 a) (x6 b) 0 0]
  | .rngNext m d => [rW 0x96 m (x6 d) 0 0 0 1]
  | .rngGet m d a => [rW 0x96 m (x6 d) (x6 a) 0 0 2]
  | .cfgw m d a => [rW 0x88 m (x6 d) (x6 a) 0 0 0]
  | .cfgs m d a b sp => [rW 0x89 m (x6 d) (x6 a) (x6 b) 0 (0#6 ++ spCode sp)]
  | .planeRun m p => [iW 0x8A m 0 0 0 (0#30 ++ p)]
  | .planeHalt m p => [iW 0x8A m 0 0 1 (0#30 ++ p)]
  | .planeStat m d p => [iW 0x8A m (x6 d) 0 2 (0#30 ++ p)]
  | .planeClr m p => [iW 0x8A m 0 0 3 (0#30 ++ p)]
  | .planeFree m p => [iW 0x8A m 0 0 4 (0#30 ++ p)]
  | .strmSr m dep ka x => [eW 0x8B m ka 0 0 (x6 x) (0#5 ++ dep ++ 0#1 ++ 0#2)]
  | .strmSw m dep ka x => [eW 0x8B m ka 0 0 (x6 x) (0#5 ++ dep ++ 0#1 ++ 1#2)]
  | .strmMs m dir dep ka x => [eW 0x8B m ka 0 0 (x6 x) (0#5 ++ dep ++ swBit dir ++ 2#2)]
  | .sbar m mask => [iW 0x8C m 0 0 0 (0#29 ++ mask)]
  | .sbarW m mask => [iW 0x8C m 0 0 1 (0#29 ++ mask)]
  | .sendvc m vc k a => [rW 0x8D m 0 (x6 a) 0 0 (k ++ vc)]
  | .recvvc m d vc => [rW 0x8E m (x6 d) 0 0 0 (0#2 ++ 0#1 ++ vc)]
  | .recvvcNb m d vc => [rW 0x8E m (x6 d) 0 0 0 (0#2 ++ 1#1 ++ vc)]
  | .waitvc m d mask => [iW 0x8F m (x6 d) 0 0 mask]
  | .trap m i => [sW 0xA0 m 0 0 0 i]
  | .rte m => [sW 0xA1 m 0 0 0 0]
  | .sprr m d n => [sW 0xA2 m (x6 d) 0 n 0]
  | .sprw m n a => [sW 0xA3 m 0 (x6 a) n 0]
  | .launch m d a => [rW 0xA4 m (x6 d) (x6 a) 0 0 0]
  | .lwait m d a => [rW 0xA5 m (x6 d) (x6 a) 0 0 0]
  | .leaseGet m d a b => [rW 0xA6 m (x6 d) (x6 a) (x6 b) 0 0]
  | .leaseRevoke m d a b => [rW 0xA6 m (x6 d) (x6 a) (x6 b) 0 1]
  | .leaseRelease m d a b => [rW 0xA6 m (x6 d) (x6 a) (x6 b) 0 2]
  | .invpg m a b big => [rW 0xA7 m 0 (x6 a) (x6 b) 0 (0#7 ++ swBit big)]
  | .retireBegin m d a => [rW 0xA8 m (x6 d) (x6 a) 0 0 0]
  | .bkpt m i => [sW 0xA9 m 0 0 0 i]
  | .holdSet m d a b => [rW 0xAA m (x6 d) (x6 a) (x6 b) 0 0]
  | .holdRel m d a b => [rW 0xAA m (x6 d) (x6 a) (x6 b) 0 1]
  | .pctrRd m d a => [rW 0xAB m (x6 d) (x6 a) 0 0 0]
  | .pctrSel m a b => [rW 0xAB m 0 (x6 a) (x6 b) 0 1]
  | .pctrClr m a => [rW 0xAB m 0 (x6 a) 0 0 2]
  | .histRd m d a b => [rW 0xAC m (x6 d) (x6 a) (x6 b) 0 0]
  | .histArm m a b c => [rW 0xAC m 0 (x6 a) (x6 b) (x6 c) 1]
  | .histClr m a => [rW 0xAC m 0 (x6 a) 0 0 2]
  | _ => []

/-- The two words at which an instruction is decoded; `n` is whatever stands behind an instruction of one word. -/
def wordsOf (i : Instr) (n : Word) : Word × Word :=
  match encode i with
  | [w] => (w, n)
  | [w, v] => (w, v)
  | _ => (0, 0)

/-! ## Bytes and the table's numbering -/

/-- The instruction in memory order (R5, R79): up to sixteen bytes. -/
def decodeBytes (bs : List Byte) : Dec :=
  decode (BitVec.ofNat 64 (leNat (bs.take 8))) (BitVec.ofNat 64 (leNat ((bs.drop 8).take 8)))

/-- The instruction the decoder reads from a word numbered as the opcode table numbers it: the first byte is bits 7..0.
Bits above `nbits` are zero. -/
def decodeTableWord (nbits w : Nat) : Option Instr :=
  match decodeBytes (natLe 16 (w % 2 ^ nbits)) with
  | .ok i => some i
  | .error _ => none

end Sys2Proof
end

