-- ==== Sys2Proof/Machine/Float.lean ====
section
/-! DEFINITION. Number formats and exact arithmetic (R32 to R56): values are exact dyadic numbers, rounded once. -/
namespace Sys2Proof.Machine

/-! ## Integer square root and logarithm, by structural recursion -/

/-- Position of the highest 1 bit of `v < 2 ^ n`, or 0. -/
def msbUpTo : Nat → Nat → Nat
  | 0, _ => 0
  | n + 1, v => if v.testBit n then n else msbUpTo n v

/-- Position of the highest 1 bit. -/
def msb (v : Nat) : Nat := Nat.log2 v

/-- Bit by bit: the largest `r` with `r * r ≤ v`, found below `2 ^ n` over `acc`. -/
def isqrtFrom : Nat → Nat → Nat → Nat
  | 0, acc, _ => acc
  | n + 1, acc, v =>
    let t := acc + 2 ^ n
    isqrtFrom n (if t * t ≤ v then t else acc) v

/-- Integer square root. -/
def isqrt (v : Nat) : Nat := isqrtFrom (msb v / 2 + 1) 0 v

/-! ## Exact values -/

/-- An exact value: NaN, an infinity, or `± man * 2 ^ exp`, with a sign on zero. -/
inductive Num where
  | nan
  | inf (neg : Bool)
  | fin (neg : Bool) (man : Nat) (exp : Int)
deriving DecidableEq, Repr

/-- A floating-point format (R35, R36): exponent bits, mantissa bits, bias, the largest finite magnitude code, whether
it has infinities, and the code of its canonical NaN (none for E2M1). -/
structure FFmt where
  e    : Nat
  m    : Nat
  bias : Nat
  max  : Nat
  inf  : Bool
  nan  : Option Nat
deriving DecidableEq, Repr

def e4m3 : FFmt := { e := 4, m := 3, bias := 7, max := 0x7E, inf := false, nan := some 0x7F }
def e5m2 : FFmt := { e := 5, m := 2, bias := 15, max := 0x7B, inf := true, nan := some 0x7E }
def e2m1 : FFmt := { e := 2, m := 1, bias := 1, max := 7, inf := false, nan := none }
def bf16 : FFmt := { e := 8, m := 7, bias := 127, max := 0x7F7F, inf := true, nan := some 0x7FC0 }
def fp32 : FFmt := { e := 8, m := 23, bias := 127, max := 0x7F7FFFFF, inf := true, nan := some 0x7FC00000 }
def fp64 : FFmt :=
  { e := 11, m := 52, bias := 1023, max := 0x7FEFFFFFFFFFFFFF, inf := true, nan := some 0x7FF8000000000000 }

/-- The value of a code (R35, R36). -/
def FFmt.val (f : FFmt) (code : Nat) : Num :=
  let neg := code.testBit (f.e + f.m)
  let mag := code % 2 ^ (f.e + f.m)
  let ex := mag / 2 ^ f.m
  let mn := mag % 2 ^ f.m
  if f.max < mag then (if f.inf && decide (mn = 0) then .inf neg else .nan)
  else if ex = 0 then .fin neg mn (1 - (f.bias : Int) - f.m)
  else .fin neg (mn + 2 ^ f.m) ((ex : Int) - f.bias - f.m)

/-- Round `man * 2 ^ -s` to an integer (R40, R41, R43); `sticky` says the exact value lies a little above it, and
`u` is the 16-bit word of stochastic rounding. -/
def roundShift (rm : Rnd) (neg sticky : Bool) (u man s : Nat) : Nat :=
  let lo := man / 2 ^ s
  let rem := man % 2 ^ s
  let inexact := decide (rem ≠ 0) || sticky
  let up := match rm with
    | .rne => decide (2 ^ s < 2 * rem) || (decide (2 ^ s = 2 * rem) && (sticky || decide (lo % 2 = 1)))
    | .rz => false
    | .rd => neg && inexact
    | .ru => !neg && inexact
    | .sr => decide (rem ≠ 0) && decide (u * 2 ^ s < rem * 65536)
  if up then lo + 1 else lo

/-- Round `man * 2 ^ exp` to a multiple of `2 ^ q`, as a count of `2 ^ q`. -/
def roundAt (rm : Rnd) (neg sticky : Bool) (u man : Nat) (exp q : Int) : Nat :=
  if exp < q then roundShift rm neg sticky u man (q - exp).toNat
  else roundShift rm neg sticky u (man * 2 ^ (exp - q).toNat) 0

/-- The magnitude code of a finite nonzero value after rounding, exponent unbounded above (R41). -/
def FFmt.magCode (f : FFmt) (rm : Rnd) (neg sticky : Bool) (u man : Nat) (exp : Int) : Nat :=
  let qmin : Int := 1 - (f.bias : Int) - f.m
  let top : Int := exp + msb man
  let q := if top - f.m < qmin then qmin else top - f.m
  let k := roundAt rm neg sticky u man exp q
  (q - qmin).toNat * 2 ^ f.m + k

def FFmt.signed (f : FFmt) (neg : Bool) (mag : Nat) : Nat := if neg then mag + 2 ^ (f.e + f.m) else mag

/-- How an overflow or an infinite source is written (R44): by IEEE 754, saturating, or in NaN mode. -/
inductive Over where
  | ieee | sat | nanMode
deriving DecidableEq, Repr

/-- Whether an IEEE overflow goes to infinity. -/
def overInf (rm : Rnd) (neg : Bool) : Bool :=
  match rm with
  | .rne | .sr => true
  | .rz => false
  | .rd => neg
  | .ru => !neg

/-- The magnitude code of infinity. -/
def FFmt.infMag (f : FFmt) : Nat := f.max + 1

/-- Overflow or an infinity (R44): code and whether SAT is set. -/
def FFmt.overflow (f : FFmt) (ov : Over) (rm : Rnd) (neg source : Bool) : Nat × Bool :=
  match ov with
  | .ieee => (f.signed neg (if source || overInf rm neg then f.infMag else f.max), false)
  | .sat => (f.signed neg f.max, true)
  | .nanMode => if f.inf then (f.signed neg f.infMag, false) else (f.nan.getD 0, false)

/-- Round an exact value to a format (R41, R44): code and whether SAT is set. -/
def FFmt.put (f : FFmt) (ov : Over) (rm : Rnd) (u : Nat) (sticky : Bool) (x : Num) : Nat × Bool :=
  match x with
  | .nan =>
    match f.nan with
    | some c => (c, false)
    | none => (0, true)
  | .inf neg => f.overflow ov rm neg true
  | .fin neg man exp =>
    if man = 0 then (f.signed neg 0, false)
    else
      let mag := f.magCode rm neg sticky u man exp
      if f.max < mag then f.overflow ov rm neg false else (f.signed neg mag, false)

/-- Round by IEEE rules to BF16, FP32 or FP64. -/
def FFmt.ieee (f : FFmt) (rm : Rnd) (x : Num) : Nat := (f.put .ieee rm 0 false x).1

/-! ## Exact arithmetic -/

def Num.neg : Num → Num
  | .nan => .nan
  | .inf s => .inf (!s)
  | .fin s m e => .fin (!s) m e

def Num.abs : Num → Num
  | .nan => .nan
  | .inf _ => .inf false
  | .fin _ m e => .fin false m e

def Num.isNan : Num → Bool
  | .nan => true
  | _ => false

def signedMan (neg : Bool) (man : Nat) (k : Nat) : Int :=
  let v : Int := (man * 2 ^ k : Nat)
  if neg then -v else v

def ofSigned (v : Int) (exp : Int) (zeroNeg : Bool) : Num :=
  if v = 0 then .fin zeroNeg 0 0 else .fin (decide (v < 0)) v.natAbs exp

/-- Exact sum, with the sign of a zero by R41. -/
def Num.add (rm : Rnd) (x y : Num) : Num :=
  match x, y with
  | .nan, _ | _, .nan => .nan
  | .inf a, .inf b => if a = b then .inf a else .nan
  | .inf a, .fin .. => .inf a
  | .fin .., .inf b => .inf b
  | .fin a m e, .fin b n f =>
    let lo := if e < f then e else f
    let zneg := if m = 0 ∧ n = 0 ∧ a = b then a else decide (rm = .rd)
    ofSigned (signedMan a m (e - lo).toNat + signedMan b n (f - lo).toNat) lo zneg

/-- Exact product. -/
def Num.mul (x y : Num) : Num :=
  match x, y with
  | .nan, _ | _, .nan => .nan
  | .inf a, .inf b => .inf (a != b)
  | .inf a, .fin b n _ | .fin b n _, .inf a => if n = 0 then .nan else .inf (a != b)
  | .fin a m e, .fin b n f => .fin (a != b) (m * n) (e + f)

/-- Scale by a power of two. -/
def Num.scale (x : Num) (k : Int) : Num :=
  match x with
  | .fin s m e => .fin s m (e + k)
  | y => y

def Num.ofInt (v : Int) : Num := ofSigned v 0 false

/-- Exact comparison of numbers that are not NaN: less than, zeros equal. -/
def Num.lt (x y : Num) : Bool :=
  match x, y with
  | .nan, _ | _, .nan => false
  | .inf a, .inf b => a && !b
  | .inf a, .fin .. => a
  | .fin .., .inf b => !b
  | .fin a m e, .fin b n f =>
    let lo := if e < f then e else f
    decide (signedMan a m (e - lo).toNat < signedMan b n (f - lo).toNat)

def Num.eq (x y : Num) : Bool :=
  match x, y with
  | .nan, _ | _, .nan => false
  | .inf a, .inf b => a == b
  | .inf _, .fin .. | .fin .., .inf _ => false
  | .fin .., .fin .. => !(x.lt y) && !(y.lt x)

def Num.isNeg : Num → Bool
  | .inf s => s
  | .fin s _ _ => s
  | .nan => false

/-- Minimum (`mx` false) or maximum of R53: NaN if either is, −0 below +0. -/
def Num.minMax (mx : Bool) (x y : Num) : Num :=
  if x.isNan || y.isNan then .nan
  else
    let xl := x.lt y || (x.eq y && x.isNeg && !y.isNeg)
    if mx then (if xl then y else x) else (if xl then x else y)

/-! ## The generator (R42, R43) -/

/-- One step: new S0, new S1, output. -/
def rngStep (s0 s1 : Word) : Word × Word × Word :=
  let a := s0 ^^^ (s0 <<< 23)
  let n := a ^^^ s1 ^^^ (a >>> 17) ^^^ (s1 >>> 26)
  (s1, n, n + s1)

/-- `k` steps: the outputs in order and the state after. -/
def rngSteps : Nat → Word → Word → List Word × Word × Word
  | 0, a, b => ([], a, b)
  | k + 1, a, b =>
    let (s0, s1, o) := rngStep a b
    let (l, x, y) := rngSteps k s0 s1
    (o :: l, x, y)

/-- The state after `k` steps. (DEDUCED, log entry 68.) -/
def rngAdvance : Nat → Word → Word → Word × Word
  | 0, a, b => (a, b)
  | k + 1, a, b => let (s0, s1, _) := rngStep a b; rngAdvance k s0 s1

/-- The 16-bit word of lane `i` from the outputs. -/
def laneWord (outs : List Word) (i : Nat) : Nat := ((outs[i / 4]?).getD 0).toNat / 2 ^ (16 * (i % 4)) % 65536

/-! ## Integers from floating point (R44, R45) -/

/-- Round to an integer and saturate to `lo ≤ v ≤ hi`: value, whether SAT is set. -/
def Num.toInt (x : Num) (rm : Rnd) (u : Nat) (lo hi : Int) : Int × Bool :=
  match x with
  | .nan => (0, true)
  | .inf s => (if s then lo else hi, true)
  | .fin s m e =>
    let k : Int := roundAt rm s false u m e 0
    let v := if s then -k else k
    if v < lo then (lo, true) else if hi < v then (hi, true) else (v, false)

/-- INT8S read: 0x80 counts as −127 and sets CLAMP (R34). -/
def int8s (b : Nat) : Int × Bool := if b % 256 = 0x80 then (-127, true) else (signedOf 8 b, false)

/-- E8M0 (R38): the power of two, or none for NaN. -/
def e8m0 (x : Nat) : Option Int := if x % 256 = 0xFF then none else some ((x % 256 : Nat) - 127)

/-! ## Vector functions (R56), correctly rounded -/

def fput (sticky : Bool) (x : Num) : Nat := (fp32.put .ieee .rne 0 sticky x).1
def fnan : Nat := 0x7FC00000

/-- 1 / x. -/
def vrcpLane (a : Nat) : Nat :=
  match fp32.val a with
  | .nan => fnan
  | .inf s => fp32.signed s 0
  | .fin s m e =>
    if m = 0 then fp32.signed s fp32.infMag
    else
      let q := 2 ^ 80 / m
      fput (decide (2 ^ 80 % m ≠ 0)) (.fin s q (-80 - e))

/-- 1 / √x. -/
def vrsqLane (a : Nat) : Nat :=
  match fp32.val a with
  | .nan => fnan
  | .inf s => if s then fnan else 0
  | .fin s m e =>
    if m = 0 then fp32.signed s fp32.infMag
    else if s then fnan
    else
      -- make the exponent even, then √(2^k / m)
      let (m, e) : Nat × Int := if e % 2 = 0 then (m, e) else (2 * m, e - 1)
      let v := 2 ^ 160 / m
      let r := isqrt v
      fput (decide (r * r ≠ v) || decide (2 ^ 160 % m ≠ 0)) (.fin false r (-80 - e / 2))

/-- Bits of the fixed-point work below. -/
def fxBits : Nat := 256

/-- `2 ^ (f / 2 ^ k)` for `f < 2 ^ k` over `2 ^ fxBits`, multiplying the repeated square roots of 2 (`r` is
`2 ^ (2 ^ -i)` before bit `k - 1` is used). -/
def exp2Frac : Nat → Nat → Nat → Nat → Nat
  | 0, _, _, acc => acc
  | k + 1, f, r, acc =>
    let r := isqrt (r * 2 ^ fxBits)
    exp2Frac k f r (if f.testBit k then acc * r / 2 ^ fxBits else acc)

/-- 2 ^ x. -/
def vexp2Lane (a : Nat) : Nat :=
  match fp32.val a with
  | .nan => fnan
  | .inf s => if s then 0 else fp32.infMag
  | .fin s m e =>
    if m = 0 then 0x3F800000
    else if (Num.fin s m e).lt (.fin true 150 0) then 0
    else if !(Num.lt (.fin s m e) (.fin false 128 0)) then fp32.infMag
    else if e + msb m < -30 then 0x3F800000
    else
      -- |x| < 256, so x = i + f / 2^k with k at most 53
      let k : Nat := if e < 0 then (-e).toNat else 0
      let v : Int := signedMan s m (if e < 0 then 0 else e.toNat)
      let i : Int := v / (2 ^ k : Nat)
      let f : Nat := (v % (2 ^ k : Nat)).toNat
      if f = 0 then fput false (.fin false 1 i)
      else fput true (.fin false (exp2Frac k f (2 * 2 ^ fxBits) (2 ^ fxBits)) (i - fxBits))

/-- The first `n` bits after the point of log2 of `y / 2 ^ fxBits`, `1 ≤ y / 2 ^ fxBits < 2`. -/
def log2Frac : Nat → Nat → Nat → Nat
  | 0, _, acc => acc
  | n + 1, y, acc =>
    let y := y * y / 2 ^ fxBits
    if 2 * 2 ^ fxBits ≤ y then log2Frac n (y / 2) (2 * acc + 1) else log2Frac n y (2 * acc)

/-- log2 x. -/
def vlog2Lane (a : Nat) : Nat :=
  match fp32.val a with
  | .nan => fnan
  | .inf s => if s then fnan else fp32.infMag
  | .fin s m e =>
    if m = 0 then fp32.signed true fp32.infMag
    else if s then fnan
    else
      let t := msb m
      let i : Int := e + t
      if m = 2 ^ t then fput false (Num.ofInt i)
      else
        let fr := log2Frac 100 (m * 2 ^ (fxBits - t)) 0
        let v : Int := i * (2 ^ 100 : Nat) + fr
        -- the exact value lies a little above v; for a negative one the magnitude lies a little below |v|
        if 0 ≤ v then fput true (.fin false v.toNat (-100))
        else fput true (.fin true (v.natAbs - 1) (-100))

/-! ## Lanes (R33) -/

/-- Lane `i` of width `w` of a register. -/
def lane (w : Nat) (v : BitVec 2048) (i : Nat) : Nat := v.toNat / 2 ^ (w * i) % 2 ^ w
def lanes (w : Nat) (v : BitVec 2048) : List Nat := (List.range (2048 / w)).map (lane w v)
def packNat (w : Nat) : List Nat → Nat
  | [] => 0
  | a :: r => a % 2 ^ w + 2 ^ w * packNat w r
def ofLanes (w : Nat) (l : List Nat) : BitVec 2048 := BitVec.ofNat 2048 (packNat w l)

end Sys2Proof.Machine
end

