-- ==== Sys2Proof/Config.lean ====
section
/-! DEFINITION. What is fixed for the device, and the values the manual leaves open: opaque constants without a body,
applied to what they depend on. -/
namespace Sys2Proof.Config

/-- L, the lifetime of a fleeting tile in ticks (R314, R329). -/
def flife : Nat := 131072
/-- Bytes of a scratchpad (R305). -/
def scrSize : Nat := 0x180000
/-- Bytes of a fleeting store (R305). -/
def fltSize : Nat := 0x400000
/-- Bytes of one HBM4 stack: 48 GiB (R20). -/
def stackBytes : Nat := 48 * 2 ^ 30
/-- Entries of a synchronising bridge (R25). -/
def bridgeDepth : Nat := 16
/-- Entries of a replay queue (R72). -/
def replayDepth : Nat := 64
/-- Entries of a lease-hold store (R375). -/
def holdDepth : Nat := 1024
/-- Messages of a remote message queue (R311). -/
def rmqDepth : Nat := 512
/-- Requests a bank queue takes before a message must wait (the manual gives no depth; log entry 12). -/
def bankDepth : Nat := 64
/-- Words of one VC binding that may be on their way at once (the manual gives no depth; log entry 12). -/
def flyDepth : Nat := 16
/-- Tokens a stream command keeps toward its element or its memory (R71; log entry 12). -/
def streamDepth : Nat := 16
/-- Ticks a VC port waits before it is in persistent back-pressure (R70). -/
def spillAfter : Nat := 1024
/-- Ticks of a rail window, and of the bar of R426. -/
def railWindow : Nat := 1048576
/-- Bytes of a save slot (R388). -/
def slotBytes : Nat := 0x660000

/-- FREE VALUE: a read under a broken GAP promise takes the old value (R82). (DESIGN CHOICE, log entry 13.) -/
opaque stale (nonce reg depth : Nat) : Bool
/-- FREE VALUE: byte `i` of the block at physical address `at_`, the tweak, stored under one key and read under another, or of a
save image (R325, R387, R456). (DESIGN CHOICE, log entry 14.) -/
opaque misread (stored used at_ : Nat) (block : List (BitVec 8)) (i : Nat) : BitVec 8
/-- FREE VALUE: SHA-256 of a byte string, as a little-endian number (R451); the manual names the function only.
(DESIGN CHOICE, log entry 15.) -/
opaque sha256 (bytes : List (BitVec 8)) : BitVec 256
/-- FREE VALUE: whether a signature verifies under a public key (R451); the manual names the algorithm only.
(DESIGN CHOICE, log entry 15.) -/
opaque slhVerify (pub : List (BitVec 8)) (msg sig : List (BitVec 8)) : Bool
/-- FREE VALUE: byte `i` of the identity key's signature over a message (R454, R455).
(DESIGN CHOICE, log entry 15.) -/
opaque slhSign (msg : List (BitVec 8)) (i : Nat) : BitVec 8
/-- FREE VALUE: the SHA-256 of Rolaskat's firmware key held in the boot ROM (R449). (DESIGN CHOICE, log entry 15.) -/
opaque romKeyHash : BitVec 256
/-- FREE VALUE: word `k` of the identity public key (R454). (DESIGN CHOICE, log entry 15.) -/
opaque idPub (k : Nat) : BitVec 64
/-- FREE VALUE: whether the identity could be derived at a power-on (R454). (DESIGN CHOICE, log entry 15.) -/
opaque idValid (nonce : Nat) : Bool
/-- FREE VALUE: whether the host read of the firmware image fails, read by read (R451, R452). (DESIGN CHOICE, log entry 16.) -/
opaque hostReadFails (nonce : Nat) : Bool
/-- FREE VALUE: whether the management glades agree on what they checked (R451, R452). (DESIGN CHOICE, log entry 16.) -/
opaque gladesAgree (nonce : Nat) : Bool
/-- FREE VALUE: a byte of host memory above the 2^52 bytes that a translation can name (R450). (DESIGN CHOICE, log entry 16.) -/
opaque hostByte (addr : Nat) : BitVec 8
/-- FREE VALUE: whether another package discards a message of table traffic, its partition having no extent for it (R405).
(DESIGN CHOICE, log entry 95.) -/
opaque peerDiscards (nonce : Nat) : Bool
/-- FREE VALUE: the byte a conversion into E8M0 writes where the result has no code: a zero, a negative, a NaN, or beyond the
codes (R38; R44 has no row for E8M0). (DESIGN CHOICE, log entry 17.) -/
opaque toE8m0 (neg : Bool) (man : Nat) (exp : Int) (kind : Nat) : BitVec 8
/-- FREE VALUE: byte `i` of an engine's read of a place that does not exist or is not leased, which only the contents of a packed
key or a buffer entry loaded unchecked can name (R164, R321; no rule states it). (DESIGN CHOICE, log entry 76.) -/
opaque stray (nonce i : Nat) : BitVec 8
/-- FREE VALUE: the scale a block gets where elements move between MX blocks that do not match (R182, R189).
(DESIGN CHOICE, log entry 18.) -/
opaque crossScale (nonce : Nat) : BitVec 8
/-- FREE VALUE: an element that a member of another package, not heard here, contributed to a round that timed out (R196).
(DESIGN CHOICE, log entry 19.) -/
opaque lateFold (nonce i : Nat) : BitVec 64
/-- FREE VALUE: a destination element of a timed-out round holds the fold (true) or its prior value (R196).
(DESIGN CHOICE, log entry 19.) -/
opaque timedOut (nonce i : Nat) : Bool

/-- FREE VALUE: the ticks a glade's save took, shown in CTXLAST (R388; no rule states them). (DESIGN CHOICE, log entry 23.) -/
opaque saveTicks (nonce glade : Nat) : BitVec 32
/-- FREE VALUE: the lanes a port or adapter has (R414 shows live lanes; the manual counts them for the host port only).
(DESIGN CHOICE, log entry 20.) -/
opaque fullLanes (port : Nat) : Nat

end Sys2Proof.Config
end

