-- ==== Sys2Proof/Machine/State.lean ====
section
/-! DEFINITION. The state of the package as plain data, its reset value, and the reasons a step can stop.
Every store of bytes (device memory, host tier, scratchpads, fleeting stores, accumulators) is one canonical list
of cells over a flat numbering of locations; everything else is `Ctl`. -/
namespace Sys2Proof.Machine

/-! ## Bytes -/

/-- All bytes of the package, of the host tier and of the other packages of the stand, over flat locations. -/
abbrev Memory := List Host.Cell

/-- What an unlisted location reads as (DESIGN CHOICE, log entry 1). -/
def unlisted : Byte := 0

/-- Keys strictly rising and above `lo`, no cell equal to `unlisted`. -/
def memWfFrom : Nat → Memory → Bool
  | _, [] => true
  | lo, (a, b) :: r => decide (lo ≤ a) && (b != unlisted) && memWfFrom (a + 1) r

/-- The canonical form of memory. (DESIGN CHOICE, log entry 8.) -/
def Memory.wf (m : Memory) : Bool := memWfFrom 0 m

/-- A 256-bit pair of XTS key halves as the device knows it: drawn fresh, or installed by KCMD 1 (R456).
`image` marks blocks whose bytes the manual leaves unlaid (the save images of R387). -/
inductive KeyVal where
  | fresh (n : Nat)
  | installed (v : BitVec 512)
  | image
deriving DecidableEq, Repr

/-- The blocks `lo ≤ b < hi` (64-byte block numbers) were last written under `key` (R325). -/
structure KeySpan where
  lo : Nat
  hi : Nat
  key : KeyVal
deriving DecidableEq, Repr

/-! ## Tokens, registers, promises -/

/-- A token (R57): kind and data. -/
structure Token where
  k : BitVec 3
  d : BitVec 32
deriving DecidableEq, Repr

/-- A register named by a 6-bit field (R80): 0–31 x, 32–47 v, 48–63 q. -/
abbrev RegNo := Nat

/-- What a register holds, whole. -/
inductive RegVal where
  | x (w : Word)
  | v (w : BitVec 2048)
  | q (e : Option (BitVec 6))
deriving DecidableEq, Repr

/-- A GAP promise still running (R81, R82): the register, the value it had before, the instructions left. -/
structure Promise where
  reg  : RegNo
  old  : RegVal
  left : Nat
deriving DecidableEq, Repr

/-! ## Requests -/

/-- What the home does (R284, R292). `read` takes `n` bytes; `fwd` is a fleeting load served from SQ(t) that only
tests its tile's birth (R289); `amo`, `arm`, `bar` and `birth` are the bank steps of R201, R204, R208 and R211; `ewrite` is
an engine's write of an element: `nib` is 1 or 2 where only the low or high nibble of a byte is written, 4 a low one that ends
its row, 3 where it is a scale or metadata, no destination byte, `cov` that its
command writes every byte of the poison unit (R425). -/
inductive Access where
  | read (n : Nat)
  | fwd (bytes : List Byte)
  | write (bytes : List Byte)
  | amo (op n : Nat) (b c : Nat)
  | arm (n : Nat) (expected : Nat) (deadline : Option Nat)
  | bar (op : Nat) (token : Nat)
  | birth (op : Nat)
  | ewrite (bytes : List Byte) (nib : Nat) (poison cov : Bool)
deriving DecidableEq, Repr

/-- One request in the ordering machine (R283, R285), of a task or of a command of queue `eng` (then `id` is the command's
and `t` is 16; a table message of another package has `t` 16 and no queue). `addr` is the flat location, `va` the address as the
program gave it, `sp` its space; `lane` is where its bytes go in the result of its access, in bits; `ext` is the
launch extent it came through (R369), `key` the key ID of its page, `svc` the service lane of R375, `moved` the
mapping its route was chosen by (R433), `born` its tick of issue, `heldAt` the tick since which a replay
queue or hold store has it (R396), `whole` 1 that it is a part of an access performed
word by word, 2 such a write that covers whole poison units (R292, R425), `resent` that it was sent again or named anew (R303, R374), `mon` the monitor's own
traffic (R403). -/
structure Req where
  id     : Nat
  g      : Nat
  t      : Nat
  sp     : Space
  addr   : Nat
  va     : Nat
  acc    : Access
  lane   : Nat
  part   : Nat
  launch : Nat
  ext    : Option Nat
  key    : Nat
  svc    : Bool
  stack  : Nat
  born   : Nat
  heldAt : Nat
  eng    : Option Queue := none
  whole  : Nat := 0
  resent : Bool := false
  mon    : Bool := false
deriving DecidableEq, Repr

/-- Requests waiting in one hop FIFO toward one home (R286). -/
structure HopQ where
  hop  : Hop
  home : Home
  reqs : List Req
deriving DecidableEq, Repr

/-- A bridge and what stands behind it (R25, R72, R375). -/
structure Bridge where
  fifo   : List Req
  replay : List Req
  held   : List Req
deriving DecidableEq, Repr

/-- An armed WAITMON monitor of a bank unit (R204, R205), oldest first in its bank. -/
structure Monitor where
  addr : Nat
  n    : Nat
  g    : Nat
  t    : Nat
deriving DecidableEq, Repr

/-! ## The task (R77) -/

/-- One store, vector store or scatter lane in SQ(t) (R289, R290): its pieces as requests, the earlier accesses a
release waits for and the scope it waits at; `fwd` that a load has been served from it (R297). -/
structure SqEntry where
  id      : Nat
  reqs    : List Req
  waitFor : List Nat
  scope   : Nat
  fwd     : Bool := false
deriving DecidableEq, Repr

/-- Where an access in flight leaves its result. -/
inductive Dest where
  | none
  | x (d : Nat)
  | v (d : Nat)
  | key (k : Nat)
deriving DecidableEq, Repr

/-- Where an access found uncorrectable data or poison: its place in the access, the address as the program gave it,
the location, and the DETAIL of R98 (0 found by this access, 1 poison, 2 lost with a link, 3 vacated). -/
structure Bad where
  lane   : Nat
  va     : Nat
  addr   : Nat
  detail : Nat
deriving DecidableEq, Repr

/-- An access issued and not yet performed: whether it is a store or an atomic, the scopes it is performed at
(`lvl` = s + 1 for scope s, 0 for none; R288), its pieces left, the result gathered so far, the lowest piece found
bad, its remaining GAP (R81), its own address (R462), whether it can set FE (R84), whether its task has issued
nothing after it (R130), whether a tile of it was expired (R125), whether a replay queue or hold store has taken a piece of
it (R395), and the words of it still to be sent, one after the other (R141). -/
structure Out where
  id    : Nat
  store : Bool
  atom  : Bool
  lvl   : Nat
  left  : Nat
  stage : BitVec 2048
  bad   : Option Bad
  dest  : Dest
  gap   : Nat
  pc    : Word
  fe    : Bool
  sp    : Space
  last  : Bool := true
  expd  : Bool := false
  waited : Bool := false
  todo  : List Req := []
deriving DecidableEq, Repr

/-- A guard on later accesses (R290, R213): those ids must be performed at `scope` first. It covers every later access
(0), stores and atomics (1), or stores only (2). -/
structure Guard where
  ids    : List Nat
  scope  : Nat
  covers : Nat
deriving DecidableEq, Repr

/-- An entry of the barrier membership list (R207): whether the task has arrived, and the phase it arrived in. -/
structure BarEntry where
  addr    : Nat
  sp      : Space
  va      : Nat
  arrived : Bool
  phase   : Nat
deriving DecidableEq, Repr

/-- Why a task sleeps (R77), with what it waits for and where its result goes. -/
inductive Sleep where
  | waitvc (mask : BitVec 32) (d : Option Nat)
  | sleepuntil (till : Nat) (np : Bool)
  | qwait (consumer : Bool) (entry k : Nat)
  | waitmon (addr n : Nat) (deadline : Option Nat) (d va : Nat)
  | bar (addr phase d : Nat)
  | cpwait (ids : List Nat) (d : Nat)
  | mwait (ids : List Nat) (d : Nat)
  | collwait (ids : List Nat) (d : Nat)
  | lwait (n d : Nat)
deriving DecidableEq, Repr

/-- What a committed instruction still waits for (R386); its task is not ready. -/
inductive Wait where
  | cfgs (d : Nat)
  | entry (id : Nat)
deriving DecidableEq, Repr

/-- Run state of a slot (R77); `free` is a slot that holds no task. -/
inductive Run where
  | free
  | runnable
  | sleeping (s : Sleep)
  | retired
deriving DecidableEq, Repr

/-- A raised cause (R101) on its way to TRAP_ENTRY (R103): cause number, EPC, EADDR, EVAL, DETAIL, BUNDLE; `ord` is the id of
the access that raised a MEMUNC, by which the earlier of two is known (R462). -/
structure Cause where
  code   : Nat
  epc    : Word
  eaddr  : Word
  eval   : Word
  detail : Nat
  bundle : Bool
  ord    : Nat := 0
deriving DecidableEq, Repr

/-- A held task (R381): held by R380 for its supervisor, for the debugger, or for both. -/
structure Held where
  cause : Cause
  sup   : Bool
  dbg   : Bool
deriving DecidableEq, Repr

/-- An engine command of the task that no returned wait has yet covered (R172). -/
structure Rec where
  id    : Nat
  q     : Queue
  slot  : Nat
  done  : Bool
  flags : Nat
  count : Nat
  prom  : Option Nat
deriving DecidableEq, Repr

/-- Registers of a task. -/
structure Regs where
  x     : Vector Word 32
  v     : Vector (BitVec 2048) 16
  q     : Vector (Option (BitVec 6)) 16
  loops : List Word
  rng0  : Word
  rng1  : Word
deriving DecidableEq, Repr

/-- STATUS flags and trap registers (R96, R97), coordinates (R99). -/
structure Sys where
  priv   : Nat
  inh    : Bool
  clamp  : Bool
  sat    : Bool
  fe     : Bool
  epc    : Word
  ecause : Word
  eaddr  : Word
  eval   : Word
  tvec   : Word
  estat  : Word
  crd    : Word
  shape  : Word
  part   : Nat
  launch : Nat
  /-- EPC as the last trap entry wrote it: dword 1 of a kind 1 record (R382), which a handler's write of EPC leaves alone. -/
  trapEpc : Word
deriving DecidableEq, Repr

/-- Debugger state and counters of a task (R387, R393, R395, R398). -/
structure Dbg where
  bpa      : Vector Word 4
  step     : Bool
  attach   : Bool
  ctrEvent : Vector (BitVec 8) 8
  ctr      : Vector Word 8
deriving DecidableEq, Repr

/-- What a task has in flight; `behind` are the stores its next load shares bytes with and waits for (R289). -/
structure Flight where
  sq       : List SqEntry
  outs     : List Out
  promises : List Promise
  guards   : List Guard
  recs     : List Rec
  bars     : List BarEntry
  behind   : List Nat := []
deriving DecidableEq, Repr

/-- A task slot. -/
structure Task where
  pc      : Word
  regs    : Regs
  sys     : Sys
  dbg     : Dbg
  fl      : Flight
  run     : Run
  wait    : Option Wait
  held    : Option Held
  pend    : Option Cause
  skipBp  : Bool
  oneStep : Bool
  age     : Nat
  /-- A debugger's halt met the stop: it takes effect at the restore (R385). -/
  halt    : Bool := false
deriving DecidableEq, Repr

/-! ## Engines and streams -/

/-- A key: sixteen 32-bit words, w0 lowest (R162). -/
abbrev Key := BitVec 512

/-- What an engine command does. -/
inductive CmdOp where
  | mma (z : Bool)
  | mzero
  | mout (rm : Rnd) (nanm clr : Bool) (scale : BitVec 32)
  | copy (cv : Bool) (rm : BitVec 3) (nanm : Bool)
  | pack (prune : Nat) (param : Word)
  | unpack
  | gather
  | scatter
  | fill (val : Word)
  | coll (kind : Nat) (opr : FoldOp) (root : Word)
  | form (desc : Nat)
  | reform (desc : Nat)
  | release
  | stream (cls : Nat) (toMem : Bool) (depth plane elem : Nat)
  | fence
deriving DecidableEq, Repr

/-- Bytes a command has read in its present unit (R292), and whether they were poisoned. -/
structure Got where
  bytes  : List Byte
  poison : Bool
deriving DecidableEq, Repr

/-- A write the command has still to make; `nib` as in `Access.ewrite`. -/
structure Put where
  sp     : Space
  ea     : Nat
  bytes  : List Byte
  poison : Bool
  nib    : Nat
deriving DecidableEq, Repr

/-- An engine or stream command, or a fence entry (op `fence`), in its queue (R165, R214, R222). `unit` is the part of
its work it is at, `got` what it has read of it, `puts` what it has still to write, `off` its destination half-bytes so far,
`flying` that an access of it is on its way, `win` the channel sums of an open INT8S window by element (R50), `starts` the tick of its Begin, `after` the COPY an MMA of a bundle waits for; `wrote` are the half-bytes of the fleeting
store it has written, as rising ranges (R181), `cleared` the poison units it writes whole, in parts (R425), `opened` that it has
written an element of the row it is at, `cut` that a link has failed and that row is its last (R190). -/
structure Cmd where
  id     : Nat
  t      : Nat
  op     : CmdOp
  ka     : Key
  kb     : Key
  kc     : Key
  slot   : Nat
  s0     : Word
  s1     : Word
  begun  : Bool
  unit   : Nat
  got    : List Got
  puts   : List Put
  toks   : List Token
  off    : Nat
  aux    : Nat
  flags  : Nat
  count  : Nat
  fin    : Bool
  starts : Nat
  after  : Option Nat
  hda    : Nat
  hdb    : Nat
  wrote  : List (Nat × Nat)
  cleared : List Nat
  vaPart : Nat
  flying : Bool := false
  win    : List (Nat × Nat × Nat) := []
  opened : Bool := false
  cut    : Bool := false
deriving DecidableEq, Repr

/-- A FENCEQ or SBAR entry (R214, R222, R296): the commands that must complete, by queue, the stores that must be
performed and at which scope. -/
structure Fence where
  id     : Nat
  t      : Nat
  queues : List Queue
  cmds   : List (Queue × Nat)
  stores : List Nat
  scope  : Nat
deriving DecidableEq, Repr

/-- The command queues of a glade. -/
structure Queues where
  mq : List Cmd
  cq0 : List Cmd
  cq1 : List Cmd
  cq2 : List Cmd
  cq3 : List Cmd
  xq : List Cmd
  sr : List Cmd
  sw : List Cmd
  ms : List Cmd
deriving DecidableEq, Repr

/-- A buffer-table entry (R153). `slot` is in bytes. -/
structure Buf where
  base   : Nat
  space  : Nat
  slot   : Nat
  count  : Nat
  head   : Nat
  tail   : Nat
  filled : Nat
deriving DecidableEq, Repr

/-- ME.PROG (R178). -/
structure MeProg where
  busy   : Bool
  kgroup : Nat
deriving DecidableEq, Repr

/-- A member's contribution to a round (R194, R195). -/
structure Contrib where
  rank   : Nat
  hdr    : CollHdr
  elems  : List (BitVec 64)
  poison : List Bool
deriving DecidableEq, Repr

/-- The phase of a liveness round (R412), with the ranks heard and the tick of the last probe sent. -/
inductive Reform where
  | idle
  | probe (since : Nat) (heard : List Nat) (sent : Option Nat)
  | report (since : Nat) (heard : List Nat)
  | result (since : Nat)
deriving DecidableEq, Repr

/-- A collective group slot that holds a group, or one being formed (`live` false) (R193). `contribs` are the
contributions received and not yet used, `formed` the ranks known to form it, `clash` a member's TAG that differs,
`reports` the reports of a liveness round. -/
structure Group where
  live    : Bool
  clash   : Bool
  reports : List (Nat × List Nat)
  nranks  : Nat
  myrank  : Nat
  scope   : Nat
  timeout : Nat
  rtab    : Nat
  tag     : Nat
  ranks   : List (BitVec 32)
  stale   : Bool
  contribs : List Contrib
  formed  : List Nat
  reform  : Reform
deriving DecidableEq, Repr

/-! ## The thicket -/

/-- An element of a plane (R231): its configuration fields, and its own state: CARRY (0 INIT, 1 LOOP), LCE
(0 IDLE, 1 RUN, with n and i), the ticket FIFO of ARB. -/
structure Elem where
  kind  : Nat
  ins   : Vector (BitVec 16) 9
  op    : Nat
  klo   : Nat
  khi   : Nat
  cfg   : Nat
  mode  : Nat
  n     : Nat
  i     : Nat
  fifo  : List Nat
  fin   : Bool
deriving DecidableEq, Repr

/-- The arc into one input port: tokens head first, each with the beat it was appended in, and its hold (R60, R74). -/
structure Arc where
  toks : List (Token × Nat)
  hold : Bool
deriving DecidableEq, Repr

/-- Plane states (R252). -/
inductive PState where
  | empty | halted | eligible | error
deriving DecidableEq, Repr

/-- One configuration plane. Arcs are keyed by element × 9 + port; `nums` are the keys of the numbered arcs, as the last
successful validation left them (R238); `beats` counts its firings while it is active (R255). -/
structure Plane where
  elems   : Tab Elem
  arcs    : Tab Arc
  st      : PState
  err     : Nat
  exp     : Bool
  arberr  : Bool
  strmerr : Bool
  kinderr : Bool
  eosmis  : Bool
  done    : Bool
  passed  : Nat
  nums    : List Nat := []
  beats   : Nat := 0
deriving DecidableEq, Repr

/-- A CFGS in progress at the configuration port (R219, R232, R386). -/
structure CfgPort where
  t      : Nat
  sp     : Space
  ea     : Nat
  count  : Nat
  idx    : Nat
  failed : List (Nat × Nat × Nat)
  named  : List (Nat × Nat)
  stop   : Option Nat
deriving DecidableEq, Repr

/-- The inbound buffer of a VC and its hold (R69, R74). -/
structure VcBuf where
  toks : List Token
  hold : Bool
deriving DecidableEq, Repr

/-- Spill state of a binding at its sending glade (R70, R326): the ports that wait (a task slot, or 16 + 256 × plane + element)
with the tick since which each does, whether it spills, HEAD, TAIL and the records held; `dests` gives each record held, oldest
first, the glade and VC that VXDEST named when it was sent (R402), none for the binding's own receiver, and the task slot that sent
it, none for the thicket (R404). -/
structure Spill where
  waits : Tab Nat
  on    : Bool
  head  : Nat
  tail  : Nat
  count : Nat
  dests : List (Option (Nat × Nat) × Option Nat) := []
deriving DecidableEq, Repr

/-- A performance monitor HIST n (R396). -/
structure Hist where
  src   : Nat
  shift : Nat
  bins  : Tab Nat
  min   : Word
  max   : Nat
  count : Nat
deriving DecidableEq, Repr

/-! ## The glade -/

/-- The engine part of a glade's context. -/
structure EngCtx where
  keys   : Tab Key
  bufs   : Tab Buf
  qs     : Queues
  fences : List Fence
  prog   : MeProg
  groups : Tab Group
deriving DecidableEq, Repr

/-- The thicket and VC part of a glade's context. -/
structure NetCtx where
  planes  : Vector Plane 4
  active  : Option Nat
  beats   : Nat
  port    : Option CfgPort
  vcin    : Tab VcBuf
  credits : Tab Nat
  spills  : Tab Spill
  sent    : Nat
  recv    : Nat
  /-- After a restore the first beat is a decision point (R256). -/
  redecide : Bool := false
  /-- The tick of the decision that switched planes, until the plane chosen fires (R396). -/
  switched : Option Nat := none
deriving DecidableEq, Repr

/-- A glade's context (R387). Births are those of fleeting tiles, `expired` ones unlisted. -/
structure GladeCtx where
  tasks    : Tab Task
  lastSlot : Nat
  runLen   : Nat
  runEnd   : Bool
  eng      : EngCtx
  net      : NetCtx
  hists    : Tab Hist
  wps      : Vector Word 4
  births   : Tab Int
deriving DecidableEq, Repr

/-- Which launch a compute glade is placed for. -/
structure Owner where
  part   : Nat
  launch : Nat
  lglade : Nat
deriving DecidableEq, Repr

/-- Power control of a glade (R438–R441). `tripPend` is a droop trip that met a rail change (R442). -/
structure Power where
  low     : Bool
  lowReq  : Bool
  barTo   : Nat
  denied  : Bool
  ceLast  : Nat
  ceCur   : Nat
  changing : Option Bool
  droop   : Nat
  trips   : Nat
  tripPend : Bool := false
deriving DecidableEq, Repr

/-- A cached translation of a management glade (R453): partition (none for P2), virtual page base, size in bits, leaf. -/
structure Tlb where
  part : Option Nat
  va   : Nat
  size : Nat
  leaf : Word
  addr : Nat
deriving DecidableEq, Repr

/-- A unit of a glade's control arrays (R423): a key, a buffer-table entry, a plane's configuration, a queue. -/
inductive CtlUnit where
  | key (k : Nat)
  | buf (n : Nat)
  | plane (p : Nat)
  | queue (q : Queue)
deriving DecidableEq, Repr

/-- What stands at a glade and is not context: its queues, who holds it, its caches; `ctlBad` and `ctlSoft` are the units of its
control arrays with an uncorrectable and with a correctable error (R423, R424). -/
structure Glade where
  ctx    : GladeCtx
  owner  : Option Owner
  halted : Bool
  banks  : Tab (List Req)
  rmq    : List Req
  inbox  : List Req
  returns : Tab Nat
  mons   : Tab (List Monitor)
  pvc    : List (Nat × Word)
  tlb    : List Tlb
  wcache : List (Nat × Nat × Word)
  power  : Power
  ctlBad : List CtlUnit
  ctlSoft : List CtlUnit
deriving DecidableEq, Repr

/-! ## Launches and partitions -/

/-- Launch states (R335). -/
inductive LState where
  | waitdep | ready | leasing | running | preempted | ending | complete
deriving DecidableEq, Repr

/-- A parsed launch record (R330, R331). -/
structure LRec where
  tolerant : Bool
  hasdl    : Bool
  prio     : Nat
  stages   : Nat
  groves   : Nat
  glades   : Nat
  tasks    : Nat
  shape    : Word
  deadline : Nat
  live     : Nat
  keyva    : Nat
  bufva    : Nat
  scrva    : Nat
  scrlen   : Nat
  planes   : List (Nat × Nat)
  deps     : List Nat
  cwva     : Nat
  entries  : List Word
  binds    : List (Word × Word × Word)
  ranges   : List (Nat × Nat × Nat)
deriving DecidableEq, Repr

/-- An extent (R368): `pa` is PABASE, or the page-vector address of an indexed one. -/
structure Extent where
  va      : Nat
  pages   : Nat
  pa      : Nat
  indexed : Bool
  revoked : Bool
  hw      : Bool
  perm    : Nat
  keyid   : Nat
  tier    : Nat
deriving DecidableEq, Repr

/-- The saved image of a glade (R387): its context, the bytes kept by flat offset, the tick of the save. -/
structure Image where
  ctx   : GladeCtx
  cells : List (Nat × Byte)
  acc   : List (Nat × Byte)
  accPoison : List Nat
  tiles : List (Nat × Byte)
  slot  : Nat
deriving DecidableEq, Repr

/-- A launch that is not complete. `walk` is the span and page the lease walk is at, `leaves` the leaves it found
span by span, `walked` that the extents stand (R366, R368); `map` gives each logical glade its physical one, the last one
while the launch is out; `since` is the tick of its last dispatch; `stopping` asks its glades to stop, `rotate` that a restore
follows at once, `yielded` that this tick is a yield point or dispatch at which it may rotate (R342); `backfill` the launch it was let in before (R338);
`wave` the totals of the last completion wave (R350). -/
structure Launch where
  st       : LState
  rec_     : LRec
  eprio    : Nat
  exts     : List Extent
  walk     : Nat × Nat
  leaves   : List (List Word)
  walked   : Bool
  map      : Tab Nat
  faults   : Nat
  cause    : Nat
  endWith  : Nat
  dirty    : List Nat
  since    : Nat
  rotated  : Option Nat
  rotate   : Bool
  yielded  : Bool
  quantumUp : Bool
  backfill : Option Nat
  wave     : Option (Nat × Nat)
  saved    : Tab Image
  stopping : Bool
  /-- The tick, and LGLADE and slot as one number, of the fault that CAUSE names (R347). -/
  first    : Option (Nat × Nat) := none
  /-- Status and cause of a completion whose word waits for the memory at CWVA (R351, R436). -/
  fini     : Option (Nat × Nat) := none
deriving DecidableEq, Repr

/-- Scheduling and translation registers of a partition (R353, R379). -/
structure PartSched where
  quotaDepth  : Nat
  quotaLevel  : Nat
  quotaGlades : Nat
  weight      : Nat
  quantum     : Nat
  next        : Nat
  served      : Tab Nat
  ptroot      : Word
  pvbase      : Word
  pvlen       : Word
  extsel      : Word
  lfault      : Word
  lfva        : Word
  walkerr     : Nat
deriving DecidableEq, Repr

/-- Trap, ring and save-area registers of a partition (R397). -/
structure PartTrap where
  evbase  : Word
  evlen   : Nat
  evhead  : Word
  evtail  : Word
  evbell  : Word
  ctxbase : Word
  ctxlen  : Nat
  ctxkey  : Nat
  ctxlast : Word
  tsel    : Word
deriving DecidableEq, Repr

/-- Tenancy registers of a partition (R414). -/
structure PartTen where
  pgroves : Word
  groves  : Word
  pkeys   : Word
  peersel : Word
  peers   : Tab Word
  gdrops  : Nat
  gdlast  : Word
  /-- By launch and guard: the tick of the last kind 4 record (R404). -/
  gdRec   : Tab Nat
  vxsel   : Word
  vxdest  : Tab Word
  mbring  : Word
  mblen   : Word
  mbtail  : Word
  mbhead  : Word
  mbbell  : Word
  mbresp  : Word
deriving DecidableEq, Repr

/-- A partition. -/
structure Part where
  sched    : PartSched
  trap     : PartTrap
  ten      : PartTen
  launches : Tab Launch
  words    : Tab Word
  slots    : List Nat
  pmeas    : Vector Word 4
  pmlock   : Bool
deriving DecidableEq, Repr

/-! ## The package -/

/-- An event waiting to be written to its ring (R382, R383): the ring (none for the monitor), its tick, its four dwords. -/
structure Event where
  ring : Option Nat
  /-- The tick of the event, and its LGLADE and task slot, which order the records of one tick (R383). -/
  tick : Nat
  /-- The task that waits for it (R383): its partition, LGLADE or management glade, and slot. -/
  own  : Option (Nat × Nat × Nat) := none
  /-- The guard whose drop it records (R404). -/
  guard : Option Nat := none
  d0   : Word
  d1   : Word
  d2   : Word
  d3   : Word
deriving DecidableEq, Repr

/-- A record of the error log (R428). -/
structure LogRec where
  d0 : Word
  d1 : Word
  d2 : Word
  d3 : Word
deriving DecidableEq, Repr

/-- An event of the error log that has no SEQ yet. -/
structure LogEv where
  chan   : Nat
  ty     : Nat
  addr   : Nat
  detail : Nat
  rail   : Bool
deriving DecidableEq, Repr

/-- Memory repair (R329, R431–R437). -/
structure Repair where
  live     : Nat
  phaseAct : Bool
  phase    : Nat
  frontier : Nat
  rstate   : Bool
  rstack   : Nat
  copying  : Option Nat
  peerCap  : Tab Nat
  stksel   : Nat
  sref     : List Nat
  corr     : Tab Nat
deriving DecidableEq, Repr

/-- The error log (R427–R429). -/
structure ELog where
  /-- Events of the present tick in ascending channel order; they take their SEQ at its end (R428). -/
  pend    : List LogEv
  nextseq : Nat
  lost    : Nat
  recs    : List LogRec
  counts  : Tab Nat
  first   : Word
  last    : Word
  ecsel   : Nat
  bell    : Word
deriving DecidableEq, Repr

/-- Power and references (R443–R446). -/
structure PowerCtl where
  railsel : Nat
  cethr   : Nat
  tj      : Vector Nat 4
  tthr    : Nat
  plimit  : Nat
  pwrnow  : Nat
  spare   : Bool
  spareOk : Bool
  failovers : Nat
  thermal : Vector Nat 4
  power   : Nat
  fxtick  : Vector Nat 4
  lostRef : Bool
  /-- The window the glades' counts are of, and that its start has still to be evaluated, at the end of its tick (R439, R440). -/
  win     : Nat := 0
  due     : Bool := false
deriving DecidableEq, Repr

/-- Links (R408–R414). Ports are numbered as LINKSEL numbers them. -/
structure Links where
  up       : List Nat
  /-- Ports that have been live since the tick of their self-test: until then LINKSTAT reads its Reset column (R8). -/
  seen     : List Nat := []
  lanes    : Tab Nat
  errs     : Tab Nat
  linksel  : Word
  scsel    : Word
  scval    : Tab Nat
  pkgid    : Word
  ethcfg   : Word
  ethsel   : Nat
  ethmac   : Vector Word 2
  ethgw    : Vector Word 2
  ethip0   : Vector Word 2
  ethip1   : Vector Word 2
  ethmap   : Word
  ethcache : Tab (Option (BitVec 128))
deriving DecidableEq, Repr

/-- Boot, identity, keys, management starts (R447–R457). -/
structure Boot where
  powered  : Bool
  glades   : Vector Word 4
  mgmt     : Nat
  hbms     : Nat
  ports    : Nat
  villum   : Nat
  refs     : Nat
  readysel : Nat
  code     : Nat
  svn      : Nat
  meas     : Vector Word 4
  bootaddr : Word
  bootlen  : Nat
  /-- BOOTADDR and BOOTLEN as BOOTGO found them (R451). -/
  load     : Word × Nat := (0, 0)
  pmsel    : Nat
  idValid  : Bool
deriving DecidableEq, Repr

/-- Attestation, key and service registers (R455–R457). -/
structure Secure where
  nonce0  : Word
  nonce1  : Word
  attaddr : Word
  attBusy : Option (List Byte)
  attDone : Bool
  attRes  : Nat
  keys    : Tab KeyVal
  fresh   : Nat
  ksel    : Word
  kdata   : Vector Word 8
  kBusy   : Option (Nat × KeyVal)
  kRes    : Nat
  svsel   : Word
  svpc    : Word
  svRes   : Nat
  mptroot : Word
deriving DecidableEq, Repr

/-- Debugger and port (R389, R390, R398). -/
structure DbgCtl where
  auth   : Bool
  sel    : Word
  rsel   : Word
  pdata  : Word
  parg   : Word
  pbusy  : Bool
  pres   : Nat
  pfIrq  : Nat
deriving DecidableEq, Repr

/-- The monitor's ring (R397). -/
structure MonRing where
  base : Word
  len  : Nat
  head : Word
  tail : Word
  bell : Word
deriving DecidableEq, Repr

/-- A VC word on its way (R68): sender glade and VC, receiver glade and VC, token; and for a drop record (R402, R404)
the sender's partition, launch, logical glade and task slot (none for the thicket). `hop` is the hop it stands in, none
at the receiver's door; `redir` that VXDEST sends it (R402). -/
structure Fly where
  src    : Nat
  svc    : Nat
  dst    : Nat
  dvc    : Nat
  tok    : Token
  part   : Nat
  launch : Nat
  lg     : Nat
  slot   : Option Nat
  hop    : Option Hop := none
  redir  : Bool := false
deriving DecidableEq, Repr

/-- A collective message on its way (R22, R405): its sender, where it goes, the hop it stands in. -/
structure CollFly where
  src  : Nat
  home : Home
  hop  : Hop
  msg  : CollMsg
deriving DecidableEq, Repr

/-- What is in flight in the package. -/
structure Net where
  hops    : List HopQ
  bridges : Tab Bridge
  fly     : List Fly
  colls   : List CollFly := []
  events  : List Event
deriving DecidableEq, Repr

/-- Marks on the stores (R423, R465): poisoned units, uncorrectable and correctable errors no access has met yet,
the units' base locations rising. -/
structure Blight where
  poison : List Nat
  latent : List Nat
  soft   : List Nat
  spans  : List KeySpan
deriving DecidableEq, Repr

/-- What the model itself keeps: the glade whose turn it is and the task that issues (the machine's own choice of
which enabled step to take), the agenda of outside events, whether task accesses are left in the queues, the next id,
the counter of free values. None of these is state of the manual (log entry 2). -/
structure Model where
  glade  : Nat
  slot   : Nat
  agenda : List Instr
  defer  : Bool
  nextId : Nat
  nonce  : Nat
  issuing : Nat
  sw     : Bool
deriving DecidableEq, Repr

/-- Everything but the bytes. -/
structure Ctl where
  tick   : Nat
  glades : Tab Glade
  parts  : Tab Part
  net    : Net
  marks  : Blight
  psel   : Nat
  mring  : MonRing
  dbg    : DbgCtl
  repair : Repair
  elog   : ELog
  power  : PowerCtl
  links  : Links
  boot   : Boot
  sec    : Secure
  model  : Model
deriving DecidableEq, Repr

/-- The machine. -/
structure State where
  ctl : Ctl
  mem : Memory
deriving DecidableEq, Repr

/-- A fault would stop the model. It has no constructor: the manual gives an effect to everything the model meets, and a
package whose references are lost idles until the next power-on (R448). -/
inductive Fault where
deriving DecidableEq, Repr

/-- A refusal: the model has no meaning for the instruction. -/
inductive Refusal where
  /-- Kept for an arm of `exec` whose instruction has no meaning; no arm raises it. Safe. -/
  | notModelled (mnemonic : String)
deriving DecidableEq, Repr

/-! ## Reset values -/

/-- A key of zeros (R162). -/
def Key.zero : Key := 0

/-- Registers at a task's start (R344) before its own values are set. -/
def Regs.zero : Regs :=
  { x := Vector.replicate 32 0, v := Vector.replicate 16 0, q := Vector.replicate 16 none
    loops := [], rng0 := 0, rng1 := 0 }

def Sys.zero : Sys :=
  { priv := 0, inh := false, clamp := false, sat := false, fe := false, epc := 0, ecause := 0, eaddr := 0
    eval := 0, tvec := 0, estat := 0, crd := 0, shape := 0, part := 0, launch := 0, trapEpc := 0 }

def Dbg.zero : Dbg :=
  { bpa := Vector.replicate 4 0, step := false, attach := false, ctrEvent := Vector.replicate 8 0
    ctr := Vector.replicate 8 0 }

def Flight.empty : Flight := { sq := [], outs := [], promises := [], guards := [], recs := [], bars := [] }

/-- A slot that holds no task. (DESIGN CHOICE, log entry 5.) -/
def Task.none : Task :=
  { pc := 0, regs := Regs.zero, sys := Sys.zero, dbg := Dbg.zero, fl := Flight.empty, run := .free, wait := Option.none
    held := Option.none, pend := Option.none, skipBp := false, oneStep := false, age := 0 }

def Buf.zero : Buf := { base := 0, space := 0, slot := 0, count := 0, head := 0, tail := 0, filled := 0 }

def Queues.empty : Queues :=
  { mq := [], cq0 := [], cq1 := [], cq2 := [], cq3 := [], xq := [], sr := [], sw := [], ms := [] }

def Elem.empty : Elem :=
  { kind := 0, ins := Vector.replicate 9 0, op := 0, klo := 0, khi := 0, cfg := 0, mode := 0, n := 0, i := 0
    fifo := [], fin := false }

def Arc.empty : Arc := { toks := [], hold := false }

/-- A plane after power-on (R252). -/
def Plane.empty : Plane :=
  { elems := [], arcs := [], st := .empty, err := 0, exp := false, arberr := false, strmerr := false
    kinderr := false, eosmis := false, done := false, passed := 0 }

def VcBuf.empty : VcBuf := { toks := [], hold := false }

def Spill.empty : Spill := { waits := [], on := false, head := 0, tail := 0, count := 0 }

/-- A monitor that samples nothing (R396). (DESIGN CHOICE, log entry 5.) -/
def Hist.empty : Hist := { src := 0, shift := 0, bins := [], min := BitVec.allOnes 64, max := 0, count := 0 }

def EngCtx.empty : EngCtx :=
  { keys := [], bufs := [], qs := Queues.empty, fences := [], prog := { busy := false, kgroup := 0 }, groups := [] }

def NetCtx.empty : NetCtx :=
  { planes := Vector.replicate 4 Plane.empty, active := none, beats := 0, port := none, vcin := [], credits := []
    spills := [], sent := 0, recv := 0 }

/-- A glade's context before any launch: T15 counts as the slot that issued last (R344). -/
def GladeCtx.empty : GladeCtx :=
  { tasks := [], lastSlot := 15, runLen := 0, runEnd := true, eng := EngCtx.empty, net := NetCtx.empty, hists := []
    wps := Vector.replicate 4 0, births := [] }

def Power.reset : Power :=
  { low := false, lowReq := false, barTo := 0, denied := false, ceLast := 0, ceCur := 0, changing := none
    droop := 0, trips := 0 }

/-- A glade after power-on. -/
def Glade.reset : Glade :=
  { ctx := GladeCtx.empty, owner := none, halted := false, banks := [], rmq := [], inbox := [], returns := []
    mons := [], pvc := [], tlb := [], wcache := [], power := Power.reset, ctlBad := [], ctlSoft := [] }

def Bridge.empty : Bridge := { fifo := [], replay := [], held := [] }

def PartSched.reset : PartSched :=
  { quotaDepth := 256, quotaLevel := 11, quotaGlades := 256, weight := 1, quantum := 500000, next := 1, served := []
    ptroot := 0, pvbase := 0, pvlen := 0, extsel := 0, lfault := 0, lfva := 0, walkerr := 0 }

def PartTrap.reset : PartTrap :=
  { evbase := 0, evlen := 0, evhead := 0, evtail := 0, evbell := 0, ctxbase := 0, ctxlen := 0, ctxkey := 0
    ctxlast := 0, tsel := 0 }

def PartTen.reset : PartTen :=
  { pgroves := 0, groves := 0, pkeys := 0, peersel := 0, peers := [], gdrops := 0, gdlast := 0, gdRec := []
    vxsel := 0, vxdest := [], mbring := 0, mblen := 0, mbtail := 0, mbhead := 0, mbbell := 0, mbresp := 0 }

/-- A partition after power-on (R353, R379, R397, R414, R457). -/
def Part.reset : Part :=
  { sched := PartSched.reset, trap := PartTrap.reset, ten := PartTen.reset, launches := [], words := [], slots := []
    pmeas := Vector.replicate 4 0, pmlock := false }

/-- The machine right after power-on self-test with every function ready (R8, R447; log entries 3 and 4): registers
at the Reset column, waiting for BOOTGO, no task anywhere, nothing written to any store. -/
def Ctl.reset : Ctl :=
  { tick := 0, glades := [], parts := []
    net := { hops := [], bridges := [], fly := [], events := [] }
    marks := { poison := [], latent := [], soft := [], spans := [] }
    psel := 0
    mring := { base := 0, len := 0, head := 0, tail := 0, bell := 0 }
    dbg := { auth := false, sel := 0, rsel := 0, pdata := 0, parg := 0, pbusy := false, pres := 0, pfIrq := 0 }
    repair :=
      { live := 0xFFF, phaseAct := false, phase := 0, frontier := 0, rstate := false, rstack := 0, copying := none
        peerCap := [], stksel := 0, sref := [], corr := [] }
    elog := { pend := [], nextseq := 1, lost := 0, recs := [], counts := [], first := 0, last := 0, ecsel := 0, bell := 0 }
    power :=
      { railsel := 0, cethr := 4, tj := Vector.replicate 4 0, tthr := 90, plimit := 3200, pwrnow := 0, spare := false
        spareOk := true, failovers := 0, thermal := Vector.replicate 4 0, power := 0
        fxtick := Vector.replicate 4 0, lostRef := false }
    links :=
      { up := List.range 23, lanes := [], errs := [], linksel := 0, scsel := 0, scval := [], pkgid := 0, ethcfg := 0
        ethsel := 0, ethmac := Vector.replicate 2 0, ethgw := Vector.replicate 2 0, ethip0 := Vector.replicate 2 0
        ethip1 := Vector.replicate 2 0, ethmap := 0, ethcache := [] }
    boot :=
      { powered := true, glades := Vector.replicate 4 (BitVec.allOnes 64), mgmt := 0xF, hbms := 0xFFF
        ports := 0x7FFFF, villum := 0xF, refs := 3, readysel := 0, code := 0, svn := 0
        meas := Vector.replicate 4 0, bootaddr := 0, bootlen := 0, pmsel := 0, idValid := true }
    sec :=
      { nonce0 := 0, nonce1 := 0, attaddr := 0, attBusy := none, attDone := false, attRes := 0, keys := []
        fresh := 4096, ksel := 0, kdata := Vector.replicate 8 0, kBusy := none, kRes := 0, svsel := 0, svpc := 0
        svRes := 0, mptroot := 0 }
    model :=
      { glade := 256, slot := 0, agenda := [], defer := false, nextId := 1, nonce := 0, issuing := 0, sw := false } }

/-- The machine right after reset. -/
def State.reset : State := { ctl := Ctl.reset, mem := [] }

end Sys2Proof.Machine
end

