-- ==== Sys2Proof/Machine/Mem.lean ====
section
/-! DEFINITION. Memory in its canonical form, the flat numbering of locations, and `Work`: the machine with its
writes kept as a log until the step ends. -/
namespace Sys2Proof.Machine

/-! ## Canonical memory -/

/-- The byte at `a`. -/
def memGet : Memory → Nat → Byte
  | [], _ => unlisted
  | (b, v) :: r, a => if b = a then v else memGet r a

/-- Put `v` at `a`; putting what an unlisted location reads as removes the cell. (DESIGN CHOICE, log entry 8.) -/
def memPut : Memory → Nat → Byte → Memory
  | [], a, v => if v = unlisted then [] else [(a, v)]
  | (b, u) :: r, a, v =>
    if b = a then (if v = unlisted then r else (a, v) :: r)
    else if a < b then (if v = unlisted then (b, u) :: r else (a, v) :: (b, u) :: r)
    else (b, u) :: memPut r a v

/-- Make `n` locations from `lo` read as unlisted. -/
def memClear (m : Memory) (lo n : Nat) : Memory := m.filter (fun c => !(decide (lo ≤ c.1) && decide (c.1 < lo + n)))

/-- One logged write. -/
inductive LogItem where
  | byte (a : Nat) (v : Byte)
  | clear (lo n : Nat)
deriving DecidableEq, Repr

/-- The log, newest first, applied to memory. -/
def applyLog : List LogItem → Memory → Memory
  | [], m => m
  | .byte a v :: r, m => memPut (applyLog r m) a v
  | .clear lo n :: r, m => memClear (applyLog r m) lo n

/-- The byte at `a` behind a log. -/
def logGet : List LogItem → Memory → Nat → Byte
  | [], m, a => memGet m a
  | .byte b v :: r, m, a => if b = a then v else logGet r m a
  | .clear lo n :: r, m, a => if lo ≤ a ∧ a < lo + n then unlisted else logGet r m a

/-! ## The flat numbering of locations (log entry 7) -/

/-- Device memory, tier 0: the 52-bit physical address itself, package field included (R323). -/
def devBase : Nat := 0
/-- Tier 1: the host address above 2^52 (R323). -/
def hostBase : Nat := 2 ^ 52
def scrBase : Nat := 2 ^ 54
def fltBase : Nat := 2 ^ 55
def accBase : Nat := 2 ^ 56
def hostAt (a : Nat) : Nat := hostBase + a % 2 ^ 52
def scrAt (g off : Nat) : Nat := scrBase + g * 2 ^ 21 + off
def fltAt (g off : Nat) : Nat := fltBase + g * 2 ^ 22 + off
/-- Word `(row, col)` of tile `t` of glade `g` (R163, R319). -/
def accAt (g t row col : Nat) : Nat := accBase + g * 2 ^ 19 + ((t % 8) * 16384 + row * 128 + col) * 4

/-- The kind of a location. -/
inductive Where where
  | dev | host | scr (g off : Nat) | flt (g off : Nat) | acc (g : Nat)
deriving DecidableEq, Repr

def whereIs (a : Nat) : Where :=
  if a < hostBase then .dev else if a < scrBase then .host
  else if a < fltBase then .scr ((a - scrBase) / 2 ^ 21) ((a - scrBase) % 2 ^ 21)
  else if a < accBase then .flt ((a - fltBase) / 2 ^ 22) ((a - fltBase) % 2 ^ 22)
  else .acc ((a - accBase) / 2 ^ 19)

/-- The base of the poison unit of a location (R423). -/
def unitOf (a : Nat) : Nat := if a < scrBase then a / 64 * 64 else a / 4 * 4
def unitSize (a : Nat) : Nat := if a < scrBase then 64 else 4

/-- The units met by `n` bytes from `a`. -/
def unitsOf (a n : Nat) : List Nat :=
  if n = 0 then [] else
  (List.range ((unitOf (a + n - 1) - unitOf a) / unitSize a + 1)).map (fun i => unitOf a + i * unitSize a)

/-! ## Work -/

/-- The machine inside one step: the memory it started from, everything else, and the writes so far. -/
structure Work where
  base : Memory
  ctl  : Ctl
  log  : List LogItem
deriving DecidableEq, Repr

abbrev Out3 := Host.Outcome State Fault Refusal

def Work.start (s : State) : Work := { base := s.mem, ctl := s.ctl, log := [] }

/-- The state in which work begun in `s` ends. -/
def Work.doneIn (w : Work) (s : State) : State := { ctl := w.ctl, mem := applyLog w.log s.mem }

/-- Every meaning ends here. -/
def commit (s : State) (f : Work → Work) : Out3 := .next ((f (Work.start s)).doneIn s)

def Work.get (w : Work) (a : Nat) : Byte := logGet w.log w.base a
def Work.bytes (w : Work) (a n : Nat) : List Byte := (List.range n).map (fun i => w.get (a + i))
def Work.put (w : Work) (a : Nat) (v : Byte) : Work := { w with log := .byte a v :: w.log }

/-- Bytes laid from `a` upward. -/
def putBytes (w : Work) : Nat → List Byte → Work
  | _, [] => w
  | a, b :: r => putBytes (w.put a b) (a + 1) r

def Work.clear (w : Work) (lo n : Nat) : Work := { w with log := .clear lo n :: w.log }

/-- `n` bytes from `a` as a number (R5). -/
def Work.nat (w : Work) (a n : Nat) : Nat := leNat (w.bytes a n)

/-- The byte a state holds at a flat location. -/
def State.byte (s : State) (a : Nat) : Byte := memGet s.mem a

end Sys2Proof.Machine
end

