-- ==== Sys2Proof/Machine/Ops.lean ====
section
/-! DEFINITION. The shared operations over glades, tasks, registers and stores: what a register read or write does,
how a store meets poison, the error log, bells, event records, barriers, taking a trap and returning from one. -/
namespace Sys2Proof.Machine

/-! ## Numbers as words -/

def w64 (n : Nat) : Word := BitVec.ofNat 64 n
/-- Ticks from tick `t` to now, as 64-bit counts (R1). -/
def sinceTick (c : Ctl) (t : Nat) : Nat := (c.tick + 2 ^ 64 - t % 2 ^ 64) % 2 ^ 64
def b2n (b : Bool) : Nat := if b then 1 else 0
/-- One more, saturating at `2 ^ n - 1`. -/
def satInc (n v : Nat) : Nat := Nat.min (2 ^ n - 1) (v + 1)
def allOnes : Word := BitVec.allOnes 64

/-! ## Glades and tasks -/

def gladeOf (c : Ctl) (g : Nat) : Glade := Tab.getD c.glades g Glade.reset
/-- Whether the admission points of a glade admit (R73, R438): it is not stopped and its rail is not changing. -/
def admits (c : Ctl) (g : Nat) : Bool := !(gladeOf c g).halted && (gladeOf c g).power.changing.isNone
def taskOf (c : Ctl) (g t : Nat) : Task := Tab.getD (gladeOf c g).ctx.tasks t Task.none

def updCtl (w : Work) (f : Ctl → Ctl) : Work := { w with ctl := f w.ctl }
def setGlade (c : Ctl) (g : Nat) (v : Glade) : Ctl := { c with glades := Tab.set c.glades g v }
def updGlade (w : Work) (g : Nat) (f : Glade → Glade) : Work :=
  { w with ctl := setGlade w.ctl g (f (gladeOf w.ctl g)) }
def updCtx (w : Work) (g : Nat) (f : GladeCtx → GladeCtx) : Work := updGlade w g (fun G => { G with ctx := f G.ctx })
def updEng (w : Work) (g : Nat) (f : EngCtx → EngCtx) : Work := updCtx w g (fun x => { x with eng := f x.eng })
def updNet (w : Work) (g : Nat) (f : NetCtx → NetCtx) : Work := updCtx w g (fun x => { x with net := f x.net })
def updTask (w : Work) (g t : Nat) (f : Task → Task) : Work :=
  updCtx w g (fun x => { x with tasks := Tab.set x.tasks t (f (Tab.getD x.tasks t Task.none)) })

/-- The glade and slot whose instruction is being executed. -/
def curG (w : Work) : Nat := w.ctl.model.glade
def curT (w : Work) : Nat := w.ctl.model.slot
def me (w : Work) : Task := taskOf w.ctl (curG w) (curT w)
def updMe (w : Work) (f : Task → Task) : Work := updTask w (curG w) (curT w) f
def updMyRegs (w : Work) (f : Regs → Regs) : Work := updMe w (fun t => { t with regs := f t.regs })
def updMySys (w : Work) (f : Sys → Sys) : Work := updMe w (fun t => { t with sys := f t.sys })
def updMyFl (w : Work) (f : Flight → Flight) : Work := updMe w (fun t => { t with fl := f t.fl })

def updModel (w : Work) (f : Model → Model) : Work := updCtl w (fun c => { c with model := f c.model })
/-- A fresh id. -/
def newId (w : Work) : Nat × Work := (w.ctl.model.nextId, updModel w (fun m => { m with nextId := m.nextId + 1 }))
/-- The counter of free values, advanced. -/
def newNonce (w : Work) : Nat × Work := (w.ctl.model.nonce, updModel w (fun m => { m with nonce := m.nonce + 1 }))

def partOf (c : Ctl) (p : Nat) : Part := Tab.getD c.parts p Part.reset
def updPart (w : Work) (p : Nat) (f : Part → Part) : Work :=
  updCtl w (fun c => { c with parts := Tab.set c.parts p (f (partOf c p)) })
def launchOf (c : Ctl) (p n : Nat) : Option Launch := Tab.find (partOf c p).launches n
def updLaunch (w : Work) (p n : Nat) (f : Launch → Launch) : Work :=
  match launchOf w.ctl p n with
  | none => w
  | some l => updPart w p (fun P => { P with launches := Tab.set P.launches n (f l) })

/-- The die of a compute or management glade (R17, R18). -/
def dieOf (g : Nat) : Nat := if g < 256 then g / 64 else g - 256
/-- The grove of a compute glade, 0 to 31 (R18, R399). -/
def groveOf (g : Nat) : Nat := g / 8
def isMgmt (g : Nat) : Bool := decide (256 ≤ g)
/-- The management glade of a die. -/
def mgmtOf (d : Nat) : Nat := 256 + d

/-! ## The commands and planes of a glade -/

def qGet (q : Queues) : Queue → List Cmd
  | .mq => q.mq
  | .cq0 => q.cq0
  | .cq1 => q.cq1
  | .cq2 => q.cq2
  | .cq3 => q.cq3
  | .xq => q.xq
  | .sr => q.sr
  | .sw => q.sw
  | .ms => q.ms

def qSet (q : Queues) (n : Queue) (l : List Cmd) : Queues :=
  match n with
  | .mq => { q with mq := l }
  | .cq0 => { q with cq0 := l }
  | .cq1 => { q with cq1 := l }
  | .cq2 => { q with cq2 := l }
  | .cq3 => { q with cq3 := l }
  | .xq => { q with xq := l }
  | .sr => { q with sr := l }
  | .sw => { q with sw := l }
  | .ms => { q with ms := l }

def queuesOf (c : Ctl) (g : Nat) : Queues := (gladeOf c g).ctx.eng.qs
def cmdsOf (c : Ctl) (g : Nat) (q : Queue) : List Cmd := qGet (queuesOf c g) q
def updQ (w : Work) (g : Nat) (q : Queue) (f : List Cmd → List Cmd) : Work :=
  updEng w g (fun e => { e with qs := qSet e.qs q (f (qGet e.qs q)) })
def isFence (c : Cmd) : Bool := decide (c.op = .fence)

def updCmd (w : Work) (g : Nat) (q : Queue) (id : Nat) (f : Cmd → Cmd) : Work :=
  updQ w g q (fun l => l.map (fun c => if c.id = id then f c else c))

def netOf (c : Ctl) (g : Nat) : NetCtx := (gladeOf c g).ctx.net
def planeOf (c : Ctl) (g p : Nat) : Plane := ((netOf c g).planes.toList[p]?).getD Plane.empty
def setPlane (w : Work) (g p : Nat) (P : Plane) : Work :=
  updNet w g (fun n => { n with planes := n.planes.setIfInBounds p P })

/-- Sending ports of a glade stop waiting for room (R70). -/
def endWaits (w : Work) (g : Nat) (port : Nat → Bool) : Work :=
  if (netOf w.ctl g).spills.all (fun p => p.2.waits.all (fun x => !port x.1)) then w
  else updNet w g (fun n => { n with spills := n.spills.map (fun p => (p.1, { p.2 with waits := p.2.waits.filter (fun x => !port x.1) })) })

/-! ## Registers (R77, R80, R81, R82) -/

/-- The value a broken promise on `reg` gives (R82). A later write of the register ends an earlier promise on it: a read
within the first one's GAP then gives what the later write left, or within the later one's own GAP what stood before that.
(DESIGN CHOICE, log entry 13.) -/
def stalePick (nonce : Nat) : List Promise → RegNo → Nat → Option RegVal
  | [], _, _ => none
  | p :: r, reg, k =>
    if p.reg = reg then
      (if Config.stale nonce reg k then some ((stalePick nonce r reg (k + 1)).getD p.old) else none)
    else stalePick nonce r reg k

def staleOf (w : Work) (reg : RegNo) : Option RegVal :=
  stalePick w.ctl.model.nonce (me w).fl.promises reg 0

/-- x0 reads as zero (R77). -/
def regX (r : Regs) (i : XReg) : Word := if i = 0 then 0 else r.x[i.toNat]'(by omega)
def regV (r : Regs) (i : VReg) : BitVec 2048 := r.v[i.toNat]'(by omega)
def regQ (r : Regs) (i : QReg) : Option (BitVec 6) := r.q[i.toNat]'(by omega)

/-- Reading x[i] in an instruction. -/
def rx (w : Work) (i : XReg) : Word :=
  if i = 0 then 0 else
  match staleOf w i.toNat with
  | some (.x v) => v
  | _ => regX (me w).regs i

/-- Reading v[i] in an instruction. -/
def rv (w : Work) (i : VReg) : BitVec 2048 :=
  match staleOf w (32 + i.toNat) with
  | some (.v v) => v
  | _ => regV (me w).regs i

/-- Reading handle q[i] in an instruction. -/
def rq (w : Work) (i : QReg) : Option (BitVec 6) :=
  match staleOf w (48 + i.toNat) with
  | some (.q v) => v
  | _ => regQ (me w).regs i

/-- Writes to x0 are discarded (R77). -/
def Regs.putX (r : Regs) (i : XReg) (v : Word) : Regs := if i = 0 then r else { r with x := r.x.set i.toNat v (by omega) }
def Regs.putV (r : Regs) (i : VReg) (v : BitVec 2048) : Regs := { r with v := r.v.set i.toNat v (by omega) }
def Regs.putQ (r : Regs) (i : QReg) (v : Option (BitVec 6)) : Regs := { r with q := r.q.set i.toNat v (by omega) }

/-- The promise an instruction of GAP `gap` leaves on a register it writes (R81). -/
def promise (gap : Nat) (reg : RegNo) (old : RegVal) (t : Task) : Task :=
  if gap = 0 then t else { t with fl := { t.fl with promises := { reg := reg, old := old, left := gap } :: t.fl.promises } }

/-- A later write of a register ends the promise on it (R81). -/
def endPromise (reg : RegNo) (t : Task) : Task :=
  if t.fl.promises = [] then t
  else { t with fl := { t.fl with promises := t.fl.promises.filter (fun p => p.reg != reg) } }

/-- Writing x[i] by an instruction with marks `m`. -/
def wx (w : Work) (m : Marks) (i : XReg) (v : Word) : Work :=
  updMe w (fun t => promise m.gap.toNat i.toNat (.x (regX t.regs i)) (endPromise i.toNat { t with regs := t.regs.putX i v }))
/-- Writing v[i] by an instruction with marks `m`. -/
def wv (w : Work) (m : Marks) (i : VReg) (v : BitVec 2048) : Work :=
  updMe w (fun t => promise m.gap.toNat (32 + i.toNat) (.v (regV t.regs i)) (endPromise (32 + i.toNat) { t with regs := t.regs.putV i v }))
/-- Writing handle q[i] by an instruction with marks `m`. -/
def wq (w : Work) (m : Marks) (i : QReg) (v : Option (BitVec 6)) : Work :=
  updMe w (fun t => promise m.gap.toNat (48 + i.toNat) (.q (regQ t.regs i)) (endPromise (48 + i.toNat) { t with regs := t.regs.putQ i v }))

/-- Writing x register number `d` of any task, when a wait or a load ends. -/
def putX (w : Work) (g t d : Nat) (v : Word) : Work :=
  updTask w g t (fun T => { T with regs := T.regs.putX (BitVec.ofNat 5 d) v })

/-! ## The end of an instruction -/

/-- What the issued instruction came to: 1 committed, 2 trapped, 3 not ready (no effect). -/
def outcome (w : Work) (n : Nat) (m : Marks) : Work :=
  updModel w (fun x => { x with issuing := n, sw := m.sw })

def setPc (w : Work) (pc : Word) : Work := updMe w (fun t => { t with pc := pc })

/-- The instruction has committed and the next one follows it (R105). -/
def next (m : Marks) (w : Work) : Work := outcome (setPc w ((me w).pc + 8)) 1 m
/-- The instruction has committed and control goes to `pc`. -/
def goto (m : Marks) (pc : Word) (w : Work) : Work := outcome (setPc w pc) 1 m
/-- The instruction is not ready and has no effect. -/
def notReady (m : Marks) (w : Work) : Work := outcome w 3 m

def setSat (w : Work) (b : Bool) : Work := if b then updMySys w (fun s => { s with sat := true }) else w
def setClamp (w : Work) (b : Bool) : Work := if b then updMySys w (fun s => { s with clamp := true }) else w
def setFe (w : Work) (g t : Nat) (b : Bool) : Work :=
  if b then updTask w g t (fun T => { T with sys := { T.sys with fe := true } }) else w

/-- Add `n` to every counter of a task that counts `ev` (R395). -/
def bumpList (ev : Nat) (n : Nat) (D : Dbg) : Nat → Dbg
  | 0 => D
  | k + 1 =>
    let D := bumpList ev n D k
    if h : k < 8 then
      if (D.ctrEvent[k]).toNat = ev then { D with ctr := D.ctr.set k (D.ctr[k] + w64 n) } else D
    else D

def bump (w : Work) (g t ev n : Nat) : Work :=
  if (taskOf w.ctl g t).dbg.ctrEvent = Vector.replicate 8 0 then w
  else updTask w g t (fun T => { T with dbg := bumpList ev n T.dbg 8 })

/-! ## Monitors HIST (R396) -/

/-- Saturation of bins and counts. -/
def binMax : Nat := 2 ^ 48 - 1

def Hist.add (h : Hist) (v : Nat) : Hist :=
  let b := Nat.min 15 (v / 2 ^ h.shift)
  { h with bins := Tab.set h.bins b (Nat.min binMax (Tab.getD h.bins b 0 + 1))
           min := if v < h.min.toNat then w64 v else h.min
           max := Nat.max h.max v, count := Nat.min binMax (h.count + 1) }

/-- A sampled event of the glade delivers its value to the monitors armed for its source. -/
def sample (w : Work) (g src v : Nat) : Work :=
  if (gladeOf w.ctl g).ctx.hists = [] ∨ src = 0 then w
  else updCtx w g (fun x => { x with hists := x.hists.map (fun p => if p.2.src = src then (p.1, p.2.add v) else p) })

/-! ## The error log and bells (R427 to R429) -/

def chanOfGlade (g : Nat) : Nat := 12 + dieOf g

/-- One event of the error log, without its bell (R428). -/
def logRec (c : Ctl) (chan ty : Nat) (addr detail : Nat) (rail : Bool) : Ctl :=
  let e := c.elog
  let d0 := w64 (e.nextseq % 2 ^ 32 * 2 ^ 32 + chan * 2 ^ 24 + ty * 256 + b2n rail * 128)
  let r : LogRec := { d0 := d0, d1 := w64 c.tick, d2 := w64 addr, d3 := w64 detail }
  let full := decide (64 ≤ e.recs.length)
  { c with elog :=
      { e with
        nextseq := (e.nextseq + 1) % 2 ^ 32
        lost := if full then Nat.min 255 (e.lost + 1) else e.lost
        recs := if full then e.recs else e.recs ++ [r]
        counts := Tab.set e.counts ty (satInc 48 (Tab.getD e.counts ty 0))
        first := if e.first = 0 then d0 else e.first
        last := d0 } }

/-- An event takes its place among those of its tick: after every one of its channel or a lower one.
(DEDUCED, log entry 36.) -/
def insLog (e : LogEv) : List LogEv → List LogEv
  | [] => [e]
  | x :: r => if x.chan ≤ e.chan then x :: insLog e r else e :: x :: r

/-- An event that waits for its SEQ (R428). -/
def logAdd (c : Ctl) (chan ty addr detail : Nat) (rail : Bool) : Ctl :=
  let e : LogEv := { chan := chan, ty := ty, addr := addr, detail := detail, rail := rail }
  { c with elog := { c.elog with pend := insLog e c.elog.pend } }

/-- One event of the error log: it is numbered when its tick ends (R428). -/
def logEvent (w : Work) (chan ty addr detail : Nat) (rail : Bool) : Work :=
  updCtl w (fun c => logAdd c chan ty addr detail rail)

/-! ## Mappings of device memory (R324, R432, R433) -/

def liveList (m : Nat) : List Nat := (List.range 12).filter (fun k => m.testBit k)
def pkgNo (c : Ctl) : Nat := bits c.links.pkgid.toNat 31 24
/-- The stack of a local address under a set of live stacks (R324). -/
def stackIn (live : Nat) (a : Nat) : Nat :=
  let l := liveList live
  let n := l.length
  if n = 0 then 0 else
  let g := a / 512
  (l[(g + g / n) % n]?).getD 0
def liveCount (c : Ctl) : Nat := (liveList c.repair.live).length
/-- CAPACITY of this package (R329). -/
def capacity (c : Ctl) : Nat := liveCount c * Config.stackBytes
/-- The live set a retirement leads to (R431). -/
def liveAfter (c : Ctl) : Nat := if c.repair.live.testBit c.repair.rstack then c.repair.live - 2 ^ c.repair.rstack else c.repair.live
/-- CAPACITY after the retirement in progress (R434). -/
def newCapacity (c : Ctl) : Nat := (liveList (liveAfter c)).length * Config.stackBytes
/-- Whether a local address is mapped under the new phase (R432). -/
def movedUnit (c : Ctl) (a : Nat) : Bool := c.repair.phaseAct && decide (c.repair.frontier ≤ a / 2 ^ 20)
/-- The stack that holds a local address now. -/
def stackOf (c : Ctl) (a : Nat) : Nat := if movedUnit c a then stackIn (liveAfter c) a else stackIn c.repair.live a

/-! ## Poison, errors met, corrected errors (R423 to R426, R465) -/

/-- What a read found: clean bytes, an error met for the first time, or poison marked earlier. -/
inductive Found where
  | clean | found | met
deriving DecidableEq, Repr

def Found.bad : Found → Bool
  | .clean => false
  | _ => true

/-- DETAIL of MEMUNC by what the read found (R465). -/
def foundDetail : Found → Nat
  | .found => 0
  | _ => 1

def chanOf (c : Ctl) (a : Nat) : Nat :=
  match whereIs a with
  | .dev => stackOf c (a % 2 ^ 44)
  | .host => 34
  | .scr g _ | .flt g _ => chanOfGlade g
  | .acc g => chanOfGlade g

/-- DETAIL of a type 1 record: space code of R305 and bank or stack (R427); a scratchpad bank by its number modulo 256, the field
having eight bits. (DESIGN CHOICE, log entry 84.) -/
def errDetail (c : Ctl) (a : Nat) : Nat :=
  match whereIs a with
  | .dev => stackOf c (a % 2 ^ 44) * 256
  | .host => 0
  | .scr _ off => 1 + off / 4 % 384 % 256 * 256
  | .flt _ off => 3 + off / 4096 % 16 * 256
  | .acc _ => 4

def errAddr (a : Nat) : Nat :=
  match whereIs a with
  | .dev => a
  | .host => a - hostBase
  | .scr _ off | .flt _ off => off
  | .acc _ => a % 2 ^ 19

def gladeAt (a : Nat) : Option Nat :=
  match whereIs a with
  | .scr g _ | .flt g _ => some g
  | .acc g => some g
  | _ => none

/-- An uncorrectable error in the arrays of a glade on LOW (R426, R440): it starts back to HIGH and is barred; and whether it was
on LOW. -/
def lowRail (c : Ctl) (g : Nat) : Ctl × Bool :=
  let G := gladeOf c g
  if G.power.low || G.power.changing = some true then
    (setGlade c g { G with power :=
      { G.power with changing := some false, barTo := (c.tick + Config.railWindow) % 2 ^ 64 } }, G.power.low)
  else (c, false)

/-- The rail rule for an uncorrectable error at a location. -/
def lowRailError (c : Ctl) (a : Nat) : Ctl × Bool :=
  match gladeAt a with
  | none => (c, false)
  | some g => lowRail c g

/-- Mark one unit poison because an access found its error: the type 1 (or 3) record and the rail rule. -/
def markFound (c : Ctl) (u : Nat) : Ctl :=
  let (c, rail) := lowRailError c u
  let c := { c with marks := { c.marks with latent := c.marks.latent.filter (· != u), poison := insNat c.marks.poison u } }
  logAdd c (chanOf c u) 1 (errAddr u) (errDetail c u) rail

/-- A corrected error of a glade's own arrays counts in its CECUR (R439). -/
def countCe (c : Ctl) (g : Nat) : Ctl :=
  let G := gladeOf c g
  setGlade c g { G with power := { G.power with ceCur := satInc 16 G.power.ceCur } }

/-- Count a corrected error: STKSTAT.CORR of its stack, or CECUR of its glade (R428, R439). A fleeting word and an accumulator keep
it: they are not rewritten (R423). -/
def countSoft (c : Ctl) (u : Nat) : Ctl :=
  let keep := match whereIs u with
    | .flt _ _ | .acc _ => true
    | _ => false
  let c := if keep then c else { c with marks := { c.marks with soft := c.marks.soft.filter (· != u) } }
  match gladeAt u with
  | some g => countCe c g
  | none =>
    let k := stackOf c (u % 2 ^ 44)
    { c with repair := { c.repair with corr := Tab.set c.repair.corr k (satInc 48 (Tab.getD c.repair.corr k 0)) } }

/-- The units of one read, in order: an error it finds counts before poison it meets (R465). -/
def scanUnits (c : Ctl) : List Nat → Ctl × Found
  | [] => (c, .clean)
  | u :: r =>
    let c := if c.marks.soft.contains u then countSoft c u else c
    if c.marks.latent.contains u then
      ((scanUnits (markFound c u) r).1, .found)
    else if c.marks.poison.contains u then
      let (c, f) := scanUnits c r
      (c, if f = .found then .found else .met)
    else scanUnits c r

/-- The checks of a read of `n` bytes at `a` (R424, R465). -/
def checkRead (w : Work) (a n : Nat) : Work × Found :=
  if w.ctl.marks.soft = [] ∧ w.ctl.marks.latent = [] ∧ w.ctl.marks.poison = [] then (w, .clean)
  else
    let (c, f) := scanUnits w.ctl (unitsOf a n)
    ({ w with ctl := c }, f)

/-! ## Encrypted blocks (R325, R456) -/

def keyVal (c : Ctl) (k : Nat) : KeyVal := Tab.getD c.sec.keys k (.fresh k)
def keyNat : KeyVal → Nat
  | .fresh n => 3 * n
  | .installed v => 3 * v.toNat + 1
  | .image => 2
def spanKey : List KeySpan → Nat → Option KeyVal
  | [], _ => none
  | s :: r, b => if s.lo ≤ b ∧ b < s.hi then some s.key else spanKey r b
def addSpan (l : List KeySpan) (lo hi : Nat) (k : KeyVal) : List KeySpan :=
  if hi = lo + 1 ∧ spanKey l lo = some k then l else { lo := lo, hi := hi, key := k } :: l

/-- Whether block `b` reads as itself under key ID `k`. -/
def blockOk (c : Ctl) (b k : Nat) : Bool :=
  match spanKey c.marks.spans b with
  | none => true
  | some v => v == keyVal c k

/-- Whether a flat location is tier 0 memory of this package. -/
def ownDev (c : Ctl) (a : Nat) : Bool := decide (a < hostBase) && decide (a / 2 ^ 44 = pkgNo c)

/-- The byte at `a` as key ID `k` decrypts it. (DESIGN CHOICE, log entry 14.) -/
def readKey (w : Work) (k a : Nat) : Byte :=
  if ownDev w.ctl a && !(blockOk w.ctl (a / 64) k) then
    Config.misread (keyNat ((spanKey w.ctl.marks.spans (a / 64)).getD .image)) (keyNat (keyVal w.ctl k)) (a / 64 * 64)
      (w.bytes (a / 64 * 64) 64) (a % 64)
  else w.get a

/-- What an access that the package makes for itself (a walk, a fetch, a record, an image) meets at a device location: a stack in
self-refresh or a unit under copy makes it wait, an address vacated by a retirement is gone (R432 to R436). -/
inductive Meets where
  | clear | wait | gone
deriving DecidableEq, Repr

def devMeets (c : Ctl) (a : Nat) : Meets :=
  if !ownDev c a then .clear
  else
    let la := a % 2 ^ 44
    if c.repair.sref.contains (stackOf c la) then .wait
    else if c.repair.phaseAct && decide (newCapacity c ≤ la) then .gone
    else if c.repair.copying = some (la / 2 ^ 20) then .wait
    else .clear

/-- One access to a vacated address is logged with the launch it is for (R434). -/
def logGone (w : Work) (a launch : Nat) : Work := logEvent w 48 11 a launch false

def readBytes (w : Work) (k a n : Nat) : List Byte := (List.range n).map (fun i => readKey w k (a + i))

/-- Before part of a block stored under another key is written, the rest becomes what the new key reads (R325). -/
def rekeyBlock (w : Work) (k b : Nat) : Work :=
  if blockOk w.ctl b k then w else putBytes w (b * 64) (readBytes w k (b * 64) 64)

def tagBlock (w : Work) (k b : Nat) : Work :=
  updCtl w (fun c => { c with marks := { c.marks with spans := addSpan c.marks.spans b (b + 1) (keyVal c k) } })

/-- Lay bytes of one block under key ID `k`. -/
def writeBlock (w : Work) (k a : Nat) (bs : List Byte) : Work :=
  if ownDev w.ctl a then tagBlock (putBytes (rekeyBlock w k (a / 64)) a bs) k (a / 64) else putBytes w a bs

/-! ## Writes and poison (R425) -/

def clearPoison (w : Work) (u : Nat) : Work :=
  if w.ctl.marks.poison = [] ∧ w.ctl.marks.latent = [] ∧ w.ctl.marks.soft = [] then w else
  updCtl w (fun c => { c with marks :=
    { c.marks with poison := c.marks.poison.filter (· != u), latent := c.marks.latent.filter (· != u)
                   soft := c.marks.soft.filter (· != u) } })

def setPoison (w : Work) (u : Nat) : Work :=
  updCtl w (fun c => { c with marks := { c.marks with poison := insNat c.marks.poison u } })

/-- Write bytes that lie in one poison unit, for launch number `n` (R425). -/
def writeUnit (w : Work) (k n a : Nat) (bs : List Byte) : Work :=
  let u := unitOf a
  if bs.length = unitSize a then writeBlock (clearPoison w u) k a bs
  else
    -- the read part of a device read-modify-write meets errors (R325, R465)
    let w := if a < scrBase then (checkRead w a bs.length).1 else w
    if w.ctl.marks.poison.contains u then updCtl w (fun c => logAdd c (chanOf c u) 5 (errAddr a) n false)
    else writeBlock w k a bs

/-- The parts of a write from `a`, one for each poison unit; `fuel` bounds the units. -/
def unitParts : Nat → Nat → List Byte → List (Nat × List Byte)
  | 0, _, _ => []
  | fuel + 1, a, bs =>
    if bs = [] then [] else
    let room := unitOf a + unitSize a - a
    (a, bs.take room) :: unitParts fuel (a + room) (bs.drop room)

/-- One word of a write that covers its poison unit whole, in order: the unit's mark goes with its last byte (R425). -/
def writePart (w : Work) (k a : Nat) (bs : List Byte) : Work :=
  let w := writeBlock w k a bs
  if a + bs.length = unitOf a + unitSize a then clearPoison w (unitOf a) else w

/-- Write bytes from `a`, unit by unit. -/
def writeBytes (w : Work) (k n a : Nat) (bs : List Byte) : Work :=
  (unitParts (bs.length + 1) a bs).foldl (fun w p => writeUnit w k n p.1 p.2) w

/-- Write bytes, then mark every unit they touch poison (R171). -/
def writePoison (w : Work) (k n a : Nat) (bs : List Byte) : Work :=
  (unitsOf a bs.length).foldl setPoison (writeBytes w k n a bs)

/-! ## Event records (R382) -/

/-- LGLADE and task slot of a record, as one number. -/
def eventWho (e : Event) : Nat := bits e.d0.toNat 31 24 * 16 + bits e.d0.toNat 19 16

/-- A record waits behind those of its ring that happened earlier, or in the same tick at a lower LGLADE and slot (R383).
(DEDUCED, log entry 37.) -/
def insEvent (e : Event) : List Event → List Event
  | [] => [e]
  | x :: r => if x.ring = e.ring ∧ x.tick = e.tick ∧ eventWho e < eventWho x then e :: x :: r else x :: insEvent e r

def eventOf (w : Work) (ring : Option Nat) (own : Option (Nat × Nat × Nat)) (d0 d1 d2 d3 : Word) (guard : Option Nat := none) : Work :=
  let e : Event := { ring := ring, tick := w.ctl.tick, own := own, guard := guard, d0 := d0, d1 := d1, d2 := d2, d3 := d3 }
  updCtl w (fun c => { c with net := { c.net with events := insEvent e c.net.events } })

def event (w : Work) (ring : Option Nat) (d0 d1 d2 d3 : Word) : Work := eventOf w ring none d0 d1 d2 d3

/-- Base, LOG, HEAD, TAIL and bell of a ring: a partition's, or the monitor's. -/
def ringBase (c : Ctl) : Option Nat → Word
  | some p => (partOf c p).trap.evbase
  | none => c.mring.base
def ringLog (c : Ctl) : Option Nat → Nat
  | some p => (partOf c p).trap.evlen
  | none => c.mring.len
def ringHead (c : Ctl) : Option Nat → Word
  | some p => (partOf c p).trap.evhead
  | none => c.mring.head
def ringTail (c : Ctl) : Option Nat → Word
  | some p => (partOf c p).trap.evtail
  | none => c.mring.tail
def ringBellOf (c : Ctl) : Option Nat → Word
  | some p => (partOf c p).trap.evbell
  | none => c.mring.bell
def setTail (w : Work) (r : Option Nat) (v : Word) : Work :=
  match r with
  | some p => updPart w p (fun P => { P with trap := { P.trap with evtail := v } })
  | none => updCtl w (fun c => { c with mring := { c.mring with tail := v } })

/-- A ring with LOG 0 is always full. -/
def ringFull (c : Ctl) (r : Option Nat) : Bool :=
  decide (ringLog c r = 0) ||
    decide (2 ^ ringLog c r ≤ ((ringTail c r).toNat + 2 ^ 32 - (ringHead c r).toNat % 2 ^ 32) % 2 ^ 32)

/-- Dword 0 of a record. -/
def evHead (launch lglade slot cause kind : Nat) : Word :=
  w64 (launch % 2 ^ 32 * 2 ^ 32 + lglade % 256 * 2 ^ 24 + slot % 16 * 2 ^ 16 + cause % 256 * 256 + kind)

def lgladeOf (c : Ctl) (g : Nat) : Nat :=
  match (gladeOf c g).owner with
  | some o => o.lglade
  | none => 0xFF

/-- The ring a task's records go to: its partition's, or the monitor's for P1 and P2 (R380, R453). -/
def ringOf (t : Task) : Option Nat := if t.sys.priv = 0 then some t.sys.part else none

/-- Whose record it is: a task of a launch by its LGLADE, a management task by its glade. -/
def ownOf (c : Ctl) (g t : Nat) : Nat × Nat × Nat := ((taskOf c g t).sys.part, if isMgmt g then g else lgladeOf c g, t)

/-- A record of a task of launch `n` still waits for its ring, and the task with it (R383). -/
def recordWaits (c : Ctl) (n : Nat) (own : Nat × Nat × Nat) : Bool :=
  c.net.events.any (fun e => decide (e.own = some own) && decide (e.d0.toNat / 2 ^ 32 = n))

/-- A record about a task. -/
def taskEvent (w : Work) (g t : Nat) (ring : Option Nat) (kind : Nat) (cause : Nat) (pc ea ev : Word) : Work :=
  let T := taskOf w.ctl g t
  eventOf w ring (some (ownOf w.ctl g t)) (evHead T.sys.launch (lgladeOf w.ctl g) t cause kind) pc ea ev

/-! ## Barriers (R206 to R210) -/

structure BarWord where
  drop    : Bool
  ldrop   : Bool
  phase   : Nat
  arrived : Nat
  parties : Nat
deriving DecidableEq, Repr

def barOf (v : Nat) : BarWord :=
  { drop := v.testBit 31, ldrop := v.testBit 30, phase := bits v 29 26, arrived := bits v 25 13, parties := bits v 12 0 }
def barNat (b : BarWord) : Nat :=
  b2n b.drop * 2 ^ 31 + b2n b.ldrop * 2 ^ 30 + b.phase % 16 * 2 ^ 26 + b.arrived % 8192 * 2 ^ 13 + b.parties % 8192

/-- The word after a drop (R208): a count that a store has left at 0 stays there. (DESIGN CHOICE, log entry 78.) -/
def BarWord.dropped (b : BarWord) (arrived : Bool) : BarWord :=
  { b with parties := b.parties - 1, arrived := if arrived then b.arrived - 1 else b.arrived, drop := true }

/-! ## Launch endings that a trap starts (R347) -/

/-- A fatal trap of a task of partition `p`, launch `n`; `who` is its LGLADE and slot as one number. Of the faults of one tick
the lowest counts as the first (R347). -/
def launchFault (w : Work) (p n who cause : Nat) : Work :=
  match launchOf w.ctl p n with
  | none => w
  | some l =>
    let first := match l.first with
      | none => decide (l.faults = 0) && decide (l.endWith = 0)
      | some (t, v) => decide (t = w.ctl.tick) && decide (who < v)
    let l := { l with faults := Nat.min 0xFFFF (l.faults + 1), cause := if first then cause else l.cause
                      first := if first then some (w.ctl.tick, who) else l.first }
    let l := if l.rec_.tolerant || decide (l.st ≠ .running) then l
             else { l with st := .ending, endWith := 1, stopping := true }
    updPart w p (fun P => { P with launches := Tab.set P.launches n l })

/-- End a RUNNING launch with a status and a cause (R347, R348, R374, R388, R424). -/
def endLaunch (w : Work) (p n status cause : Nat) : Work :=
  updLaunch w p n (fun l =>
    if l.st = .running then { l with st := .ending, endWith := status, cause := cause, stopping := true } else l)

/-! ## Retirement, trap entry and return (R103, R209, R217, R380, R381) -/

/-- A task retires: its handles unbind, and its barriers drop after its earlier stores (R209, R210, R217: `leaving`). -/
def retire (w : Work) (g t : Nat) : Work :=
  updTask (endWaits w g (· == t)) g t (fun T =>
    { T with run := .retired, wait := none, held := none, pend := none, oneStep := false
             regs := { T.regs with q := Vector.replicate 16 none }
             fl := { T.fl with recs := [], promises := [], guards := [] } })

/-- A retired task has still to leave its barriers, or to see its VC words delivered or spilled: its retirement is recorded
after that (R209, R217). -/
def leaving (c : Ctl) (g t : Nat) : Bool :=
  let T := taskOf c g t
  decide (T.run = .retired) && (!T.fl.bars.isEmpty || c.net.fly.any (fun f => decide (f.src = g) && decide (f.slot = some t)))

/-- The fatal causes of R101. -/
def fatal (c : Nat) : Bool := [1, 2, 3, 4, 5, 6, 7, 8, 9, 0xB, 0xC, 0x11, 0x14].contains c
/-- The causes after whose instruction the trap is taken (R101). -/
def causeAfter (c : Nat) : Bool := [0xD, 0xF, 0x10].contains c

/-- Retirement by a fatal trap: record kind 1 and the launch's rule. (DEDUCED, log entry 31.) -/
def retireFatal (w : Work) (g t : Nat) (c : Cause) (kind : Nat) : Work :=
  let T := taskOf w.ctl g t
  let w := taskEvent w g t (if kind = 6 then none else ringOf T) kind c.code (if kind = 6 then 0 else c.epc) c.eaddr c.eval
  let w := retire w g t
  if T.sys.priv = 0 then launchFault w T.sys.part T.sys.launch (lgladeOf w.ctl g * 16 + t) c.code else w

/-- The cause of a halt: none, with the resume PC (R391). -/
def plainCause (pc : Word) : Cause := { code := 0, epc := pc, eaddr := 0, eval := 0, detail := 0, bundle := false }

/-- A recoverable cause leaves the task held, with its record (R380, R381); a debugger's step is over with it (R391). -/
def hold (w : Work) (g t : Nat) (c : Cause) (dbg : Bool) : Work :=
  let T := taskOf w.ctl g t
  let w := if dbg then taskEvent w g t none 7 c.code c.epc c.eaddr c.eval
           else taskEvent w g t (ringOf T) 2 c.code c.epc c.eaddr c.eval
  updTask (endWaits w g (· == t)) g t (fun T => { T with held := some { cause := c, sup := !dbg, dbg := dbg }, pend := none, oneStep := false, pc := c.epc, fl := { T.fl with promises := [] } })

def estatOf (s : Sys) (c : Cause) : Word :=
  w64 (c.detail * 2 ^ 18 + b2n c.bundle * 2 ^ 17 + b2n (fatal c.code) * 2 ^ 16 +
    (s.priv * 256 + b2n s.inh * 128 + b2n s.clamp * 4 + b2n s.sat * 2 + b2n s.fe))

/-- Trap entry (R103) for a cause delivered by R380. `c.epc` is what EPC takes. MEMRANGE goes to the monitor's ring whatever INH
is, as R101 and R380 have it, where R103 tests INH before it. (DESIGN CHOICE, log entry 85.) -/
def enterTrap (w : Work) (g t : Nat) (c : Cause) : Work :=
  let T := taskOf w.ctl g t
  let w := bump w g t 9 1
  if c.code = 0x11 then retireFatal w g t c 6
  else if T.dbg.attach && [0xE, 0xF, 0x10].contains c.code then hold w g t c true
  else if T.sys.tvec = 0 || T.sys.inh then
    (if fatal c.code then retireFatal w g t c 1 else hold w g t c false)
  else updTask (endWaits w g (· == t)) g t (fun T =>
    { T with pc := T.sys.tvec, pend := none, fl := { T.fl with promises := [] }
             sys := { T.sys with epc := c.epc, trapEpc := c.epc, ecause := w64 c.code, eaddr := c.eaddr, eval := c.eval
                                 estat := estatOf T.sys c, inh := true } })

/-- A task falls asleep: no promise reaches across a sleep (R85). -/
def fallAsleep (T : Task) (s : Sleep) : Task := { T with run := .sleeping s, fl := { T.fl with promises := [] } }

/-- Whether an earlier read of the task has still to write its result (R85). -/
def resultsPending (T : Task) : Bool := T.fl.outs.any (fun o => !o.store)

/-- Raise a cause at a task: taken at once when every earlier result is written and nobody holds the task, else kept for
TRAP_ENTRY (R103, R381). -/
def raiseAt (w : Work) (g t : Nat) (c : Cause) : Work :=
  if resultsPending (taskOf w.ctl g t) || (taskOf w.ctl g t).held.isSome then updTask w g t (fun T => { T with pend := some c }) else enterTrap w g t c

/-- Raise a cause for the instruction being executed. -/
def trapC (w : Work) (m : Marks) (c : Cause) : Work := outcome (raiseAt w (curG w) (curT w) c) 2 m

/-- A cause of the instruction itself (EPC "own"). -/
def trapOwn (w : Work) (m : Marks) (code : Nat) (eaddr eval : Word) (detail : Nat) : Work :=
  trapC w m { code := code, epc := (me w).pc, eaddr := eaddr, eval := eval, detail := detail, bundle := false, ord := w.ctl.model.nextId }

/-- A cause taken after the instruction has committed: EPC is the next address. The marker 4 says it committed. -/
def trapAfter (w : Work) (m : Marks) (code : Nat) (eaddr eval : Word) : Work :=
  let pc := (me w).pc + 8
  let w := setPc w pc
  outcome (raiseAt w (curG w) (curT w) { code := code, epc := pc, eaddr := eaddr, eval := eval, detail := 0, bundle := false }) 4 m

/-- RTE in a handler (R103, R224): FATAL retires the task and reports the original cause, otherwise INH clears and
control resumes at EPC; the next instruction skips address breakpoints (R102). -/
def returnFromTrap (w : Work) (m : Marks) : Work :=
  let T := me w
  if T.sys.estat.getLsbD 16 then
    outcome (retireFatal w (curG w) (curT w)
      { code := T.sys.ecause.toNat, epc := T.sys.trapEpc, eaddr := T.sys.eaddr, eval := T.sys.eval, detail := 0, bundle := false } 1) 1 m
  else outcome (updMe w (fun t => { t with pc := t.sys.epc, skipBp := true, fl := { t.fl with promises := [] }, sys := { t.sys with inh := false } })) 1 m

/-! ## Monitors, watchpoints, writes to a scratchpad (R204, R307, R394) -/

def bankOf (off : Nat) : Nat := off / 4 % 384

def overlaps (a n b k : Nat) : Bool := decide (a < b + k) && decide (b < a + n)

/-- MEMUNC of access `id`, whose instruction has issued (R462, R465): it goes before any cause of a later one, a MEMUNC of a
later access included. -/
def memunc (w : Work) (g t id : Nat) (pc : Word) (b : Bad) : Work :=
  let T := taskOf w.ctl g t
  let w := if b.detail < 2 then logEvent w (chanOf w.ctl b.addr) 2 (errAddr b.addr) T.sys.launch false else w
  let first := match T.pend with
    | some p => decide (p.code = 0xB) && decide (p.ord < id)
    | none => false
  if first then w
  else
    raiseAt (updTask w g t (fun T => { T with pend := none, run := .runnable })) g t
      { code := 0xB, epc := pc, eaddr := w64 b.va, eval := 0, detail := b.detail, bundle := false, ord := id }

/-- End a WAITMON sleep: read the bytes, disarm, write x[D] (R204), or raise MEMUNC at the WAITMON where the read meets an error
or poison (R423, R424). -/
def wakeMonitor (w : Work) (g t : Nat) : Work :=
  match (taskOf w.ctl g t).run with
  | .sleeping (.waitmon a n _ d va) =>
    let (w, f) := checkRead w a n
    if f.bad then
      memunc (updTask w g t (fun T => { T with run := .runnable })) g t 0 ((taskOf w.ctl g t).pc - 8)
        { lane := 0, va := va, addr := a, detail := foundDetail f }
    else putX (updTask w g t (fun T => { T with run := .runnable })) g t d (w64 (w.nat a n))
  | _ => w

/-- Remove the monitors of a task from every bank of the glade that holds them. -/
def disarm (w : Work) (hg g t : Nat) : Work :=
  updGlade w hg (fun G => { G with mons := G.mons.map (fun p => (p.1, p.2.filter (fun m => !(m.g == g && m.t == t)))) })

/-- Apply `f` to every task of the package. -/
def mapTasks (c : Ctl) (f : Nat → Nat → Task → Task) : Ctl :=
  { c with glades := c.glades.map (fun p => (p.1, { p.2 with ctx :=
      { p.2.ctx with tasks := p.2.ctx.tasks.map (fun q => (q.1, f p.1 q.1 q.2)) } })) }

/-- Whether a task sleeps on a barrier word that overlaps the bytes. -/
def barSleeper (T : Task) (a n : Nat) : Bool :=
  match T.run with
  | .sleeping (.bar b _ _) => overlaps b 4 a n
  | _ => false

/-- A task asleep on a barrier word whose phase has changed goes on with the word that the change left (R208). -/
def wakeBar (w : Work) (T : Task) : Task :=
  match T.run with
  | .sleeping (.bar b ph d) =>
    let v := w.nat b 4
    if bits v 29 26 = ph then T else { T with run := .runnable, regs := T.regs.putX (BitVec.ofNat 5 d) (w64 v) }
  | _ => T

/-- Every monitor that watches one of the written bytes wakes (R204), and every task asleep on a barrier whose phase the write
has changed (R208). -/
def wakeWritten (w : Work) (hg a n : Nat) : Work :=
  let hit := ((gladeOf w.ctl hg).mons.map (·.2)).flatten.filter (fun m => overlaps m.addr m.n a n)
  let w := hit.foldl (fun w m => disarm (wakeMonitor w m.g m.t) hg m.g m.t) w
  if w.ctl.glades.any (fun p => p.2.ctx.tasks.any (fun q => barSleeper q.2 a n)) then
    updCtl w (fun c => mapTasks c (fun _ _ T => if barSleeper T a n then wakeBar w T else T))
  else w

/-- The lowest enabled watchpoint matching a byte offset. -/
def watchAt (G : Glade) (off : Nat) : Option Nat :=
  (List.range 4).find? (fun i =>
    let r := ((G.ctx.wps.toList)[i]?).getD 0
    r.getLsbD 63 && decide (bits r.toNat 20 0 ≤ off) && decide (off ≤ bits r.toNat 52 32))

/-- The lowest watched byte of those written, and the lowest watchpoint that matches any of them (R394). -/
def watchHit (G : Glade) (offs : List Nat) : Option (Nat × Nat) :=
  match offs.filterMap (fun o => (watchAt G o).map (fun k => (o, k))) with
  | [] => none
  | h :: r => some (h.1, r.foldl (fun m x => Nat.min m x.2) h.2)

/-- What follows bytes written to glade `g`'s scratchpad from offset `off` on: the monitors that watch them wake; and the
watchpoint they met. -/
def bankSeen (w : Work) (g off n : Nat) : Work × Option (Nat × Nat) :=
  (wakeWritten w g (scrAt g off) n, watchHit (gladeOf w.ctl g) ((List.range n).map (off + ·)))

/-- Two hits of one write, the lower bytes' first. -/
def joinHits : Option (Nat × Nat) → Option (Nat × Nat) → Option (Nat × Nat)
  | some a, some b => some (a.1, Nat.min a.2 b.2)
  | some a, none => some a
  | none, b => b

/-- A bank's write of `bs` at offset `off` of glade `g`: the poison rule, monitors, and the watchpoint it met. A part that meets
poison is discarded and has no effect beyond its log event (R425). -/
def bankWrite (w : Work) (g off n : Nat) (bs : List Byte) : Work × Option (Nat × Nat) :=
  let ps := unitParts (bs.length + 1) (scrAt g off) bs
  let stored := ps.filter (fun p => decide (p.2.length = unitSize p.1) || !w.ctl.marks.poison.contains (unitOf p.1))
  stored.foldl (fun (a : Work × Option (Nat × Nat)) p =>
    let (w, h) := bankSeen a.1 g (p.1 - scrAt g 0) p.2.length
    (w, joinHits a.2 h)) (writeBytes w 0 n (scrAt g off) bs, none)

/-- A watched write of an agent that is no task of the glade (R394). -/
def watchRecord (w : Work) (g : Nat) (hit : Option (Nat × Nat)) : Work :=
  match hit with
  | none => w
  | some (off, k) =>
    let launch := match (gladeOf w.ctl g).owner with
      | some o => o.launch
      | none => 0
    event w none (evHead launch 0xFF 0 0 8) 0 (w64 off) (w64 k)

/-- Store a 32-bit word to a bell of a management glade (R382, R407, R429). -/
def ringBell (w : Work) (bell : Word) (v : Nat) : Work :=
  let off := bits bell.toNat 20 2 * 4
  if bell.getLsbD 63 && decide (off < Config.scrSize) then
    let g := mgmtOf (bits bell.toNat 33 32)
    let (w, hit) := bankWrite w g off 0 (natLe 4 v)
    watchRecord w g hit
  else w

/-- One event takes its SEQ and its record, and rings the bell (R428, R429). -/
def logNow (w : Work) (e : LogEv) : Work :=
  let w := updCtl w (fun c => logRec c e.chan e.ty e.addr e.detail e.rail)
  ringBell w w.ctl.elog.bell (w.ctl.elog.nextseq + 2 ^ 32 - 1)

/-- The events of the tick that ends, in channel order. -/
def logFlush (w : Work) : Work :=
  w.ctl.elog.pend.foldl logNow (updCtl w (fun c => { c with elog := { c.elog with pend := [] } }))

/-! ## Errors in a glade's control arrays (R423, R424, R426, R439) -/

/-- A glade uses words of its keyring, buffer table, plane configuration or queues: a corrected error counts, and stays, the word
not being rewritten (R423); one that cannot be corrected is handled by the rail rule, logged, and ends the launch that owns the
glade with status 1 and CAUSE 0x0B (R424, R426, R427). The answer says that it has. (DESIGN CHOICE, log entry 88.) -/
def useCtl (w : Work) (g : Nat) (us : List CtlUnit) : Work × Bool :=
  let G := gladeOf w.ctl g
  if G.ctlBad = [] ∧ G.ctlSoft = [] then (w, false)
  else
    let w := (us.filter G.ctlSoft.contains).foldl (fun w _ => updCtl w (fun c => countCe c g)) w
    if !us.any G.ctlBad.contains then (w, false)
    else
      let w := updGlade w g (fun G => { G with ctlBad := G.ctlBad.filter (fun u => !us.contains u) })
      let (c, rail) := lowRail w.ctl g
      let w := logEvent { w with ctl := c } (chanOfGlade g) 1 0 0xF rail
      match (gladeOf w.ctl g).owner with
      | some o => (endLaunch w o.part o.launch 1 0x0B, true)
      | none => (w, false)

/-- A glade writes such words whole: an error in them is gone. -/
def renewCtl (w : Work) (g : Nat) (us : List CtlUnit) : Work :=
  if (gladeOf w.ctl g).ctlBad = [] ∧ (gladeOf w.ctl g).ctlSoft = [] then w
  else updGlade w g (fun G => { G with ctlBad := G.ctlBad.filter (fun u => !us.contains u), ctlSoft := G.ctlSoft.filter (fun u => !us.contains u) })

/-! ## Common traps -/

/-- PRIV (R91, R94). EVAL is the instruction word, which the step supplies. -/
def trapPriv (w : Work) (m : Marks) (word : Word) (detail : Nat) : Work := trapOwn w m 2 0 word detail
def trapMisalign (w : Work) (m : Marks) (ea : Word) (n detail : Nat) : Work := trapOwn w m 3 ea (w64 n) detail
def trapQcfg (w : Work) (m : Marks) (h : QReg) (detail : Nat) : Work := trapOwn w m 8 0 (w64 h.toNat) detail
def trapQcfgNone (w : Work) (m : Marks) : Work := trapOwn w m 8 0 allOnes 4

end Sys2Proof.Machine
end

