-- ==== Sys2Proof/Machine/Flags.lean ====
section
/-! DEFINITION. The flags: STATUS as a word (R96), the sticky SAT and CLAMP, and the saturating results that set them. -/
namespace Sys2Proof.Machine

/-- STATUS (R96). -/
def statusOf (s : Sys) : Word :=
  w64 (s.priv * 256 + b2n s.inh * 128 + b2n s.clamp * 4 + b2n s.sat * 2 + b2n s.fe)

/-- A write of STATUS: CLAMP and SAT are W1C, FE is RW, the rest RO (R6, R96). -/
def writeStatus (s : Sys) (v : Word) : Sys :=
  { s with clamp := s.clamp && !v.getLsbD 2, sat := s.sat && !v.getLsbD 1, fe := v.getLsbD 0 }

/-- Clamp an exact integer: value, whether it was clamped. -/
def clampInt (lo hi v : Int) : Int × Bool := if v < lo then (lo, true) else if hi < v then (hi, true) else (v, false)

/-- The clamp of the signed saturating lanes, which never write the most negative code (R142). -/
def clampSym (w : Nat) (v : Int) : Int × Bool := clampInt (-((2 ^ (w - 1) : Nat) - 1)) ((2 ^ (w - 1) : Nat) - 1) v
/-- The clamp of the unsigned saturating lanes. -/
def clampU (w : Nat) (v : Int) : Int × Bool := clampInt 0 ((2 ^ w : Nat) - 1) v

/-- The flags a vector instruction adds (R49). -/
structure Sticky where
  sat   : Bool
  clamp : Bool
deriving DecidableEq, Repr

def Sticky.none : Sticky := { sat := false, clamp := false }
def Sticky.or (a b : Sticky) : Sticky := { sat := a.sat || b.sat, clamp := a.clamp || b.clamp }

/-- Set what an instruction adds, leave the rest. -/
def setSticky (w : Work) (f : Sticky) : Work := setClamp (setSat w f.sat) f.clamp

end Sys2Proof.Machine
end

