-- ==== Sys2Proof/Machine/Xlat.lean ====
section
/-! DEFINITION. Page tables, walks, extents and the check of a device address (R322, R364 to R372, R453). -/
namespace Sys2Proof.Machine

/-! ## Entries (R365) -/

def pteV (e : Nat) : Bool := e.testBit 0
def pteL (e : Nat) : Bool := e.testBit 1
def pteW (e : Nat) : Bool := e.testBit 2
def pteX (e : Nat) : Bool := e.testBit 3
def pteTier (e : Nat) : Nat := bits e 7 6
def pteAddr (e : Nat) : Nat := bits e 51 16 * 65536
def pteKey (e : Nat) : Nat := bits e 63 52

/-- A pointer: V, L = 0 and ADDR only. -/
def isPointer (e : Nat) : Bool := pteV e && decide (bits e 63 52 = 0) && decide (bits e 15 1 = 0)
/-- A well-formed leaf at level 2 (`big`) or level 3. -/
def isLeaf (big : Bool) (e : Nat) : Bool :=
  pteV e && (pteL e == big) && decide (bits e 15 8 = 0) && decide (pteTier e < 2) &&
    (!big || decide (bits e 27 16 = 0))

/-- A leaf found by a walk: the address of its entry, the entry, its page size in bits. -/
structure Leaf where
  at_  : Nat
  e    : Nat
  size : Nat
deriving DecidableEq, Repr

/-- A table entry, read as the device reads its own structures, under key ID 0 (R364). -/
def pte (w : Work) (a : Nat) : Nat := leNat (readBytes w 0 a 8)

/-- What a failed check raises: LEASE with its DETAIL, MEMRANGE with the physical address (R101, R124), or MEMUNC with the location
of the entry in which the translation met an error, poison or a vacated address, and its DETAIL (R114, R434, R465); `wait` that
the entry's stack is in self-refresh or its unit under copy (R432, R436). -/
inductive XErr where
  | lease (detail : Nat)
  | memrange (pa : Nat)
  | memunc (loc detail : Nat)
  | wait
deriving DecidableEq, Repr

/-- The number the walk caches give the scheduler's own cache. (DESIGN CHOICE, log entry 34.) -/
def schedCache : Nat := 1000
/-- The tree a walk cache entry belongs to: a partition, or 32 for the monitor's. (DESIGN CHOICE, log entry 34.) -/
def monTree : Nat := 32

/-- Keep a level 1 or level 2 entry in the walk cache of glade `hg` (R372). -/
def cachePte (w : Work) (hg tree tag e : Nat) : Work :=
  updGlade w hg (fun G =>
    if G.wcache.any (fun c => c.1 == tree && c.2.1 == tag) then G
    else { G with wcache := (tree, tag, w64 e) :: G.wcache })

/-- A table entry from memory: its read meets errors, waits and vacated addresses as any (R434, R436, R465). -/
def pteRead (w : Work) (a : Nat) : Except XErr Nat × Work :=
  match devMeets w.ctl a with
  | .wait => (.error .wait, w)
  | .gone => (.error (.memunc a 3), w)
  | .clear =>
    let (w, f) := checkRead w a 8
    (if f.bad then .error (.memunc a (foundDetail f)) else .ok (pte w a), w)

/-- A level 1 or level 2 entry, through the walk cache of glade `hg` where the walk has one (R372). A 256 MiB leaf is kept like a
pointer, so that a GET without INVPG may still meet it after a split: of the two that R377 allows the walk takes the cached one.
(DESIGN CHOICE, log entry 86.) -/
def entryAt (w : Work) (hg : Option Nat) (tree tag a : Nat) : Except XErr Nat × Work :=
  match hg with
  | none => pteRead w a
  | some g =>
    match (gladeOf w.ctl g).wcache.find? (fun c => c.1 == tree && c.2.1 == tag) with
    | some c => (.ok c.2.2.toNat, w)
    | none =>
      match pteRead w a with
      | (.ok e, w) => (.ok e, if isPointer e || (decide (2 ^ 40 ≤ tag) && isLeaf true e) then cachePte w g tree tag e else w)
      | r => r

/-- The walk of R364 for `va` from `root`. -/
def walk (w : Work) (hg : Option Nat) (tree root va : Nat) : Except XErr Leaf × Work :=
  let t1 := bits va 51 40
  match entryAt w hg tree t1 (root + 8 * t1) with
  | (.error x, w) => (.error x, w)
  | (.ok e1, w) =>
    if !isPointer e1 then (.error (.lease 0), w) else
    let a2 := pteAddr e1 + 8 * bits va 39 28
    match entryAt w hg tree (2 ^ 40 + bits va 51 28) a2 with
    | (.error x, w) => (.error x, w)
    | (.ok e2, w) =>
      if isLeaf true e2 then (.ok { at_ := a2, e := e2, size := 28 }, w)
      else if !isPointer e2 then (.error (.lease 0), w)
      else
        let a3 := pteAddr e2 + 8 * bits va 27 16
        match pteRead w a3 with
        | (.error x, w) => (.error x, w)
        | (.ok e3, w) => (if isLeaf false e3 then .ok { at_ := a3, e := e3, size := 16 } else .error (.lease 0), w)

def ptRoot (c : Ctl) (p : Nat) : Nat := (partOf c p).sched.ptroot.toNat
def mptRoot (c : Ctl) : Nat := c.sec.mptroot.toNat

/-- The physical address a leaf gives (R365). -/
def leafPa (l : Leaf) (va : Nat) : Nat := pteAddr l.e + va % 2 ^ l.size

/-- A flat location from a physical address and a tier (R323). -/
def flatOf (tier pa : Nat) : Nat := if tier = 0 then pa % 2 ^ 52 else hostAt pa

/-- The walk cache entries of one path are dropped (R371). -/
def dropPath (w : Work) (hg tree va : Nat) : Work :=
  updGlade w hg (fun G => { G with wcache := G.wcache.filter (fun x =>
    !(x.1 == tree && (x.2.1 == bits va 51 40 || x.2.1 == 2 ^ 40 + bits va 51 28))) })

/-- What came of a walker's swap: the bit stands in a leaf of that size in bits, the walk has no leaf, or it has to wait. -/
inductive Swap where
  | done (size : Nat)
  | noLeaf
  | wait
deriving DecidableEq, Repr

/-- A walker sets A or D (bit 4 or 5) in the leaf of `va` by one swap, restarting past its cache where the swap fails (R371). A
walk without a leaf counts in WALKERR of partition `p`. -/
def walkerSet (w : Work) (hg tree root : Nat) (p : Option Nat) (va bit : Nat) : Nat → Swap × Work
  | 0 => (.noLeaf, w)
  | n + 1 =>
    match walk w (some hg) tree root va with
    | (.error .wait, w) => (.wait, w)
    | (.error _, w) =>
      (.noLeaf, match p with
        | some p => updPart w p (fun P => { P with sched := { P.sched with walkerr := satInc 32 P.sched.walkerr } })
        | none => w)
    | (.ok l, w) =>
      if l.e.testBit bit then (.done l.size, w)
      else if pte w l.at_ = l.e then (.done l.size, writeBytes w 0 0 l.at_ (natLe 8 (l.e + 2 ^ bit)))
      else walkerSet (dropPath w hg tree va) hg tree root p va bit n

/-- The walker of glade `hg` for partition `p`. -/
def setLeafBit (w : Work) (hg p va bit : Nat) : Work := (walkerSet w hg p (ptRoot w.ctl p) (some p) va bit 2).2

/-! ## The capacity a glade holds for a package (R323, R434) -/

/-- Bytes of a package as this one knows them; all 12 stacks before a message. (DEDUCED, log entry 50.) -/
def capacityOf (c : Ctl) (pkg : Nat) : Nat :=
  if pkg = pkgNo c then capacity c else Tab.getD c.repair.peerCap pkg (12 * Config.stackBytes)

/-- MEMRANGE (R124): a tier 0 address at or above its package's capacity. -/
def outOfRange (c : Ctl) (tier pa : Nat) : Bool :=
  decide (tier = 0) && decide (capacityOf c (bits pa 51 44) ≤ pa % 2 ^ 44)

/-! ## The check of one device address -/

inductive Need where
  | read | write | both | exec
deriving DecidableEq, Repr

/-- A checked address: its flat location, key ID, extent, whether by the service lane. -/
structure Xlate where
  addr : Nat
  key  : Nat
  ext  : Option Nat
  svc  : Bool
deriving DecidableEq, Repr

/-- PERM of a range: bit 0 read, 1 write, 2 execute (R331, R369). (DEDUCED, log entry 56.) -/
def permOk (perm : Nat) : Need → Bool
  | .read => perm.testBit 0
  | .write => perm.testBit 1
  | .both => perm.testBit 0 && perm.testBit 1
  | .exec => perm.testBit 2

/-- The extent that covers `ea`, not marked HW (R369). -/
def findExtent (l : Launch) (hw : Bool) (ea : Nat) : Option (Nat × Extent) :=
  ((List.range l.exts.length).zip l.exts).find?
    (fun p => (p.2.hw == hw) && decide (p.2.va ≤ ea) && decide (ea < p.2.va + p.2.pages * 65536))

/-- A page-vector entry, through the page-vector cache of glade `g` (R369). -/
def vectorEntry (w : Work) (g a : Nat) : Nat :=
  match (gladeOf w.ctl g).pvc.find? (fun c => c.1 == a) with
  | some c => c.2.toNat
  | none => pte w a

/-- The physical address, key ID and tier an extent gives `ea`. -/
def extentPa (w : Work) (g : Nat) (e : Extent) (ea : Nat) : Nat × Nat × Nat :=
  if e.indexed then
    let v := vectorEntry w g (e.pa + 8 * ((ea - e.va) / 65536))
    (pteAddr v + ea % 65536, pteKey v, pteTier v)
  else (e.pa + (ea - e.va), e.keyid, e.tier)

/-- The page-vector entry that `ea` needs is uncorrectable or poison, vacated, or has to wait, where the glade has to read it
(R114, R424, R434, R436). -/
def vectorBad (w : Work) (g : Nat) (e : Extent) (ea : Nat) : Option XErr :=
  let a := e.pa + 8 * ((ea - e.va) / 65536)
  if !e.indexed || (gladeOf w.ctl g).pvc.any (fun c => c.1 == a) then none
  else if devMeets w.ctl a = .wait then some .wait
  else if devMeets w.ctl a = .gone then some (.memunc a 3)
  else if w.ctl.marks.latent.contains (unitOf a) then some (.memunc a 0)
  else if w.ctl.marks.poison.contains (unitOf a) then some (.memunc a 1)
  else none

/-- The address check of a launch's access (R124, R369). -/
def checkLaunch (w : Work) (g : Nat) (l : Launch) (ea : Nat) (need : Need) : Except XErr Xlate :=
  if 2 ^ 52 ≤ ea then .error (.lease 2) else
  match findExtent l false ea with
  | none => .error (.lease 0)
  | some (i, e) =>
    if !permOk e.perm need then .error (.lease 1) else
    match vectorBad w g e ea with
    | some x => .error x
    | none =>
    let (pa, key, tier) := extentPa w g e ea
    if outOfRange w.ctl tier pa then .error (.memrange pa)
    else .ok { addr := flatOf tier pa, key := key, ext := some i, svc := false }

def inKeys (c : Ctl) (p k : Nat) : Bool :=
  let r := (partOf c p).ten.pkeys.toNat
  decide (bits r 43 32 ≤ k) && decide (k < bits r 43 32 + bits r 12 0)

/-- Permission from a leaf (R453). -/
def leafOk (e : Nat) : Need → Bool
  | .read => true
  | .write | .both => pteW e
  | .exec => pteX e

/-- A cached leaf of a management glade. -/
def tlbFind (G : Glade) (part : Option Nat) (ea : Nat) : Option Tlb :=
  G.tlb.find? (fun t => t.part == part && decide (ea / 2 ^ t.size = t.va))

/-- The translation of a P1 or P2 task of glade `g` (R453): `part` is none for P2. (DEDUCED, log entry 53.) -/
def checkTree (w : Work) (g : Nat) (part : Option Nat) (ea : Nat) (need : Need) : Except XErr Xlate × Work :=
  if 2 ^ 52 ≤ ea then (.error (.lease 2), w) else
  let root := match part with
    | none => mptRoot w.ctl
    | some p => ptRoot w.ctl p
  if part = none ∧ root = 0 then
    if ea < capacity w.ctl then (.ok { addr := pkgNo w.ctl * 2 ^ 44 + ea, key := 0, ext := none, svc := true }, w)
    else (.error (.lease 0), w)
  else
    let tree := part.getD monTree
    let found : Except XErr Leaf × Work :=
      match tlbFind (gladeOf w.ctl g) part ea with
      | some t => (.ok { at_ := t.addr, e := t.leaf.toNat, size := t.size }, w)
      | none =>
        match walk w (some g) tree root ea with
        | (.error x, w) => (.error x, w)
        | (.ok l, w) =>
          let w := (walkerSet w g tree root part ea 4 2).2
          let l := { l with e := if l.e.testBit 4 then l.e else l.e + 16 }
          (.ok l, updGlade w g (fun G =>
            { G with tlb := ({ part := part, va := ea / 2 ^ l.size, size := l.size, leaf := w64 l.e, addr := l.at_ } :: G.tlb).take 1024 }))
    match found with
    | (.error x, w) => (.error x, w)
    | (.ok l, w) =>
      let keyBad := match part with
        | none => false
        | some p => if pteTier l.e = 0 then !inKeys w.ctl p (pteKey l.e) else decide (pteKey l.e ≠ 0)
      if keyBad then (.error (.lease 0), w)
      else if !leafOk l.e need then (.error (.lease 1), w)
      else
        let pa := leafPa l ea
        if outOfRange w.ctl (pteTier l.e) pa then (.error (.memrange pa), w) else
        (.ok { addr := flatOf (pteTier l.e) pa, key := pteKey l.e, ext := none, svc := true }, w)

/-- The check of a device address for task `t` of glade `g` (R124, R369, R453). -/
def checkDev (w : Work) (g t ea : Nat) (need : Need) : Except XErr Xlate × Work :=
  let T := taskOf w.ctl g t
  if T.sys.priv = 0 then
    match launchOf w.ctl T.sys.part T.sys.launch with
    | none => (.error (.lease 0), w)
    | some l => (checkLaunch w g l ea need, w)
  else checkTree w g (if T.sys.priv = 2 then none else some T.sys.part) ea need

/-- The launch of the partition that owns glade `g`. -/
def ownLaunch (c : Ctl) (g : Nat) : Option Launch :=
  match (gladeOf c g).owner with
  | none => none
  | some o => launchOf c o.part o.launch

/-- The bit of the dirty map for a page: one for each 64 KiB page, or for each 256 MiB leaf (R370). -/
def dirtyBit (size va : Nat) : Nat := if size = 28 then 2 ^ 40 + va / 2 ^ 28 else va / 65536

/-- D in the leaf of a page that a P1 or P2 task of glade `g` writes, at the first write that is performed (R371, R453): a failing
amo.cas writes nothing and sets none (R201). -/
def noteTree (w : Work) (g : Nat) (part : Option Nat) (va : Nat) : Work :=
  let root := match part with
    | none => mptRoot w.ctl
    | some p => ptRoot w.ctl p
  if part = none ∧ root = 0 then w
  else if ((tlbFind (gladeOf w.ctl g) part va).map (fun t => t.leaf.getLsbD 5)).getD false then w
  else
    match walkerSet w g (part.getD monTree) root part va 5 2 with
    | (.done _, w) => updGlade w g (fun G => { G with tlb := G.tlb.map (fun t =>
        if t.part = part ∧ va / 2 ^ t.size = t.va then { t with leaf := t.leaf ||| 32 } else t) })
    | (_, w) => w

/-- Mark a page dirty before its first write through any extent of the launch (R370): the walker's swap is performed in the step
of the write; where the walk would have to wait (R436) the write does not, and the next one sets D. (DESIGN CHOICE, log entry 86.) -/
def noteWrite (w : Work) (g p n : Nat) (ext : Option Nat) (va : Nat) : Work :=
  match ext, launchOf w.ctl p n with
  | some _, some l =>
    if l.dirty.contains (dirtyBit 16 va) || l.dirty.contains (dirtyBit 28 va) then w
    else
      match walkerSet w g p (ptRoot w.ctl p) (some p) va 5 2 with
      | (.wait, w) => w
      | (.done size, w) => updLaunch w p n (fun l => { l with dirty := insNat l.dirty (dirtyBit size va) })
      | (.noLeaf, w) => updLaunch w p n (fun l => { l with dirty := insNat l.dirty (dirtyBit 16 va) })
  | _, _ => w

/-- An error that a translation has met is marked and logged, as is a vacated address (R424, R434, R465). -/
def xMet (w : Work) (launch : Nat) : XErr → Work
  | .memunc a 3 => logGone w a launch
  | .memunc a _ => logEvent (checkRead w a 8).1 (chanOf w.ctl a) 2 (errAddr a) launch false
  | _ => w

/-- INVPG (R372, R453): every cached entry of the partition whose span covers the page is dropped, everywhere. -/
def dropCaches (w : Work) (p va size : Nat) : Work :=
  updCtl w (fun c => { c with glades := c.glades.map (fun q => (q.1,
    { q.2 with
      wcache := q.2.wcache.filter (fun x => !(x.1 == p && (x.2.1 == bits va 51 40 || decide (x.2.1 / 2 ^ 40 = 1 ∧
        (x.2.1 % 2 ^ 40 = bits va 51 28)))))
      tlb := q.2.tlb.filter (fun x => !(x.part == some p && decide (x.va * 2 ^ x.size < va / 2 ^ size * 2 ^ size + 2 ^ size) &&
        decide (va / 2 ^ size * 2 ^ size < x.va * 2 ^ x.size + 2 ^ x.size))) })) })

end Sys2Proof.Machine
end

