-- ==== Sys2Proof/Machine/Route.lean ====
section
/-! DEFINITION. Requests of tasks and engines in the ordering machine (R283 to R294): their way, their hops and queues, and
what their home does when it performs them. -/
namespace Sys2Proof.Machine

/-! ## The way (R13, R22) -/

/-- The Canopy port a die's traffic to package `p` takes: a live port of the die, port `4 d + p mod 4` first, else any live
port (R408). (DESIGN CHOICE, log entry 74.) -/
def canopyFor (c : Ctl) (d p : Nat) : Nat :=
  (([4 * d + p % 4, 4 * d, 4 * d + 1, 4 * d + 2, 4 * d + 3] ++ List.range 16).find? (c.links.up.contains ·)).getD (4 * d + p % 4)

/-- The Ethernet port a message for another stand leaves through: E(STAND mod 2), or the other where that one is not live; none
where neither is (R410). -/
def ethPort (c : Ctl) (stand : Nat) : Option Nat := [16 + stand % 2, 17 - stand % 2].find? (c.links.up.contains ·)

/-- The die of an Ethernet port: E0 on D0, E1 on D3 (R23). -/
def ethDie (port : Nat) : Nat := if port = 16 then 0 else 3

/-- The die where a home stands, seen from die `d`. -/
def dieOfHome (c : Ctl) (d : Nat) : Home → Nat
  | .glade t => dieOf t
  | .stack k => k / 3
  | .host => 0
  | .package p => canopyFor c d p / 4
  | .stand s => ethDie ((ethPort c s).getD (16 + s % 2))

/-- The LINKSEL number of the adapter between two adjacent dies (R414). -/
def villumPort (d e : Nat) : Nat := if d + e = 1 then 19 else if d + e = 2 then 20 else if d + e = 4 then 21 else 22

def villumUp (c : Ctl) (d e : Nat) : Bool := c.links.up.contains (villumPort d e)

/-- The die after `d` toward `e`: a diagonal goes by the column first (R13); past a failed adapter, the other way round
(R408). -/
def dieAfter (c : Ctl) (d e : Nat) : Nat :=
  let two := fun (x : Nat) => villumUp c d x && villumUp c x e
  if d ^^^ e = 3 then (if two (d ^^^ 1) || !two (d ^^^ 2) then d ^^^ 1 else d ^^^ 2)
  else if villumUp c d e then e
  else e ^^^ 3

/-- The hop after `h` toward a home; none where the home is reached. The router of a management glade, which is in no grove,
joins the die switch. (DESIGN CHOICE, log entry 74.) -/
def nextHop (c : Ctl) (home : Home) : Hop → Option Hop
  | .gladeRouter g => some (if isMgmt g then .dieSwitch (dieOf g) else .groveSwitch (groveOf g))
  | .groveSwitch gr =>
    match home with
    | .glade t => some (if !isMgmt t && decide (groveOf t = gr) then .gladeIn t else .dieSwitch (gr / 8))
    | _ => some (.dieSwitch (gr / 8))
  | .dieSwitch d =>
    let e := dieOfHome c d home
    if d = e then
      match home with
      | .glade t => some (if isMgmt t then .gladeIn t else .groveSwitch (groveOf t))
      | .package p => some (.canopy (canopyFor c d p))
      | .stand s => some (.eth ((ethPort c s).getD (16 + s % 2)))
      | _ => none
    else some (.villum d (dieAfter c d e))
  | .villum _ e => some (.dieSwitch e)
  | .canopy _ | .eth _ | .gladeIn _ => none

/-- Every hop from `h` on. -/
def hopsFrom (c : Ctl) (home : Home) : Nat → Hop → List Hop
  | 0, h => [h]
  | n + 1, h =>
    match nextHop c home h with
    | none => [h]
    | some k => h :: hopsFrom c home n k

/-- The hops a message of glade `g` crosses (R22). -/
def hopPath (c : Ctl) (g : Nat) (home : Home) : List Hop :=
  if home = .glade g then [] else hopsFrom c home 14 (.gladeRouter g)

/-- The scope level whose ordering point a hop is for glade `g`, plus one (R287). -/
def lvlOf (g : Nat) : Hop → Nat
  | .gladeRouter h => if h = g then 1 else 0
  | .groveSwitch gr => if !isMgmt g && decide (groveOf g = gr) then 2 else 0
  | .dieSwitch d => if dieOf g = d then 3 else 0
  | _ => 0

def homeOf (c : Ctl) (r : Req) : Home :=
  match whereIs r.addr with
  | .dev => if r.addr / 2 ^ 44 = pkgNo c then .stack r.stack else .package (r.addr / 2 ^ 44)
  | .host => .host
  | .scr g _ | .flt g _ | .acc g => .glade g

/-- The number of the bridge before a home, seen from glade `g` (R24): 0 to 11 the stacks, 12 the host, 16 and up the Canopy
ports. -/
def bridgeNo (c : Ctl) (g : Nat) : Home → Nat
  | .stack k => k
  | .host => 12
  | .package p => 16 + canopyFor c (dieOf g) p
  | .glade _ => 13
  | .stand s => 32 + s % 2

/-- The bridge at the last hop of a way. -/
def bridgeAtHop : Hop → Home → Nat
  | .canopy n, _ => 16 + n
  | _, .stack k => k
  | _, _ => 12

/-- A device request whose route is chosen now (R433). -/
def reroute (c : Ctl) (r : Req) : Req :=
  if r.addr < hostBase then { r with stack := stackOf c (r.addr % 2 ^ 44) } else { r with stack := 0 }

def accLen : Access → Nat
  | .read n => n
  | .fwd b => b.length
  | .write b => b.length
  | .amo _ n _ _ => n
  | .arm n _ _ => n
  | .bar _ _ => 4
  | .birth _ => 0
  | .ewrite b _ _ _ => b.length

/-! ## Queues -/

def hopReqs (n : Net) (h : Hop) (d : Home) : List Req :=
  match n.hops.find? (fun q => q.hop == h && q.home == d) with
  | some q => q.reqs
  | none => []

def hopSet (n : Net) (h : Hop) (d : Home) (l : List Req) : Net :=
  let rest := n.hops.filter (fun q => !(q.hop == h && q.home == d))
  { n with hops := if l = [] then rest else rest ++ [{ hop := h, home := d, reqs := l }] }

def updNetC (w : Work) (f : Net → Net) : Work := updCtl w (fun c => { c with net := f c.net })
def bridgeOf (c : Ctl) (b : Nat) : Bridge := Tab.getD c.net.bridges b Bridge.empty
def updBridge (w : Work) (b : Nat) (f : Bridge → Bridge) : Work :=
  updNetC w (fun n => { n with bridges := Tab.set n.bridges b (f (Tab.getD n.bridges b Bridge.empty)) })

/-- The bank queues a request joins, those of every byte of it: 0–383 scratchpad banks, 384 on fleeting banks; a dword joins both
of its pair (R306, R308, R314). -/
def bankKeys (r : Req) : List Nat :=
  let last := fun (off : Nat) => off + Nat.max 1 (accLen r.acc) - 1
  match whereIs r.addr with
  | .scr _ off => (List.range (last off / 4 - off / 4 + 1)).map (fun i => bankOf (off + 4 * i))
  | .flt _ off => (List.range (last off / 4096 - off / 4096 + 1)).map (fun i => 384 + (off / 4096 + i) % 16)
  | _ => []

def bankQ (c : Ctl) (g b : Nat) : List Req := Tab.getD (gladeOf c g).banks b []
def setBankQ (w : Work) (g b : Nat) (l : List Req) : Work :=
  updGlade w g (fun G => { G with banks := if l = [] then Tab.del G.banks b else Tab.set G.banks b l })

def banksEmpty (c : Ctl) (g : Nat) (r : Req) : Bool :=
  (gladeOf c g).banks = [] || (bankKeys r).all (fun b => bankQ c g b = [])
def banksRoom (c : Ctl) (g : Nat) (r : Req) : Bool :=
  (gladeOf c g).banks = [] || (bankKeys r).all (fun b => decide ((bankQ c g b).length < Config.bankDepth))
def bankPush (w : Work) (g : Nat) (r : Req) : Work :=
  (bankKeys r).foldl (fun w b => setBankQ w g b (bankQ w.ctl g b ++ [r])) w

/-- `n` bytes of a request from its byte `i` on. -/
def partReq (r : Req) (i n : Nat) : Req :=
  let cov := match r.acc with
    | .write b => decide (r.addr < scrBase) && (decide (r.whole = 2) || (decide (r.addr % 64 = 0) && decide (b.length % 64 = 0)))
    | _ => false
  { r with
    addr := r.addr + i, va := r.va + i, lane := r.lane + 8 * i, whole := if cov then 2 else 1
    acc := match r.acc with
      | .read _ => .read n
      | .write b => .write ((b.drop i).take n)
      | .fwd b => .fwd ((b.drop i).take n)
      | a => a }

/-- The steps one message makes at its home: a word each, or the element whole (R292, R310). -/
def splitMsg (r : Req) : List Req :=
  if accLen r.acc ≤ 8 ∧ r.whole = 0 then [r]
  else (List.range (accLen r.acc / 4)).map (fun i => partReq r (4 * i) 4)

/-- The first step of a request at a controller, and what is left of it (R292). -/
def cutReq (r : Req) : Req × Option Req :=
  if accLen r.acc ≤ 4 ∨ (accLen r.acc ≤ 8 ∧ r.whole = 0) then (r, none)
  else (partReq r 0 4, some (partReq r 4 (accLen r.acc - 4)))

/-! ## Accesses in flight -/

def updOut (w : Work) (g t id : Nat) (f : Out → Out) : Work :=
  updTask w g t (fun T => { T with fl := { T.fl with outs := T.fl.outs.map (fun o => if o.id = id then f o else o) } })
def findOut (T : Task) (id : Nat) : Option Out := T.fl.outs.find? (fun o => o.id == id)

/-- Whether access `id` of a task is performed at scope `s` (R288). -/
def performedAt (T : Task) (s id : Nat) : Bool :=
  match findOut T id with
  | none => true
  | some o => decide (s + 1 ≤ o.lvl)

/-- A store of a task has entered a hop that is an ordering point of its glade (R288). -/
def raiseLvl (w : Work) (r : Req) (h : Hop) : Work :=
  let n := lvlOf r.g h
  if n = 0 ∨ 16 ≤ r.t then w
  else updOut w r.g r.t r.id (fun o => if o.store && decide (o.lvl < n) then { o with lvl := n } else o)

/-- An access of a task falls into `n` more pieces. -/
def morePieces (w : Work) (r : Req) (n : Nat) : Work :=
  if n = 0 ∨ 16 ≤ r.t then w else updOut w r.g r.t r.id (fun o => { o with left := o.left + n })

/-- MEMUNC of an access of a task; the instruction counts as trapped if it is the one being issued. -/
def raiseMemunc (w : Work) (g t id : Nat) (pc : Word) (b : Bad) : Work :=
  memunc (updModel w (fun x => { x with issuing := 2 })) g t id pc b

/-- A fleeting load that met an expired tile sets FE, whole with its other effects, and counts once (R84, R125, R395). -/
def settleFe (w : Work) (g t : Nat) (o : Out) : Work :=
  if o.expd then bump (setFe w g t true) g t 6 1 else w

/-- Write the result of an access whose pieces are all performed, or raise its MEMUNC. -/
def settle (w : Work) (g t : Nat) (o : Out) : Work :=
  let w := updTask w g t (fun T => { T with fl := { T.fl with outs := T.fl.outs.filter (fun p => p.id != o.id) } })
  let w := settleFe w g t o
  match o.bad with
  | some b => if o.store && !o.atom then w else raiseMemunc w g t o.id o.pc b
  | none =>
    match o.dest with
    | .none => w
    | .x d => updTask w g t (fun T =>
        promise o.gap d (.x (regX T.regs (BitVec.ofNat 5 d)))
          (endPromise d { T with regs := T.regs.putX (BitVec.ofNat 5 d) (o.stage.setWidth 64) }))
    | .v d => updTask w g t (fun T =>
        promise o.gap (32 + d) (.v (regV T.regs (BitVec.ofNat 4 d)))
          (endPromise (32 + d) { T with regs := T.regs.putV (BitVec.ofNat 4 d) o.stage }))
    | .key k => renewCtl (updEng w g (fun e => { e with keys := Tab.set e.keys k (o.stage.setWidth 512) })) g [.key k]

/-- What the counters see of an access that is performed (R395). -/
def countAccess (w : Work) (r : Req) (o : Out) : Work :=
  match o.sp with
  | .dev => bump w r.g r.t 4 1
  | .scr | .rscr => bump w r.g r.t 5 1
  | .flt => w

/-- What the monitors see of a piece that is performed: a load or atomic whose home is a stack, and each block of 64 bytes of a
vector load with its last word (R396). -/
def timeAccess (w : Work) (r : Req) (o : Out) : Work :=
  if o.sp = .dev ∧ o.store = false ∧ r.addr < hostBase ∧ (r.whole = 0 ∨ (r.lane / 8 + 4) % 64 = 0) then
    sample w r.g (0x10 + r.stack) (sinceTick w.ctl r.born)
  else w

/-- One piece of an access is performed: its bits join the result, or it was bad. -/
def pieceDone (w : Work) (r : Req) (v : Nat) (bad : Option Bad) : Work :=
  match findOut (taskOf w.ctl r.g r.t) r.id with
  | none => w
  | some o =>
    let o := { o with
      left := o.left - 1
      stage := o.stage ||| BitVec.ofNat 2048 (v * 2 ^ r.lane)
      bad := match o.bad, bad with
        | some a, some b => some (if b.lane < a.lane then b else a)
        | some a, none => some a
        | none, b => b }
    let w := timeAccess w r o
    if o.left = 0 then countAccess (settle w r.g r.t o) r o else updOut w r.g r.t r.id (fun _ => o)

def badOf (r : Req) (d : Nat) : Option Bad := some { lane := r.lane, va := r.va, addr := r.addr, detail := d }

/-! ## What a home does -/

/-- The age of a birth now, as 64-bit counts (R1, R314). -/
def ageOf (c : Ctl) (b : Int) : Int := ((c.tick : Int) - b) % (2 ^ 64 : Nat)

/-- Whether a fleeting tile is expired now (R125, R314). -/
def expired (c : Ctl) (g tile : Nat) : Bool :=
  match Tab.find (gladeOf c g).ctx.births tile with
  | none => true
  | some b => decide ((Config.flife : Int) ≤ ageOf c b)

/-- life of R211. -/
def lifeOf (c : Ctl) (g tile : Nat) : Nat :=
  match Tab.find (gladeOf c g).ctx.births tile with
  | none => 0
  | some b => ((Config.flife : Int) - ageOf c b).toNat

def setBirth (w : Work) (g tile : Nat) : Work :=
  updCtx w g (fun x => { x with births := Tab.set x.births tile (w.ctl.tick : Int) })

/-- WATCH of a task at offset `off`, watchpoint `k`: EADDR is the lowest byte that any part of the store met, EVAL the lowest
watchpoint; it comes in place of STEP (R102, R394). -/
def watchCause (T : Task) (off k : Nat) : Option Cause :=
  let at_ := fun (a n : Nat) => some (({ code := 0xF, epc := T.pc, eaddr := w64 a, eval := w64 n, detail := 0, bundle := false } : Cause))
  match T.pend with
  | none => at_ off k
  | some p =>
    if p.code = 0x10 then at_ off k
    else if p.code = 0xF then at_ (Nat.min off p.eaddr.toNat) (Nat.min k p.eval.toNat)
    else some p

/-- A task whose store met a watchpoint of its own glade takes WATCH after the instruction; another agent's write leaves a record
only (R394). -/
def watchTask (w : Work) (hg : Nat) (r : Req) (hit : Option (Nat × Nat)) : Work :=
  match hit with
  | none => w
  | some (off, k) =>
    if hg = r.g then updTask w r.g r.t (fun T => { T with pend := watchCause T off k }) else watchRecord w hg hit

/-- A barrier step writes its word: the watchpoint it meets is its task's, or the record of a task that has retired (R394). -/
def storeBar (w : Work) (r : Req) (v : Nat) : Work :=
  match whereIs r.addr with
  | .scr g off =>
    let (w, hit) := bankWrite w g off 0 (natLe 4 v)
    if (taskOf w.ctl r.g r.t).run = .retired then watchRecord w g hit else watchTask w g r hit
  | _ => w

/-- Complete() of R208 on a word after its change; every waiter reads the word it leaves. -/
def barComplete (w : Work) (r : Req) (b : BarWord) : Work :=
  if b.parties > 0 ∧ b.parties ≤ b.arrived then
    let clear := fun (e : BarEntry) => if e.addr = r.addr then { e with arrived := false } else e
    let w := updCtl w (fun c => mapTasks c (fun _ _ T => { T with fl := { T.fl with bars := T.fl.bars.map clear } }))
    storeBar w r (barNat { b with ldrop := b.drop, drop := false, arrived := 0, phase := (b.phase + 1) % 16 })
  else storeBar w r (barNat b)

/-- The page of a device write becomes dirty: through its launch's extents, or in the tree of a P1 or P2 task (R370, R453). -/
def noteDirty (w : Work) (r : Req) : Work :=
  if r.ext.isSome then noteWrite w r.g r.part r.launch r.ext r.va
  else if r.svc then noteTree w r.g (if r.mon then none else some r.part) r.va
  else w

/-- Write bytes at their home for a task's request. -/
def homeWrite (w : Work) (r : Req) (bs : List Byte) : Work :=
  match whereIs r.addr with
  | .scr g off =>
    let (w, hit) := bankWrite w g off r.launch bs
    watchTask w g r hit
  | .flt _ _ | .acc _ => writeBytes w 0 r.launch r.addr bs
  | _ =>
    let w := noteDirty w r
    if r.whole = 2 then writePart w r.key r.addr bs else writeBytes w r.key r.launch r.addr bs

/-- The new value of R200. -/
def amoNew (op n m b c : Nat) : Nat :=
  let w := 8 * n
  match op with
  | 0 => (m + b) % 2 ^ w
  | 1 => m &&& b
  | 2 => m ||| b
  | 3 => m ^^^ b
  | 4 => if signedOf w b < signedOf w m then b else m
  | 5 => if signedOf w m < signedOf w b then b else m
  | 6 => Nat.min m b
  | 7 => Nat.max m b
  | 8 => b
  | 9 => if m = c then b else m
  | 10 => fp32.ieee .rne ((fp32.val m).add .rne (fp32.val b))
  | _ =>
    bf16.ieee .rne ((bf16.val (m % 65536)).add .rne (bf16.val (b % 65536))) +
      65536 * bf16.ieee .rne ((bf16.val (m / 65536)).add .rne (bf16.val (b / 65536)))

/-- Monitors of one bank pair or bank after arming one more: the oldest of four is displaced (R205). -/
def armAt (w : Work) (hg bank : Nat) (m : Monitor) : Work :=
  let l := Tab.getD (gladeOf w.ctl hg).mons bank []
  let w := match l with
    | o :: _ => if 4 ≤ l.length then disarm (wakeMonitor w o.g o.t) hg o.g o.t else w
    | [] => w
  updGlade w hg (fun G => { G with mons := Tab.set G.mons bank (Tab.getD G.mons bank [] ++ [m]) })

/-- WAITMON's compare and arm (R204). -/
def homeArm (w : Work) (r : Req) (n expected : Nat) (deadline : Option Nat) : Work :=
  let (w, f) := checkRead w r.addr n
  if f.bad then pieceDone w r 0 (badOf r (foundDetail f)) else
  let m := w.nat r.addr n
  let late := match deadline with
    | some d => decide (d ≤ w.ctl.tick)
    | none => false
  if m ≠ expected ∨ late = true then pieceDone w r m none
  else
    match findOut (taskOf w.ctl r.g r.t) r.id, whereIs r.addr with
    | some o, .scr hg _ =>
      let d := match o.dest with
        | .x d => d
        | _ => 0
      let w := updTask w r.g r.t (fun T =>
        { T with run := .sleeping (.waitmon r.addr n deadline d r.va)
                 fl := { T.fl with promises := [], outs := T.fl.outs.filter (fun p => p.id != r.id) } })
      (bankKeys r).foldl (fun w b => armAt w hg b { addr := r.addr, n := n, g := r.g, t := r.t }) w
    | _, _ => w

def updBars (w : Work) (g t : Nat) (f : List BarEntry → List BarEntry) : Work :=
  updTask w g t (fun T => { T with fl := { T.fl with bars := f T.fl.bars } })

/-- The task leaves its access and sleeps on a barrier until the phase is not `ph` (R208). -/
def barSleep (w : Work) (r : Req) (ph : Nat) : Work :=
  match findOut (taskOf w.ctl r.g r.t) r.id with
  | some o =>
    let d := match o.dest with
      | .x d => d
      | _ => 0
    updTask w r.g r.t (fun T =>
      { T with run := .sleeping (.bar r.addr ph d)
               fl := { T.fl with promises := [], outs := T.fl.outs.filter (fun p => p.id != r.id) } })
  | none => w

/-- One barrier operation at its bank unit (R208): 0 join, 1 arrive, 2 wait, 3 arrwait, 4 drop; the drop of a retired task that
meets a bad word takes the entry, leaves the word, is logged and raises nothing. -/
def homeBar (w : Work) (r : Req) (op token : Nat) : Work :=
  let (w, f) := checkRead w r.addr 4
  let T := taskOf w.ctl r.g r.t
  let leave := fun (w : Work) => updBars w r.g r.t (fun l => l.filter (fun x => x.addr != r.addr))
  if f.bad && decide (T.run = .retired) then
    pieceDone (logEvent (leave w) (chanOf w.ctl r.addr) 2 (errAddr r.addr) r.launch false) r 0 none
  else if f.bad then pieceDone w r 0 (badOf r (foundDetail f)) else
  let v := w.nat r.addr 4
  let b := barOf v
  let mine := T.fl.bars.find? (fun e => e.addr == r.addr)
  match op, mine with
  | 0, some _ => pieceDone w r (v + 2 ^ 62) none
  | 0, none =>
    if T.fl.bars.length ≥ 8 ∨ b.parties = 8191 then pieceDone w r (v + 2 ^ 63) none
    else
      let b := { b with parties := b.parties + 1 }
      let w := updBars w r.g r.t (· ++ [{ addr := r.addr, sp := r.sp, va := r.va, arrived := false, phase := 0 }])
      pieceDone (storeBar w r (barNat b)) r (barNat b) none
  | 2, _ => if token ≠ b.phase then pieceDone w r v none else barSleep w r token
  | _, none => pieceDone w r (v + 2 ^ 62) none
  | 4, some e =>
    let b := b.dropped e.arrived
    barComplete (pieceDone (leave w) r (barNat b) none) r b
  | _, some _ =>
    let w := updBars w r.g r.t (fun l => l.map (fun x => if x.addr = r.addr then { x with arrived := true, phase := b.phase } else x))
    let w := if op = 1 then pieceDone w r v none else barSleep w r b.phase
    barComplete w r { b with arrived := b.arrived + 1 }

/-- FRENEW, FLIFE and FCLAIM at the tile's bank (R211). -/
def homeBirth (w : Work) (r : Req) (op : Nat) : Work :=
  match whereIs r.addr with
  | .flt g off =>
    let tile := off / 4096
    let life := lifeOf w.ctl g tile
    match op with
    | 0 => pieceDone (if 0 < life then setBirth w g tile else w) r life none
    | 1 => pieceDone w r life none
    | _ =>
      let a := fltAt g (tile * 4096)
      let w := updCtl (w.clear a 4096) (fun c => { c with marks :=
        { c.marks with poison := c.marks.poison.filter (fun u => !(decide (a ≤ u) && decide (u < a + 4096)))
                       latent := c.marks.latent.filter (fun u => !(decide (a ≤ u) && decide (u < a + 4096)))
                       soft := c.marks.soft.filter (fun u => !(decide (a ≤ u) && decide (u < a + 4096))) } })
      pieceDone (setBirth w g tile) r Config.flife none
  | _ => w

/-- A fleeting load of a task finds its tile expired (R125). -/
def loadExpired (w : Work) (r : Req) : Work :=
  pieceDone (updOut w r.g r.t r.id (fun o => { o with expd := true })) r 0 none

/-! ## What a home does for an engine (R171, R181, R294, R424, R425) -/

/-- Status bits (R171). -/
def stSat : Nat := 1
def stClamp : Nat := 2
def stExp : Nat := 4
def stPoison : Nat := 8
def stLink : Nat := 16
def stOor : Nat := 32
def stFmterr : Nat := 64
def stTimeout : Nat := 128
def stStale : Nat := 256
def stMismatch : Nat := 512
def stExcluded : Nat := 1024

def flagIf (b : Bool) (f : Nat) : Nat := if b then f else 0

/-- Put a range into rising disjoint ranges. -/
def addRange : List (Nat × Nat) → Nat → Nat → List (Nat × Nat)
  | [], lo, hi => [(lo, hi)]
  | (a, b) :: r, lo, hi =>
    if hi < a then (lo, hi) :: (a, b) :: r
    else if b < lo then (a, b) :: addRange r lo hi
    else addRange r (Nat.min a lo) (Nat.max b hi)

/-- The command a request of an engine belongs to. -/
def cmdOf (c : Ctl) (r : Req) (q : Queue) : Option Cmd := (cmdsOf c r.g q).find? (fun x => x.id == r.id && !isFence x)

/-- What a read got reaches its command, with the status bits it sets; a stream's reach its plane (R221, R316). -/
def engGot (w : Work) (r : Req) (q : Queue) (x : Got) (f : Nat) : Work :=
  match cmdOf w.ctl r q with
  | none => w
  | some c =>
    let w := updCmd w r.g q r.id (fun c =>
      { c with flying := false, got := if c.fin then c.got else c.got ++ [x], flags := c.flags ||| f })
    match c.op with
    | .stream _ _ _ p _ =>
      if f = 0 then w
      else
        let P := planeOf w.ctl r.g p
        setPlane w r.g p { P with exp := P.exp || f.testBit 2, strmerr := P.strmerr || f.testBit 3 }
    | _ => w

/-- Half-bytes a write takes of a command's destination: a scale or metadata (`nib` 3) takes none, the last nibble of a row of odd
length its byte. -/
def putSize (r : Req) : Nat :=
  match r.acc with
  | .ewrite bs nib _ _ => if nib = 0 then 2 * bs.length else if nib = 3 then 0 else if nib = 4 then 2 else 1
  | _ => 0

/-- The write of an element has ended. -/
def engPutDone (w : Work) (r : Req) (q : Queue) : Work :=
  updCmd w r.g q r.id (fun c => { c with flying := false, opened := true, off := c.off + putSize r })

/-- The home's read for an engine (R171, R181, R424). -/
def engHomeRead (w : Work) (r : Req) (q : Queue) (n : Nat) : Work :=
  let zeros := List.replicate n (0 : Byte)
  let dead := match whereIs r.addr with
    | .flt g off => expired w.ctl g (off / 4096)
    | _ => false
  if dead then engGot w r q { bytes := zeros, poison := false } stExp
  else
    let (w, f) := checkRead w r.addr n
    if f.bad then
      engGot (logEvent w (chanOf w.ctl r.addr) 2 (errAddr r.addr) r.launch false) r q { bytes := zeros, poison := true } stPoison
    else engGot w r q { bytes := readBytes w r.key r.addr n, poison := false } 0

/-- The home's write of bytes of one access of an engine; `raw` that the poison of its unit is no matter (R425). -/
def engStore (w : Work) (r : Req) (bs : List Byte) (raw : Bool := false) : Work :=
  match whereIs r.addr with
  | .scr d off =>
    let (w, hit) := if raw then bankSeen (putBytes w r.addr bs) d off bs.length else bankWrite w d off r.launch bs
    watchRecord w d hit
  | .flt _ _ | .acc _ => if raw then putBytes w r.addr bs else writeBytes w 0 r.launch r.addr bs
  | _ => if raw then writeBlock (noteDirty w r) r.key r.addr bs else writeBytes (noteDirty w r) r.key r.launch r.addr bs

/-- The bytes a write of an engine leaves at its place: whole, or with one nibble of a byte new. -/
def nibBytes (w : Work) (r : Req) (bytes : List Byte) (nib : Nat) : List Byte :=
  if nib = 0 ∨ nib = 3 then bytes
  else
    let old := (readKey w r.key r.addr).toNat
    let v := ((bytes.head?).getD 0).toNat % 16
    [BitVec.ofNat 8 (if nib = 2 then old % 16 + 16 * v else old / 16 * 16 + v)]

/-- A write of a command whose units it writes whole, in parts or not (R425): the work and the command after it. The first part of
a whole unit clears its poison, or an error that no access has met, without reading it. (DEDUCED, log entry 63.) -/
def engLay (w : Work) (c : Cmd) (r : Req) (bytes : List Byte) (nib : Nat) (poison whole : Bool) : Work × Cmd :=
  let bs := nibBytes w r bytes nib
  let u := unitOf r.addr
  let cov := whole && decide (unitOf (r.addr + bs.length - 1) = u) && decide (bs.length < unitSize r.addr)
  let bad := w.ctl.marks.poison.contains u || w.ctl.marks.latent.contains u
  let (w, c) :=
    if bad && c.cleared.contains u then (engStore w r bs true, c)
    else if bad && cov then (engStore (clearPoison w u) r bs, { c with cleared := u :: c.cleared })
    else (engStore w r bs, c)
  if poison then
    ((unitsOf r.addr bs.length).foldl setPoison w, if cov && !c.cleared.contains u then { c with cleared := u :: c.cleared } else c)
  else (w, c)

/-- A tile every half-byte of which the command has written takes this tick as its birth (R181). -/
def engBirth (w : Work) (c : Cmd) (r : Req) (nib n : Nat) : Work × Cmd :=
  match whereIs r.addr, c.op with
  | .flt _ _, .stream .. => (w, c)
  | .flt g off, _ =>
    let lo := 2 * off + (if nib = 2 then 1 else 0)
    let hi := if nib = 0 ∨ nib = 3 then 2 * (off + n) else lo + 1
    let c := { c with wrote := addRange c.wrote lo hi }
    let t := off / 4096
    (if c.wrote.any (fun r => decide (r.1 ≤ t * 8192) && decide (t * 8192 + 8192 ≤ r.2)) then setBirth w g t else w, c)
  | _, _ => (w, c)

/-- The home's write for an engine. -/
def engHomeWrite (w : Work) (r : Req) (q : Queue) (bytes : List Byte) (nib : Nat) (poison cov : Bool) : Work :=
  match cmdOf w.ctl r q with
  | none => engStore w r (nibBytes w r bytes nib)
  | some c =>
    let (w, c) := engLay w c r bytes nib poison cov
    let (w, c) := engBirth w c r nib bytes.length
    engPutDone (updCmd w r.g q r.id (fun _ => c)) r q

/-- The step in which a home performs a request (R284, R291). -/
def performReq (w : Work) (r : Req) : Work :=
  match r.acc with
  | .read n =>
    match r.eng, whereIs r.addr with
    | some q, _ => engHomeRead w r q n
    | none, .flt g off =>
      if expired w.ctl g (off / 4096) then loadExpired w r
      else
        let (w, f) := checkRead w r.addr n
        if f.bad then pieceDone w r 0 (badOf r (foundDetail f)) else pieceDone w r (w.nat r.addr n) none
    | none, _ =>
      let (w, f) := checkRead w r.addr n
      if f.bad then pieceDone w r 0 (badOf r (foundDetail f))
      else pieceDone w r (leNat (readBytes w r.key r.addr n)) none
  | .fwd bs =>
    match whereIs r.addr with
    | .flt g off =>
      if expired w.ctl g (off / 4096) then loadExpired w r else pieceDone w r (leNat bs) none
    | _ => pieceDone w r (leNat bs) none
  | .write bs => pieceDone (homeWrite w r bs) r 0 none
  | .amo op n b c =>
    let (w, f) := checkRead w r.addr n
    if f.bad then pieceDone w r 0 (badOf r (foundDetail f)) else
    let m := leNat (readBytes w r.key r.addr n)
    let w := if op = 9 ∧ m ≠ c then w else homeWrite w r (natLe n (amoNew op n m b c))
    pieceDone w r m none
  | .arm n e d => homeArm w r n e d
  | .bar op t => homeBar w r op t
  | .birth op => homeBirth w r op
  | .ewrite bs nib poison cov =>
    match r.eng with
    | some q => engHomeWrite w r q bs nib poison cov
    | none => w

/-! ## Credits (R312) -/

def creditsOf (c : Ctl) (g target : Nat) : Nat := Tab.getD (gladeOf c g).ctx.net.credits target 0
def addCredits (w : Work) (g target n : Nat) : Work :=
  updNet w g (fun x => { x with credits := Tab.set x.credits target (Tab.getD x.credits target 0 + n) })
def spendCredits (w : Work) (g target n : Nat) : Work :=
  updNet w g (fun x => { x with credits := Tab.set x.credits target (Tab.getD x.credits target 0 - n) })

/-! ## Bridges (R72, R375, R433 to R436) -/

inductive Verdict where
  | stay | hold | replay | vacated | resend | lost | perform
deriving DecidableEq, Repr

def extRevoked (c : Ctl) (r : Req) : Bool :=
  match r.ext, launchOf c r.part r.launch with
  | some i, some l => ((l.exts[i]?).map (·.revoked)).getD false
  | _, _ => false

def sameGranule (a b : Req) : Bool := a.addr / 512 == b.addr / 512

/-- Whether bridge `b` stands before the request's home as its address and the mapping of now give it. -/
def homeHere (c : Ctl) (b : Nat) (r : Req) : Bool :=
  match homeOf c (reroute c r) with
  | .package _ => decide (16 ≤ b)
  | h => decide (bridgeNo c r.g h = b)

/-- What bridge `b` does with a request that no revocation holds, behind the requests `ahead` of its replay queue (R72, R408,
R433 to R436). -/
def moveVerdict (c : Ctl) (b : Nat) (r : Req) (ahead : List Req) : Verdict :=
  let la := r.addr % 2 ^ 44
  if b < 12 then
    if c.repair.sref.contains b then .stay
    else if !homeHere c b r && decide (hostBase ≤ r.addr) then .resend
    else if c.repair.phaseAct && decide (newCapacity c ≤ la) then .vacated
    else if c.repair.copying = some (la / 2 ^ 20) || ahead.any (sameGranule r) then
      (if (bridgeOf c b).replay.length < Config.replayDepth then .replay else .stay)
    else if homeHere c b r then .perform else .resend
  else if !homeHere c b r then .resend
  else if b = 12 then (if c.links.up.contains 18 then .perform else .lost)
  else if c.links.up.contains (b - 16) then .perform else .lost

/-- A request of a revoked extent, or of a granule that a held one names, is held instead while the hold store has room (R72,
R375). -/
def revokedOr (c : Ctl) (b : Nat) (r : Req) (v : Verdict) : Verdict :=
  let held := (bridgeOf c b).held
  if !r.svc && (extRevoked c r || held.any (sameGranule r)) then (if held.length < Config.holdDepth then .hold else .stay) else v

/-- What bridge `b` does with the request at its head: it goes behind one of its granule in the replay queue (R72), or into the hold
store (R375), else what its home and its mapping ask for. -/
def verdict (c : Ctl) (b : Nat) (r : Req) : Verdict :=
  let replay := (bridgeOf c b).replay
  if c.repair.sref.contains b && decide (b < 12) then .stay
  else if c.repair.phaseAct && decide (b < 12) && decide (r.addr < hostBase) && decide (newCapacity c ≤ r.addr % 2 ^ 44) then .vacated
  else if replay.any (sameGranule r) then (if replay.length < Config.replayDepth then .replay else .stay)
  else revokedOr c b r (moveVerdict c b r [])

/-- The words of a request that comes to nothing at its home: each of its pieces ends so. -/
def endParts (w : Work) (r : Req) (bad : Option Bad) : Work :=
  let ps := splitMsg r
  ps.foldl (fun w p => pieceDone w p 0 (bad.map (fun b => { b with lane := p.lane, va := p.va, addr := p.addr })))
    (morePieces w r (ps.length - 1))

/-- An access to a vacated address (R434). -/
def performVacated (w : Work) (r : Req) : Work :=
  let w := logEvent w 48 11 r.addr r.launch false
  match r.eng, r.acc with
  | some q, .read n => engGot w r q { bytes := List.replicate n 0, poison := true } stPoison
  | some q, _ => engPutDone w r q
  | none, .write _ => endParts w r none
  | none, _ => endParts w r (badOf r 3)

def isRead (r : Req) : Bool :=
  match r.acc with
  | .read _ => true
  | _ => false

/-- Whether a command works row by row (R189). -/
def isRows (c : Cmd) : Bool :=
  match c.op with
  | .gather | .scatter => true
  | _ => false

/-- Rows done of such a command; `reading` that no write of it is on its way. -/
def rowsDone (c : Cmd) (reading : Bool) : Nat := if c.puts = [] ∧ reading = true then c.unit else c.unit - 1

/-- An engine command loses a message with a link, or to a guard (R190, R405, R408): it completes with LINK, and where it
works row by row COUNT is the rows before the one it loses. A stream reads zero with STRMERR. (DEDUCED, log entry 75.) -/
def engLost (w : Work) (r : Req) (q : Queue) : Work :=
  match cmdOf w.ctl r q with
  | none => w
  | some c =>
    match c.op, r.acc with
    | .stream .., .read n => engGot w r q { bytes := List.replicate n 0, poison := true } stPoison
    | .stream .., _ => engPutDone w r q
    | _, _ => updCmd w r.g q r.id (fun c =>
        { c with flying := false, fin := true, flags := c.flags ||| stLink, puts := [], got := [], toks := []
                 count := if isRows c then rowsDone c (isRead r) else c.count })

/-- A write of a row of which an element has been written: the row is completed, as its command's last, whatever has befallen the
link (R190). -/
def rowOpen (c : Ctl) (r : Req) (q : Queue) : Bool :=
  !isRead r && ((cmdOf c r q).map (fun x => isRows x && x.opened)).getD false

/-- A request discarded with a failed link (R408): a load or atomic raises MEMUNC with DETAIL 2, a store is lost. -/
def performLost (w : Work) (r : Req) : Work :=
  match r.eng, r.acc with
  | some q, _ =>
    if rowOpen w.ctl r q then performReq (updCmd w r.g q r.id (fun c => { c with cut := true })) r else engLost w r q
  | none, .write _ => endParts w r none
  | none, _ => endParts w r (badOf r 2)

/-! ## The guard at the egress (R403, R404) -/

/-- Whether an enabled PEER entry of a partition names a package of this stand. -/
def peerOk (c : Ctl) (p pkg : Nat) : Bool :=
  (partOf c p).ten.peers.any (fun e => e.2.getLsbD 63 && decide (bits e.2.toNat 31 24 = pkg) &&
    decide (bits e.2.toNat 42 32 = bits c.links.pkgid.toNat 42 32))

/-- Whether two glades stand in one grove. -/
def sameGrove (g d : Nat) : Bool := !isMgmt g && !isMgmt d && decide (groveOf g = groveOf d)

/-- Whether a message of glade `g` meets the guard of its egress on the way to a home (R403): it leaves its grove, or a management
glade. -/
def meetsGuard (g : Nat) : Home → Bool
  | .glade t => decide (t ≠ g) && !sameGrove g t
  | _ => true

/-- What the guard of the issuing glade makes of a message for a home (R403): whether it drops it. -/
def guardDrops (c : Ctl) (r : Req) (home : Home) : Bool :=
  !r.mon && meetsGuard r.g home &&
  match home with
  | .glade t => !(!isMgmt t && (partOf c r.part).ten.groves.toNat.testBit (groveOf t))
  | .package p => !peerOk c r.part p
  | _ => false

/-- The guard that a glade's messages pass: one for each grove and for each management glade (R403). -/
def guardOf (g : Nat) : Nat := if isMgmt g then 32 + (g - 256) else groveOf g

/-- One dropped message of physical glade `g`: GDROPS, GDLAST and the kind 4 record of the guard (R404).
(DEDUCED, log entries 38 and 66.) -/
def dropMessage (w : Work) (g p launch lglade slot : Nat) (d1 : Word) : Work :=
  let k := launch * 64 + guardOf g
  let P := partOf w.ctl p
  let n := satInc 48 P.ten.gdrops
  let recent := match Tab.find P.ten.gdRec k with
    | some t => decide (sinceTick w.ctl t < 1000000)
    | none => false
  let w := updPart w p (fun P => { P with ten := { P.ten with gdrops := satInc 48 P.ten.gdrops, gdlast := w64 w.ctl.tick } })
  if recent then w
  else
    eventOf (updPart w p (fun P => { P with ten := { P.ten with gdRec := Tab.set P.ten.gdRec k w.ctl.tick } }))
      (some p) none (evHead launch lglade slot 0x12 4) d1 (w64 w.ctl.tick) (w64 (n % 2 ^ 48)) (some (guardOf g))

/-- Whether the guard of glade `g`'s egress has a record that waits for the full ring of partition `p`: it then holds that egress
for the partition's messages (R383, R404). -/
def guardHeld (c : Ctl) (g p : Nat) : Bool :=
  ringFull c (some p) && c.net.events.any (fun e => decide (e.ring = some p) && decide (e.guard = some (guardOf g)))

/-- Whether a message of a task or an engine is held there; the monitor's traffic is not guarded. -/
def egressHeldFor (c : Ctl) (r : Req) (home : Home) : Bool := !r.mon && meetsGuard r.g home && guardHeld c r.g r.part

/-- Dword 1 of a drop: class, no task, stand and package, glade and VC. -/
def dropWord (cls : Nat) (notask : Bool) (stand pkg glade vc : Nat) : Word :=
  w64 (cls * 2 ^ 62 + b2n notask * 2 ^ 60 + stand % 2048 * 2 ^ 32 + pkg % 256 * 2 ^ 24 + glade % 256 * 256 + vc % 32)

/-- Whether a hop is where the guard of the issuing glade stands (R403). -/
def guardAt (h : Hop) (r : Req) : Bool :=
  match h with
  | .groveSwitch gr => !isMgmt r.g && decide (groveOf r.g = gr)
  | .gladeRouter g => isMgmt g && decide (g = r.g)
  | _ => false

/-- A dropped request: recorded, acknowledged where it is a store, lost to an engine (R403 to R405). -/
def dropReq (w : Work) (r : Req) (home : Home) : Work :=
  let c := w.ctl
  let (pkg, gl) := match home with
    | .package p => (p, 0)
    | .glade t => (bits c.links.pkgid.toNat 31 24, t)
    | _ => (0, 0)
  let w := dropMessage w r.g r.part r.launch (lgladeOf c r.g) (if r.eng.isSome then 0 else r.t)
    (dropWord 1 r.eng.isSome (bits c.links.pkgid.toNat 42 32) pkg gl 0)
  match r.eng, r.acc with
  | some q, _ => engLost w r q
  | none, .write _ => endParts w r none
  | none, _ => w

/-! ## What leaves a bridge -/

/-- A request enters a replay queue or hold store now: its access counts once, whichever of its parts come there (R395). -/
def heldNow (w : Work) (r : Req) : Work × Req :=
  let w := match findOut (taskOf w.ctl r.g r.t) r.id with
    | some o => if o.waited then w else bump (updOut w r.g r.t r.id (fun o => { o with waited := true })) r.g r.t 8 1
    | none => w
  (w, { r with heldAt := w.ctl.tick })
/-- Whether the context of a request's launch is loaded on its glade; a management glade keeps its own. -/
def reqLoaded (c : Ctl) (r : Req) : Bool :=
  isMgmt r.g || (match (gladeOf c r.g).owner with
    | some o => o.part == r.part && o.launch == r.launch
    | none => false)
/-- It leaves it: the wait is a sample of source 0x07, while its context is loaded (R396). -/
def heldOver (w : Work) (r : Req) : Work := if reqLoaded w.ctl r then sample w r.g 7 (sinceTick w.ctl r.heldAt) else w

def hopPush (w : Work) (h : Hop) (home : Home) (r : Req) : Work :=
  raiseLvl (updNetC w (fun n => hopSet n h home (hopReqs n h home ++ [r]))) r h

/-- The die of a bridge. -/
def dieOfBridge (b : Nat) : Nat := if b < 12 then b / 3 else if b = 12 then 0 else (b - 16) / 4

/-- Send a request again from bridge `b`, on the route of its home of now (R303, R374, R433); the guard looks at a new package
(R403). -/
def sendAgain (w : Work) (b : Nat) (r : Req) : Work :=
  let r := { reroute w.ctl r with resent := true }
  let home := homeOf w.ctl r
  if guardDrops w.ctl r home then dropReq w r home else hopPush w (.dieSwitch (dieOfBridge b)) home r

/-- The first occurrence of `r` gives way to what is left of it. -/
def replaceReq (r : Req) (more : List Req) : List Req → List Req
  | [] => []
  | q :: l => if q = r then more ++ l else q :: replaceReq r more l

/-- The queue of a GATHER or SCATTER whose message to another package stands at a Canopy bridge. -/
def tableOf (c : Ctl) (b : Nat) (r : Req) : Option Queue :=
  if 16 ≤ b then r.eng.filter (fun q => ((cmdOf c r q).map isRows).getD false) else none

/-- Table traffic at another package: it is performed there, or discarded where no extent of its partition matches, which ends the
command with LINK (R405); of a row begun no write is discarded (R190). (DESIGN CHOICE, log entry 95.) -/
def performTable (w : Work) (r : Req) (q : Queue) : Work :=
  let (n, w) := newNonce w
  if Config.peerDiscards n && !rowOpen w.ctl r q then engLost w r q else performReq w r

/-- A request that bridge `b` lets go: performed, a word of it where it has several, sent again, or what else befalls it.
`rest` puts what is left of it back. -/
def letThrough (w : Work) (b : Nat) (r : Req) (rest : Work → List Req → Work) : Verdict → Work
  | .stay => w
  | .hold => let (w, r) := heldNow (rest w []) r; updBridge w b (fun B => { B with held := B.held ++ [r] })
  | .replay => let (w, r) := heldNow (rest w []) r; updBridge w b (fun B => { B with replay := B.replay ++ [r] })
  | .vacated => performVacated (rest w []) r
  | .lost => performLost (rest w []) r
  | .resend => sendAgain (rest w []) b r
  | .perform =>
    match cutReq r with
    | (p, none) =>
      match tableOf w.ctl b r with
      | some q => performTable (rest w []) p q
      | none => performReq (rest w []) p
    | (p, some more) => performReq (morePieces (rest w [more]) r 1) p

/-- The request of a bridge that moves next: its head, or behind one that cannot move the first of the service lane, which
held requests never block (R375). -/
def bridgeNext (c : Ctl) (b : Nat) : Option Req :=
  match (bridgeOf c b).fifo with
  | [] => none
  | r :: rest => if verdict c b r ≠ .stay then some r else rest.find? (·.svc)

/-- The request whose turn it is leaves the bridge, or one word of it is performed; nothing happens where it must stay or the
bridge is empty (R284). -/
def bridgeStep (w : Work) (b : Nat) : Work :=
  match bridgeNext w.ctl b with
  | none => w
  | some r =>
    letThrough w b r (fun w more => updBridge w b (fun B => { B with fifo := replaceReq r more B.fifo })) (verdict w.ctl b r)

/-- The oldest request of a replay queue whose unit is no longer under copy is released in arrival order: to its new home, or
to this one where it is that (R72, R432), or into the hold store where its extent has been revoked since (R374). -/
def replayStep (w : Work) (b : Nat) : Work :=
  match (bridgeOf w.ctl b).replay with
  | [] => w
  | r :: _ =>
    let put := fun (w : Work) (more : List Req) =>
      updBridge (if more = [] then heldOver w r else w) b (fun B => { B with replay := replaceReq r more B.replay })
    if w.ctl.repair.copying = some (r.addr % 2 ^ 44 / 2 ^ 20) then w else letThrough w b r put (revokedOr w.ctl b r (moveVerdict w.ctl b r []))

/-- The oldest request of a hold store whose extent is no longer revoked, and before which no request of its granule is held,
is released (R72, R374, R375). -/
def holdNext (c : Ctl) : List Req → List Req → Option Req
  | _, [] => none
  | before, r :: rest =>
    if !extRevoked c r && !before.any (sameGranule r) then some r else holdNext c (before ++ [r]) rest

/-- Its release: R433 applies to it (R435). -/
def holdStep (w : Work) (b : Nat) : Work :=
  match holdNext w.ctl [] (bridgeOf w.ctl b).held with
  | none => w
  | some r =>
    let put := fun (w : Work) (more : List Req) =>
      updBridge (if more = [] then heldOver w r else w) b (fun B => { B with held := replaceReq r more B.held })
    letThrough w b r put (moveVerdict w.ctl b r [])

/-! ## Sending -/

/-- Requests that travel or stand at a bridge. -/
def routed (c : Ctl) : List Req :=
  (c.net.hops.map (·.reqs)).flatten ++ (c.net.bridges.map (fun b => b.2.fifo ++ b.2.replay ++ b.2.held)).flatten

/-- Whether a request is what is left of an access some words of which have been performed: of one message, or of the messages of one
vector load (R460: an access is performed whole under one mapping). -/
def partDone (c : Ctl) (r : Req) : Bool :=
  decide (r.whole ≠ 0) ||
    (match r.acc with
    | .read n => decide (8 < n) && decide (r.t < 16) &&
        decide ((((routed c).filter (fun q => q.id == r.id && q.g == r.g && q.t == r.t)).map (fun q => accLen q.acc)).sum < 256)
    | _ => false)

/-- Whether no request to the same granule is still on another route: one chosen by another mapping, or sent again (R286,
R289, R303). The service lane waits for its own only. -/
def routeSettled (c : Ctl) (r : Req) : Bool :=
  decide (scrBase ≤ r.addr) || (c.net.hops = [] && c.net.bridges = []) ||
    (routed c).all (fun q => !(sameGranule q r && q.svc == r.svc && (q.resent || decide (q.stack ≠ r.stack))))

/-- Whether every queue on the way is empty and the home would perform the request at once.
(DESIGN CHOICE, log entry 10.) -/
def pathClear (c : Ctl) (r : Req) : Bool :=
  let home := homeOf c r
  (c.net.hops = [] || (hopPath c r.g home).all (fun h => hopReqs c.net h home = [])) && routeSettled c r && !egressHeldFor c r home &&
  match home with
  | .glade t =>
    (decide (t = r.g) || (!guardDrops c r home && (gladeOf c t).inbox = [] && (gladeOf c t).rmq = [])) &&
      (splitMsg r).all (banksEmpty c t)
  | .package _ => false
  | h => (bridgeOf c (bridgeNo c r.g h)).fifo = [] && decide ((bridgeOf c (bridgeNo c r.g h)).replay.length < Config.replayDepth) && decide (verdict c (bridgeNo c r.g h) r = .perform)

/-- Perform a request now, piece by piece; a message gives its credit back (R311, R312). -/
def performNow (w : Work) (r : Req) : Work :=
  let ps := splitMsg r
  let home := homeOf w.ctl r
  let w := ps.foldl performReq (morePieces w r (ps.length - 1))
  match home with
  | .glade t => if r.sp = .rscr then addCredits w r.g t 1 else w
  | _ => w

/-- A request enters the queues of every bank it touches at glade `t`; a message's credit starts back (R311, R312). -/
def enterBanks (w : Work) (t : Nat) (r : Req) : Work :=
  let ps := splitMsg r
  let w := ps.foldl (fun w p => bankPush w t p) (morePieces w r (ps.length - 1))
  if r.sp = .rscr then updGlade w t (fun G => { G with returns := Tab.set G.returns r.g (Tab.getD G.returns r.g 0 + 1) }) else w

/-- Put a request into its first queue (R285): one whose home lies in its own glade enters the home's bank queue, by whatever
space it names it (R305). -/
def enterRoute (w : Work) (r : Req) : Work :=
  match homeOf w.ctl r with
  | .glade t => if t = r.g then enterBanks w t r else hopPush w (.gladeRouter r.g) (.glade t) r
  | home => hopPush w (.gladeRouter r.g) home r

/-- Whether a request can enter its first queue. -/
def canEnter (c : Ctl) (r : Req) : Bool :=
  let r := reroute c r
  match homeOf c r with
  | .glade t => decide (t ≠ r.g) || (splitMsg r).all (banksRoom c t)
  | _ => routeSettled c r

/-- Send a request: performed at once where nothing stands on its way and the model does not hold it back.
(DESIGN CHOICE, log entry 10.) -/
def send (w : Work) (r : Req) : Work :=
  let r := reroute w.ctl r
  if !w.ctl.model.defer && pathClear w.ctl r then performNow w r else enterRoute w r

/-- The words of virtual channels at a hop on the way to a glade, oldest of each binding first (R68). -/
def flyAt (c : Ctl) (h : Hop) (d : Nat) : List Fly := c.net.fly.filter (fun f => decide (f.hop = some h) && f.dst == d)

/-- The oldest word of a virtual channel at a hop goes on; past the last hop it stands at its receiver's door. -/
def flyStep (w : Work) (h : Hop) (home : Home) : Work :=
  match home with
  | .glade d =>
    match flyAt w.ctl h d with
    | [] => w
    | f :: _ =>
      let k := match nextHop w.ctl home h with
        | some (.gladeIn _) => none
        | k => k
      updNetC w (fun n => { n with fly := n.fly.takeWhile (· != f) ++ [{ f with hop := k }] ++ (n.fly.dropWhile (· != f)).tail })
  | _ => w

/-- Whether a bridge accepts entries: its FIFO has room, and so has its replay queue (R25, R71, R72). -/
def bridgeRoom (c : Ctl) (b : Nat) : Bool :=
  decide ((bridgeOf c b).fifo.length < Config.bridgeDepth) && decide ((bridgeOf c b).replay.length < Config.replayDepth)

/-- The last hop: the bridge takes the head while it accepts entries (R25, R71, R72); behind a head that waits for room the first of
the service lane of R375 passes, one of its lane at a time beyond the bridge's 16 entries. No rule gives the lane's depth.
(DESIGN CHOICE, log entry 87.) -/
def enterBridge (w : Work) (h : Hop) (home : Home) (r : Req) (rest : List Req) : Work :=
  let b := bridgeAtHop h home
  let fifo := (bridgeOf w.ctl b).fifo
  let put := fun (w : Work) (r : Req) (l : List Req) =>
    updBridge (updNetC w (fun n => hopSet n h home l)) b (fun B => { B with fifo := B.fifo ++ [r] })
  if bridgeRoom w.ctl b then put w r rest
  else
    match (r :: rest).find? (·.svc) with
    | some s => if fifo.any (·.svc) then w else put w s ((r :: rest).filter (· != s))
    | none => w

/-- One hop of the head of a FIFO (R285): to the next hop, or to the queue or bridge of its home. -/
def hopStep (w : Work) (h : Hop) (home : Home) : Work :=
  match hopReqs w.ctl.net h home with
  | [] => flyStep w h home
  | r :: rest =>
    let pop := fun (w : Work) => updNetC w (fun n => hopSet n h home rest)
    match nextHop w.ctl home h with
    | some k =>
      if guardAt h r && egressHeldFor w.ctl r home then w
      else if guardAt h r && guardDrops w.ctl r home then dropReq (pop w) r home
      else hopPush (pop w) k home r
    | none =>
      match home with
      | .glade t => updGlade (pop w) t (fun G => { G with inbox := G.inbox ++ [r] })
      | _ => enterBridge w h home r rest

/-! ## The remote message queue and the banks (R307, R308, R311) -/

def rmqArrive (w : Work) (g : Nat) : Work :=
  match (gladeOf w.ctl g).inbox with
  | [] => w
  | r :: rest =>
    if (gladeOf w.ctl g).rmq.length < Config.rmqDepth then
      let w := updGlade w g (fun G => { G with inbox := rest, rmq := G.rmq ++ [r] })
      sample w g 9 (gladeOf w.ctl g).rmq.length
    else w

/-- The head message enters the queues of every bank it touches, and its entry's credit starts back. -/
def rmqDispatch (w : Work) (g : Nat) : Work :=
  match (gladeOf w.ctl g).rmq with
  | [] => w
  | r :: rest =>
    if (splitMsg r).all (banksRoom w.ctl g) then enterBanks (updGlade w g (fun G => { G with rmq := rest })) g r else w

def creditReceive (w : Work) (g target : Nat) : Work :=
  let n := Tab.getD (gladeOf w.ctl target).returns g 0
  if n = 0 then w
  else addCredits (updGlade w target (fun G => { G with returns := Tab.del G.returns g })) g target n

/-- What a bank step performs with its head: on a fleeting bank the lanes of one load that lie in one tile are tested in one
step (R135, R138, R301). -/
def bankMates (r : Req) (l : List Req) : List Req :=
  match whereIs r.addr, r.acc with
  | .flt _ _, .read _ | .flt _ _, .fwd _ =>
    if 16 ≤ r.t then [r]
    else l.filter (fun q => decide (q.id = r.id) && decide (q.g = r.g) && decide (q.t = r.t) && decide (q.addr / 4096 = r.addr / 4096))
  | _, _ => [r]

/-- The head of a bank queue is performed when it stands at the head of every queue it is in (R307, R308). -/
def bankStep (w : Work) (g b : Nat) : Work :=
  match bankQ w.ctl g b with
  | [] => w
  | r :: rest =>
    if (bankKeys r).all (fun k => (bankQ w.ctl g k).head? = some r) then
      match bankMates r (r :: rest) with
      | [_] => performReq ((bankKeys r).foldl (fun w k => setBankQ w g k (bankQ w.ctl g k).tail) w) r
      | l => l.foldl performReq (setBankQ w g b (rest.filter (fun q => !l.contains q)))
    else w

/-! ## The store queue (R289, R290) -/

/-- No load of a task has words still to send: its later accesses go after them (R289). -/
def allSent (T : Task) : Bool := T.fl.outs.all (fun o => o.todo = [])

/-- The next word of a vector load that is sent word by word. -/
def loadStep (w : Work) (g t : Nat) : Work :=
  match (taskOf w.ctl g t).fl.outs.find? (fun o => o.todo ≠ []) with
  | none => w
  | some o =>
    match o.todo with
    | [] => w
    | r :: rest => if canEnter w.ctl r then send (updOut w g t o.id (fun o => { o with todo := rest })) r else w

/-- Whether the head of SQ(t) may drain: what its release waits for is performed at its scope, and its first queues
have room. -/
def drainReady (c : Ctl) (T : Task) : Bool :=
  match T.fl.sq with
  | [] => false
  | e :: _ => allSent T && e.waitFor.all (performedAt T e.scope) && e.reqs.all (canEnter c)

def drainStep (w : Work) (g t : Nat) : Work :=
  let T := taskOf w.ctl g t
  match T.fl.sq with
  | [] => w
  | e :: rest =>
    if drainReady w.ctl T then
      e.reqs.foldl send (updTask w g t (fun T => { T with fl := { T.fl with sq := rest } }))
    else w

/-- The byte SQ(t) holds for a location, with the entry it comes from: the youngest store to it. -/
def sqByte : List SqEntry → Nat → Option (Nat × Byte)
  | [], _ => none
  | e :: r, a =>
    match sqByte r a with
    | some x => some x
    | none =>
      (e.reqs.reverse.findSome? (fun q =>
        match q.acc with
        | .write bs => if q.addr ≤ a then (bs[a - q.addr]?).map (fun b => (e.id, b)) else none
        | _ => none))

/-- The stores in SQ(t) that share a byte with a load. -/
def sqSharers (sq : List SqEntry) (locs : List Nat) : List Nat :=
  (((sq.map (·.reqs)).flatten).filter (fun q => locs.any (fun a => decide (q.addr ≤ a) && decide (a < q.addr + accLen q.acc)))).map (·.id)

/-- The entries a load is served from are marked (R297). -/
def markFwd (sq : List SqEntry) (locs : List Nat) : List SqEntry :=
  sq.map (fun e => if sqSharers [e] locs = [] then e else { e with fwd := true })

/-- How SQ(t) meets a load (R289). -/
inductive Cover where
  | none | whole (bytes : List Byte) | part
deriving DecidableEq, Repr

def sqCover (sq : List SqEntry) (locs : List Nat) : Cover :=
  if sq = [] then .none else
  let l := locs.map (sqByte sq)
  if l.all (·.isNone) then .none
  else
    match l.head? with
    | some (some (id, _)) =>
      if l.all (fun x => x.map (·.1) == some id) then .whole (l.map (fun x => (x.map (·.2)).getD 0)) else .part
    | _ => .part

end Sys2Proof.Machine
end

