-- ==== Sys2Proof/Machine/Operands.lean ====
section
/-! DEFINITION. The operand forms: addresses in the five spaces with their checks (R102, R124), immediates, lanes, and
how a task's load, store or atomic is issued (R289, R290). -/
namespace Sys2Proof.Machine

/-! ## Immediates -/

def immS (i : BitVec 32) : Word := i.signExtend 64
/-- The second operand of IALUI (R108): the shifts use IMM[5:0], the rest SignExt(IMM). -/
def immShift (i : BitVec 32) : Word := (i.extractLsb' 0 6).setWidth 64
/-- A branch target (R114). -/
def branchTo (pc : Word) (off : BitVec 32) : Word := pc + 8 * immS off

/-- The word of an instruction, for EVAL (R101). -/
def wordOf (i : Instr) : Word := ((encode i)[0]?).getD 0

/-! ## Addresses -/

def spNat : Space → Nat
  | .dev => 0
  | .scr => 1
  | .rscr => 2
  | .flt => 3
def sizeOfSz : Size → Nat
  | .byte => 1
  | .half => 2
  | .word => 4
  | .dword => 8

/-- A cause found by a check of an address (R101); code 0 that the check has to wait (R436). -/
structure Trapped where
  code   : Nat
  eaddr  : Word
  eval   : Word
  detail : Nat
deriving DecidableEq, Repr

/-- Glades of a launch. -/
def gladesOf (r : LRec) : Nat := r.stages * r.groves * r.glades

/-- The physical glade that logical glade `l` of the task's launch is (R19, R124). -/
def physOf (c : Ctl) (p n l : Nat) : Option Nat :=
  match launchOf c p n with
  | none => none
  | some L => if l < gladesOf L.rec_ then Tab.find L.map l else none

def myPhys (w : Work) (l : Nat) : Option Nat :=
  if (me w).sys.priv = 0 then physOf w.ctl (me w).sys.part (me w).sys.launch l else none

/-- BOUND for `n` bytes at `ea` (R98, R124, R134). -/
def boundOf (w : Work) (sp : Space) (ea n : Nat) : Option Trapped :=
  let t := fun d => some { code := 4, eaddr := w64 ea, eval := w64 (spNat sp), detail := d }
  match sp with
  | .dev => none
  | .scr => if Config.scrSize < ea + n then t 0 else none
  | .flt => if Config.fltSize < ea + n then t 0 else none
  | .rscr =>
    if Config.scrSize < ea % 2 ^ 21 + n then t 1
    else if 2 ^ 29 ≤ ea ∨ (myPhys w (bits ea 28 21)).isNone then t 2
    else none

def xTrap (ea : Nat) : XErr → Trapped
  | .lease d => { code := 5, eaddr := w64 ea, eval := 0, detail := d }
  | .memrange pa => { code := 0x11, eaddr := w64 ea, eval := w64 pa, detail := 0 }
  | .memunc _ d => { code := 0xB, eaddr := w64 ea, eval := 0, detail := d }
  | .wait => { code := 0, eaddr := w64 ea, eval := 0, detail := 0 }

/-- LEASE, MEMRANGE and a translation's MEMUNC of a device address, or the flat location of any address that passed BOUND. -/
def placeOf (w : Work) (sp : Space) (ea : Nat) (need : Need) : Except Trapped Xlate × Work :=
  match sp with
  | .dev =>
    match checkDev w (curG w) (curT w) ea need with
    | (.ok x, w) => (.ok x, w)
    | (.error e, w) => (.error (xTrap ea e), xMet w (me w).sys.launch e)
  | .scr => (.ok { addr := scrAt (curG w) ea, key := 0, ext := none, svc := false }, w)
  | .flt => (.ok { addr := fltAt (curG w) ea, key := 0, ext := none, svc := false }, w)
  | .rscr => (.ok { addr := scrAt ((myPhys w (bits ea 28 21)).getD 0) (ea % 2 ^ 21), key := 0, ext := none, svc := false }, w)

/-- MISALIGN, BOUND, LEASE, MEMRANGE of one access in the order of R102. -/
def locate (w : Work) (sp : Space) (ea : Word) (n align : Nat) (need : Need) : Except Trapped Xlate × Work :=
  if ea.toNat % align ≠ 0 then (.error { code := 3, eaddr := ea, eval := w64 n, detail := 0 }, w)
  else
    match boundOf w sp ea.toNat n with
    | some t => (.error t, w)
    | none => placeOf w sp ea.toNat need

/-- Raise what a check found, or wait with it. -/
def trapWith (w : Work) (m : Marks) (t : Trapped) : Work :=
  if t.code = 0 then notReady m w else trapOwn w m t.code t.eaddr t.eval t.detail

/-! ## Requests of the current task -/

/-- A request of task `t` of glade `g`. -/
def taskReq (w : Work) (g t id : Nat) (sp : Space) (va : Nat) (x : Xlate) (acc : Access) (ln : Nat) : Req :=
  let T := taskOf w.ctl g t
  { id := id, g := g, t := t, sp := sp, addr := x.addr, va := va, acc := acc, lane := ln
    part := T.sys.part, launch := T.sys.launch, ext := x.ext, key := x.key, svc := x.svc || decide (T.sys.priv ≠ 0)
    stack := if x.addr < hostBase then stackOf w.ctl (x.addr % 2 ^ 44) else 0, born := w.ctl.tick, heldAt := 0
    mon := decide (T.sys.priv = 2) }

def mkReq (w : Work) (id : Nat) (sp : Space) (va : Nat) (x : Xlate) (acc : Access) (ln : Nat) : Req :=
  taskReq w (curG w) (curT w) id sp va x acc ln

/-- The later part of an access: the same translation, `k` bytes on (R322: one page). -/
def Xlate.plus (x : Xlate) (k : Nat) : Xlate := { x with addr := x.addr + k }

/-- What an access is to a guard: 0 a load, 1 a store, 2 an atomic or barrier operation. -/
abbrev AccKind := Nat

/-- Whether every guard of R290 and R213 lets the next access issue. -/
def guardsOpen (T : Task) (k : AccKind) : Bool :=
  T.fl.guards.all (fun g =>
    (decide (g.covers = 1) && decide (k = 0)) || (decide (g.covers = 2) && decide (k ≠ 1)) || g.ids.all (performedAt T g.scope))

/-- Credits needed per target by a list of messages are at hand (R128, R136, R139). -/
def creditsFor (w : Work) (reqs : List Req) : Bool :=
  reqs.all (fun r => match r.sp, whereIs r.addr with
    | .rscr, .scr t _ =>
      decide ((reqs.filter (fun q => whereIs q.addr = .scr t (q.addr % 2 ^ 21))).length ≤ creditsOf w.ctl (curG w) t)
    | _, _ => true)

def takeCredits (w : Work) (reqs : List Req) : Work :=
  reqs.foldl (fun w r => match r.sp, whereIs r.addr with
    | .rscr, .scr t _ => spendCredits w (curG w) t 1
    | _, _ => w) w

def longLatency (sp : Space) : Bool := decide (sp = .dev) || decide (sp = .rscr)
/-- R83: device and remote results behave as GAP 0. -/
def gapFor (m : Marks) (sp : Space) : Nat := if longLatency sp then 0 else m.gap.toNat

def isAcq (o : Order) : Bool := decide (o = .acq) || decide (o = .acqrel)
def isRel (o : Order) : Bool := decide (o = .rel) || decide (o = .acqrel)

/-- Ids of the task's accesses in flight. -/
def allIds (T : Task) : List Nat := T.fl.outs.map (·.id)

/-- The space a request counts in: SP 2 to the own glade is its scratchpad (R305). -/
def homeSp (r : Req) : Space := if r.sp = .rscr ∧ gladeAt r.addr = some r.g then .scr else r.sp

/-- Issue a load, atomic or bank step of the task whose checks have passed: the record of the access, its acquire
guard, then its requests. `now` performs them in this step; a vector load of the scratchpad that the model does not perform at once
sends its words one after the other (R141, R356). -/
def issueAccess (w : Work) (m : Marks) (id : Nat) (dest : Dest) (sp : Space) (gap : Nat) (atom fe acq now : Bool)
    (reqs : List Req) : Work :=
  let o : Out := { id := id, store := false, atom := atom, lvl := 0, left := reqs.length, stage := 0, bad := none
                   dest := dest, gap := gap, pc := (me w).pc, fe := fe
                   sp := if reqs.any (fun r => decide (homeSp r ≠ r.sp)) then .scr else sp }
  let w := updMyFl w (fun f => { f with
    outs := f.outs ++ [o]
    guards := if acq then f.guards ++ [{ ids := [id], scope := 7, covers := 0 }] else f.guards })
  let w := next m (takeCredits w reqs)
  if reqs = [] then settle w (curG w) (curT w) o
  else if !now && o.sp = .scr && w.ctl.model.defer && decide (1 < reqs.length) then
    updOut w (curG w) (curT w) id (fun o => { o with todo := reqs })
  else reqs.foldl (if now then performNow else send) w

/-- The pieces of a load from `x`: `n` bytes in steps of `k`, or the bytes SQ(t) holds. -/
def loadPieces (w : Work) (id : Nat) (sp : Space) (va : Nat) (x : Xlate) (n k : Nat) (cov : Cover) : List Req :=
  (List.range (n / k)).map (fun i =>
    let acc := match cov with
      | .whole bs => Access.fwd ((bs.drop (k * i)).take k)
      | _ => Access.read k
    mkReq w id sp (va + k * i) (x.plus (k * i)) acc (8 * k * i))

def locsFrom (a n : Nat) : List Nat := (List.range n).map (a + ·)

/-- Whether the next access of the current task may issue by its guards and rooms. -/
def mayIssue (w : Work) (k : AccKind) (reqs : List Req) : Bool :=
  guardsOpen (me w) k && allSent (me w) && reqs.all (canEnter w.ctl) && creditsFor w reqs

/-- A load whose bytes SQ(t) holds in part waits until the stores that share a byte with it are performed at their homes
(R289): the machine while it waits. -/
def shareWait (w : Work) (cov : Cover) (locs : List Nat) : Option Work :=
  if cov = .part then some (updMyFl w (fun f => { f with behind := sqSharers f.sq locs }))
  else if (me w).fl.behind.any (fun i => (findOut (me w) i).isSome) then some w else none

/-- A load served from SQ(t) marks the entries it read (R297). -/
def serveMark (w : Work) (cov : Cover) (locs : List Nat) : Work :=
  match cov with
  | .whole _ => updMyFl w (fun f => { f with sq := markFwd f.sq locs })
  | _ => w

/-- A load of `n` bytes from a checked place, in steps of `k` bytes (R125, R135, R289). A fleeting vector load whose way is clear
tests every tile at the tick of its issue; queued, it tests each tile at that tile's bank. (DESIGN CHOICE, log entry 10.) -/
def loadFrom (w : Work) (m : Marks) (dest : Dest) (sp : Space) (va : Nat) (x : Xlate) (n k : Nat) (acq : Bool) : Work :=
  let locs := locsFrom x.addr n
  let cov := sqCover (me w).fl.sq locs
  match shareWait w cov locs with
  | some w => notReady m w
  | none =>
    let (id, w') := newId w
    let reqs := loadPieces w id sp va x n k cov
    if mayIssue w 0 reqs = false then notReady m w
    else
      let fwdNow := match cov with
        | .whole _ => decide (sp ≠ .flt)
        | _ => false
      issueAccess (serveMark w' cov locs) m id dest sp (gapFor m sp) false (decide (sp = .flt)) acq fwdNow reqs

/-- The store requests of `bs` at a place in steps of `k` bytes, one access each, entered as one SQ entry (R126, R136). -/
def storePieces (w : Work) (id0 : Nat) (sp : Space) (va : Nat) (x : Xlate) (bs : List Byte) (k : Nat) : List Req :=
  (List.range (bs.length / k)).map (fun i =>
    mkReq w (id0 + i) sp (va + k * i) (x.plus (k * i)) (.write ((bs.drop (k * i)).take k)) 0)

def storeOut (pc : Word) (r : Req) : Out :=
  { id := r.id, store := true, atom := false, lvl := 0, left := 1, stage := 0, bad := none, dest := .none, gap := 0
    pc := pc, fe := false, sp := homeSp r }

/-- Commit stores: SQ(t) takes one entry (R126, R285). Credits of remote stores are spent here (R128). -/
def commitStore (w : Work) (m : Marks) (rel : Option Nat) (reqs : List Req) : Work :=
  if mayIssue w 1 reqs = false then notReady m w
  else
    let T := me w
    let e : SqEntry := { id := (reqs.head?.map (·.id)).getD 0, reqs := reqs
                         waitFor := if rel.isSome then allIds T else [], scope := rel.getD 0 }
    let w := updModel w (fun x => { x with nextId := x.nextId + reqs.length })
    let w := updMyFl w (fun f => { f with sq := f.sq ++ [e], outs := f.outs ++ reqs.map (storeOut T.pc) })
    next m (takeCredits w reqs)

def curId (w : Work) : Nat := w.ctl.model.nextId

/-- What a vector access sends by space: words to the banks of the glade, messages of 64 bytes to a remote scratchpad (R136,
R310), flits of 64 bytes to a bridge (R25); its home performs a word at a step (R292). -/
def vecStep (sp : Space) : Nat := if sp = .rscr ∨ sp = .dev then 64 else 4

end Sys2Proof.Machine
end

