-- ==== Sys2Proof/Machine/Keys.lean ====
section
/-! DEFINITION. Keys: fields, elements, the checks of R164 and R463, footprints, and the keyring instructions (R162 to
R170). -/
namespace Sys2Proof.Machine

/-! ## Fields (R162) -/

def kWord (k : Key) (i : Nat) : Nat := k.toNat / 2 ^ (32 * i) % 2 ^ 32
def kValid (k : Key) : Bool := (kWord k 0).testBit 31
def kScaleFmt (k : Key) : Nat := bits (kWord k 0) 19 16
def kPacked (k : Key) : Bool := (kWord k 0).testBit 14
def kTrans (k : Key) : Bool := (kWord k 0).testBit 13
/-- r = RANK + 1. -/
def kRank (k : Key) : Nat := bits (kWord k 0) 12 11 + 1
def kSpace (k : Key) : Nat := bits (kWord k 0) 10 8
def kFmt (k : Key) : Nat := bits (kWord k 0) 7 0
def kBase (k : Key) : Nat := kWord k 1 + kWord k 2 * 2 ^ 32
def kDim (k : Key) (n : Nat) : Nat := if n < kRank k then kWord k (3 + n) else 1
/-- STRIDE1 to STRIDE3 for n = 1 to 3. -/
def kStride (k : Key) (n : Nat) : Nat := if n < kRank k then kWord k (6 + n) else 0
def kScaleBase (k : Key) : Nat := kWord k 10 + kWord k 11 * 2 ^ 32
def kSStride (k : Key) : Nat := kWord k 12
def kMetaBase (k : Key) : Nat := kWord k 13 + kWord k 14 * 2 ^ 32
def kQb (k : Key) : Bool := (kWord k 15).testBit 31
def kQadv (k : Key) : Bool := (kWord k 15).testBit 30
def kQent (k : Key) : Nat := bits (kWord k 15) 21 16
def kQk (k : Key) : Nat := bits (kWord k 15) 11 0

/-- The key with another BASE: the slot a buffer-bound command uses (R166). -/
def kSetBase (k : Key) (b : Nat) : Key :=
  BitVec.ofNat 512 (k.toNat - kBase k * 2 ^ 32 + b % 2 ^ 64 * 2 ^ 32)
/-- The key with VALID clear. -/
def kInvalid (k : Key) : Key := k &&& ~~~(1#512 <<< 31)
/-- The key with word `i` replaced. -/
def kSetWord (k : Key) (i v : Nat) : Key :=
  BitVec.ofNat 512 (k.toNat - kWord k i * 2 ^ (32 * i) + v % 2 ^ 32 * 2 ^ (32 * i))

/-! ## Formats (R32) -/

/-- Bits of an element; none for an unassigned code. -/
def fmtBits (f : Nat) : Option Nat :=
  if f = 0x01 ∨ f = 0x10 ∨ f = 0x11 ∨ f = 0x18 ∨ f = 0x30 then some 8
  else if f = 0x12 ∨ f = 0x19 then some 4
  else if f = 0x20 then some 16
  else if f = 0x02 ∨ f = 0x21 then some 32
  else if f = 0x03 ∨ f = 0x22 then some 64
  else none
def isMx (f : Nat) : Bool := decide (f = 0x18) || decide (f = 0x19)
def kBits (k : Key) : Nat := (fmtBits (kFmt k)).getD 8
/-- Alignment of an element: 1 for FP4. -/
def kAlign (k : Key) : Nat := if kBits k < 8 then 1 else kBits k / 8

/-! ## Elements (R163) -/

/-- Logical extents. -/
def kDims (k : Key) : List Nat :=
  let s := (List.range (kRank k)).map (kDim k)
  match s with
  | a :: b :: r => if kTrans k then b :: a :: r else s
  | _ => s
def kCount (k : Key) : Nat := (kDims k).foldl (· * ·) 1
/-- Logical extent `n`, 1 past the rank. -/
def kLog (k : Key) (n : Nat) : Nat := ((kDims k)[n]?).getD 1

/-- Coordinates of linear element `e`, first extent fastest. -/
def coordsOf : List Nat → Nat → List Nat
  | [], _ => []
  | d :: r, e => (if d = 0 then 0 else e % d) :: coordsOf r (if d = 0 then 0 else e / d)

/-- Stored coordinates of logical coordinates. -/
def kStored (k : Key) (l : List Nat) : List Nat :=
  match l with
  | a :: b :: r => if kTrans k then b :: a :: r else l
  | _ => l

def nth (l : List Nat) (i : Nat) : Nat := (l[i]?).getD 0

/-- Byte address of a stored element relative to BASE, and whether it is the high nibble. -/
def kOffset (k : Key) (s : List Nat) : Nat × Bool :=
  let e := kBits k
  let o0 := if e < 8 then nth s 0 / 2 else nth s 0 * (e / 8)
  (o0 + nth s 1 * kStride k 1 + nth s 2 * kStride k 2 + nth s 3 * kStride k 3, decide (e < 8) && decide (nth s 0 % 2 = 1))

/-- Address of the E8M0 scale of a stored element. -/
def kScaleAt (k : Key) (s : List Nat) : Nat := kScaleBase k + nth s 0 / 32 + nth s 1 * kSStride k

/-- Blocks of 32 in one stored row, and rows (R185). -/
def kRowBlocks (k : Key) : Nat := ceilDiv (kDim k 0) 32
def kRows (k : Key) : Nat := kDim k 1 * kDim k 2 * kDim k 3
def kBlocks (k : Key) : Nat := kRowBlocks k * kRows k
/-- The packed bound (R185). -/
def packedBound (k : Key) : Nat := kBlocks k * (4 + roundUp (ceilDiv (32 * kBits k) 8) 4)

/-- Bytes of a dense key's elements from BASE on. -/
def kSpan (k : Key) : Nat :=
  if kCount k = 0 then 0
  else
    let e := kBits k
    let row := if e < 8 then (kDim k 0 - 1) / 2 + 1 else kDim k 0 * (e / 8)
    row + (kDim k 1 - 1) * kStride k 1 + (kDim k 2 - 1) * kStride k 2 + (kDim k 3 - 1) * kStride k 3

/-- The ranges a key addresses: elements, scales, metadata (R164). -/
def kRanges (k : Key) : List (Nat × Nat) :=
  if kPacked k then
    (if kBlocks k = 0 then [] else [(kBase k, packedBound k), (kMetaBase k, 4 * ceilDiv (kBlocks k) 32)])
  else if kCount k = 0 then []
  else if isMx (kFmt k) then
    [(kBase k, kSpan k), (kScaleBase k, (kDim k 0 - 1) / 32 + (kDim k 1 - 1) * kSStride k + 1)]
  else [(kBase k, kSpan k)]

/-- The footprint: every byte from the lowest to the highest that the ranges address (R164). -/
def kFoot (k : Key) : List (Nat × Nat) :=
  match kRanges k with
  | [] => []
  | r :: l =>
    let lo := l.foldl (fun m q => Nat.min m q.1) r.1
    [(lo, l.foldl (fun m q => Nat.max m (q.1 + q.2)) (r.1 + r.2) - lo)]

/-! ## The buffer table (R153) -/

def bufOf (c : Ctl) (g e : Nat) : Buf := Tab.getD (gladeOf c g).ctx.eng.bufs e Buf.zero
def updBuf (w : Work) (g e : Nat) (f : Buf → Buf) : Work :=
  updEng w g (fun x => { x with bufs := Tab.set x.bufs e (f (Tab.getD x.bufs e Buf.zero)) })

/-! ## Roles and KEYSHAPE (R164) -/

/-- What a role accepts: formats, spaces, packing (0 no, 1 may, 2 must), and the TRANS it requires. -/
structure Role where
  fmts   : List Nat
  spaces : List Nat
  packed : Nat
  trans  : Option Bool
  need   : Need
deriving DecidableEq, Repr

def allFmts : List Nat := [0x01, 0x02, 0x03, 0x10, 0x11, 0x12, 0x18, 0x19, 0x20, 0x21, 0x22, 0x30]
def packFmts : List Nat := [0x01, 0x10, 0x11, 0x12, 0x20, 0x21]

def spaceOfKey (n : Nat) : Space :=
  match n with
  | 0 => .dev
  | 1 => .scr
  | 2 => .rscr
  | _ => .flt

/-- Whether a condition of one row of R164's table holds for a key in a role. (DEDUCED, log entry 54.) -/
def shapeRow (c : Ctl) (g : Nat) (k : Key) (r : Role) : Nat → Bool
  | 0 => decide (kWord k 0 &&& 0x7FF08000 ≠ 0) || decide (kWord k 15 &&& 0x3FC0F000 ≠ 0) ||
      (fmtBits (kFmt k)).isNone || decide (4 < kSpace k) || decide (1 < kScaleFmt k)
  | 1 => !r.fmts.contains (kFmt k) || !r.spaces.contains (kSpace k) ||
      decide (kScaleFmt k ≠ if isMx (kFmt k) then 1 else 0) ||
      (kPacked k && (isMx (kFmt k) || decide (r.packed = 0) || !packFmts.contains (kFmt k))) ||
      (!kPacked k && decide (r.packed = 2))
  | 2 => (isMx (kFmt k) && decide (2 < kRank k)) || (kTrans k && decide (kRank k < 2)) ||
      (match r.trans with
        | some t => kTrans k != t
        | none => false) ||
      (kPacked k && (decide (kWord k 7 ≠ 0) || decide (kWord k 8 ≠ 0) || decide (kWord k 9 ≠ 0)))
  | 3 => (decide (kSpace k ≠ 4) && decide (kBase k % kAlign k ≠ 0)) || decide (kMetaBase k % 4 ≠ 0) ||
      decide (kStride k 1 % kAlign k ≠ 0) || decide (kStride k 2 % kAlign k ≠ 0) || decide (kStride k 3 % kAlign k ≠ 0)
  | 4 => kQb k &&
      (let b := bufOf c g (kQent k)
       decide (b.count = 0) || decide (b.slot < if kPacked k then packedBound k else kSpan k) || decide (b.count ≤ kQk k) ||
         decide (kSpace k ≠ b.space))
  | _ => decide (kSpace k = 4) &&
      (decide (8 ≤ kBase k) || decide (kWord k 7 ≠ 0) || decide (kWord k 8 ≠ 0) || decide (kWord k 9 ≠ 0) ||
        decide (kRank k ≠ 2) || decide (128 < kDim k 0) || decide (128 < kDim k 1) ||
        ((decide (kFmt k = 3) || decide (kFmt k = 0x22)) && decide (kBase k % 2 = 1)))

/-- The lowest DETAIL that holds, the relations of R463 included. -/
def shapeDetail (c : Ctl) (g : Nat) (k : Key) (r : Role) (rel : List Nat) : Option Nat :=
  (List.range 6).find? (fun d => shapeRow c g k r d || rel.contains d)

/-! ## Footprints (R164) -/

/-- The lowest address of a range that lies outside its space (R124, R164), with its BOUND DETAIL. -/
def rangeBound (w : Work) (sp : Space) (lo n : Nat) : Option (Nat × Nat) :=
  match sp with
  | .dev => none
  | .scr => if Config.scrSize < lo + n then some (Nat.max lo Config.scrSize, 0) else none
  | .flt => if Config.fltSize < lo + n then some (Nat.max lo Config.fltSize, 0) else none
  | .rscr =>
    if Config.scrSize ≤ lo % 2 ^ 21 then some (lo, 1)
    else if 2 ^ 29 ≤ lo ∨ (myPhys w (bits lo 28 21)).isNone then some (lo, 2)
    else if Config.scrSize < lo % 2 ^ 21 + n then some (lo - lo % 2 ^ 21 + Config.scrSize, 1)
    else none

/-- The lowest address of a device range without its permission (`mem` false) or beyond CAPACITY (`mem` true), page by
page from `a` to `hi`. -/
def rangeFault (w : Work) (need : Need) (mem : Bool) (hi : Nat) : Nat → Nat → Option Trapped
  | 0, _ => none
  | fuel + 1, a =>
    if hi ≤ a then none
    else
      match (checkDev w (curG w) (curT w) a need).1 with
      | .error (.lease d) =>
        if mem then rangeFault w need mem hi fuel ((a / 65536 + 1) * 65536) else some (xTrap a (.lease d))
      | .error (.memrange pa) =>
        if mem then some (xTrap a (.memrange pa)) else rangeFault w need mem hi fuel ((a / 65536 + 1) * 65536)
      | .error .wait => some (xTrap a .wait)
      | .ok _ | .error (.memunc _ _) => rangeFault w need mem hi fuel ((a / 65536 + 1) * 65536)

/-- The lowest of several addresses. -/
def lowest (l : List Trapped) : Option Trapped :=
  l.foldl (fun m t => match m with
    | none => some t
    | some u => if t.eaddr.toNat < u.eaddr.toNat then some t else some u) none

/-- One key of a command with its number, its role and the relations of R463 it breaks. -/
structure Use where
  ix   : KIdx
  k    : Key
  role : Role
  rel  : List Nat
deriving DecidableEq, Repr

def useSpace (u : Use) : Space := spaceOfKey (kSpace u.k)

def useBound (w : Work) (u : Use) : Option Trapped :=
  if kQb u.k ∨ kSpace u.k = 4 then none
  else lowest ((kFoot u.k).filterMap (fun r =>
    (rangeBound w (useSpace u) r.1 r.2).map (fun p =>
      { code := 4, eaddr := w64 p.1, eval := w64 (spNat (useSpace u)), detail := p.2 })))

def useFault (w : Work) (mem : Bool) (u : Use) : Option Trapped :=
  if kQb u.k ∨ kSpace u.k ≠ 0 then none
  else lowest ((kFoot u.k).filterMap (fun r => rangeFault w u.role.need mem (r.1 + r.2) (r.2 / 65536 + 2) r.1))

/-! ## The checks of a command (R102, R164) -/

def keyOf (c : Ctl) (g k : Nat) : Key := Tab.getD (gladeOf c g).ctx.eng.keys k Key.zero
def myKey (w : Work) (k : KIdx) : Key := keyOf w.ctl (curG w) k.toNat
def setKey (w : Work) (g k : Nat) (v : Key) : Work := updEng w g (fun e => { e with keys := Tab.set e.keys k v })

def keyInv (k : KIdx) (d : Nat) : Trapped := { code := 6, eaddr := 0, eval := k.setWidth 64, detail := d }

/-- KEYINV of key numbers alone. -/
def badIndex (ks : List KIdx) : Option Trapped :=
  (ks.find? (fun k => decide (1024 ≤ k.toNat))).map (fun k => keyInv k 0)

/-- One step of R102 on the keys of a word: 0 KEYINV, 1 KEYSHAPE, 2 DESYNC, 3 BOUND, 4 LEASE, 5 MEMRANGE. -/
def checkStep (w : Work) (us : List Use) (desync : Option KIdx) : Nat → Option Trapped
  | 0 => us.findSome? (fun u =>
      if 1024 ≤ u.ix.toNat then some (keyInv u.ix 0) else if kValid u.k then none else some (keyInv u.ix 1))
  | 1 => us.findSome? (fun u => (shapeDetail w.ctl (curG w) u.k u.role u.rel).map (fun d =>
      ({ code := 7, eaddr := 0, eval := u.ix.setWidth 64, detail := d } : Trapped)))
  | 2 => desync.map (fun k => { code := 9, eaddr := 0, eval := k.setWidth 64, detail := 0 })
  | 3 => us.findSome? (useBound w)
  | 4 => us.findSome? (useFault w false)
  | _ => us.findSome? (useFault w true)

/-- The first cause of a command's keys, step by step (R102). -/
def keyFault (w : Work) (us : List Use) (desync : Option KIdx) : Option Trapped :=
  (List.range 6).findSome? (checkStep w us desync)

/-- The first cause of a bundle's words, the COPY word before the MMA word at each step; true where the MMA word raised it. -/
def bundleFault (w : Work) (us vs : List Use) (d1 d2 : Option KIdx) : Option (Trapped × Bool) :=
  (List.range 6).findSome? (fun n =>
    match checkStep w us d1 n with
    | some t => some (t, false)
    | none => (checkStep w vs d2 n).map (fun t => (t, true)))

/-- SSTRIDE below ceil(`n` / 32) of an MX key of more than one row (R174, R177). -/
def desyncs (k : Key) (rows n : Nat) : Bool :=
  isMx (kFmt k) && decide (1 < rows) && decide (kSStride k < ceilDiv n 32)

/-! ## Keyring instructions (R169, R170) -/

def keyBytes (k : Key) : List Byte := natLe 64 k.toNat

/-- KLD (R169). -/
def execKld (m : Marks) (k : KIdx) (x : XReg) (sp : Space) (s : State) : Out3 :=
  commit s (fun w =>
    match badIndex [k] with
    | some t => trapWith w m t
    | none =>
      let ea := rx w x
      match locate w sp ea 64 64 .read with
      | (.error e, w) => trapWith w m { e with detail := if e.code = 3 then 2 else e.detail }
      | (.ok p, w) =>
        loadFrom w m (.key k.toNat) sp ea.toNat p 64 (vecStep sp) false)

/-- KST (R169). -/
def execKst (m : Marks) (k : KIdx) (x : XReg) (sp : Space) (s : State) : Out3 :=
  commit s (fun w =>
    match badIndex [k] with
    | some t => trapWith w m t
    | none =>
      let ea := rx w x
      match locate w sp ea 64 64 .write with
      | (.error e, w) => trapWith w m { e with detail := if e.code = 3 then 2 else e.detail }
      | (.ok p, w) => commitStore w m none (storePieces w (curId w) sp ea.toNat p (keyBytes (myKey w k)) (vecStep sp)))

/-- KSET (R170). -/
def execKset (m : Marks) (k : KIdx) (wd : BitVec 4) (dbl : Bool) (x : XReg) (s : State) : Out3 :=
  commit s (fun w =>
    match badIndex [k] with
    | some t => trapWith w m t
    | none =>
      let v := (rx w x).toNat
      let K := kSetWord (myKey w k) wd.toNat (v % 2 ^ 32)
      next m (setKey w (curG w) k.toNat (if dbl then kSetWord K (wd.toNat + 1) (v / 2 ^ 32) else K)))

/-- KINV (R170). -/
def execKinv (m : Marks) (ka kb : KIdx) (range : Bool) (s : State) : Out3 :=
  commit s (fun w =>
    match badIndex (if range then [ka, kb] else [ka]) with
    | some t => trapWith w m t
    | none =>
      let hi := if range then kb.toNat else ka.toNat
      next m (updEng w (curG w) (fun e => { e with keys := e.keys.map (fun p =>
        if ka.toNat ≤ p.1 ∧ p.1 ≤ hi then (p.1, kInvalid p.2) else p) })))

end Sys2Proof.Machine
end

