-- ==== Sys2Proof/Machine/Buffers.lean ====
section
/-! DEFINITION. Circular buffers: QSET, QINFO, QADV, QWAIT, VLDQ, VSTQ (R153 to R160). -/
namespace Sys2Proof.Machine

def Buf.free (b : Buf) : Nat := b.count - b.filled
/-- HEAD or TAIL moves by `n` slots (R157). -/
def Buf.take (b : Buf) (n : Nat) : Buf := { b with head := (b.head + n) % b.count, filled := b.filled - n }
def Buf.give (b : Buf) (n : Nat) : Buf := { b with tail := (b.tail + n) % b.count, filled := b.filled + n }

/-- A task's QWAIT holds as the entry stands (R158). -/
def qwaitDone (b : Buf) (consumer : Bool) (k : Nat) : Bool := if consumer then decide (k ≤ b.filled) else decide (k ≤ b.free)

/-- Every task of the glade that sleeps on an entry tests it again (R158). -/
def wakeQwait (w : Work) (g e : Nat) : Work :=
  updCtx w g (fun x => { x with tasks := x.tasks.map (fun p =>
    match p.2.run with
    | .sleeping (.qwait cons e' k) =>
      if e' = e ∧ qwaitDone (bufOf w.ctl g e) cons k = true then (p.1, { p.2 with run := .runnable }) else p
    | _ => p) })

def changeBuf (w : Work) (g e : Nat) (f : Buf → Buf) : Work := wakeQwait (updBuf w g e f) g e

/-- The entry of a handle: QCFG where it is unbound or its entry has COUNT = 0 (R154). -/
def entryOf (w : Work) (h : QReg) : Except Nat (Nat × Buf) :=
  match rq w h with
  | none => .error 0
  | some e => if (bufOf w.ctl (curG w) e.toNat).count = 0 then .error 1 else .ok (e.toNat, bufOf w.ctl (curG w) e.toNat)

/-- Keys of a command that are bound to an entry. -/
def cmdUses (e : Nat) (c : Cmd) : Bool :=
  (kQb c.ka && decide (kQent c.ka = e)) || (kQb c.kb && decide (kQent c.kb = e)) || (kQb c.kc && decide (kQent c.kc = e))

def allCmds (q : Queues) : List Cmd := q.mq ++ q.cq0 ++ q.cq1 ++ q.cq2 ++ q.cq3 ++ q.xq ++ q.sr ++ q.sw ++ q.ms

/-- Whether an engine or stream command uses the entry (R155). -/
def entryBusy (c : Ctl) (g e : Nat) : Bool := (allCmds (gladeOf c g).ctx.eng.qs).any (cmdUses e)

/-- QSET (R155): bind. -/
def execQset (m : Marks) (d : QReg) (a : XReg) (s : State) : Out3 :=
  commit s (fun w =>
    let v := rx w a
    if 64 ≤ v.toNat then trapQcfg w m d 2 else next m (wq w m d (some (v.setWidth 6))))

/-- QSET.U (R155): unbind. -/
def execQsetU (m : Marks) (d : QReg) (s : State) : Out3 := commit s (fun w => next m (wq w m d none))

/-- QSET.CFG (R155): configure the entry bound to D. -/
def execQsetCfg (m : Marks) (d : QReg) (a b c : XReg) (s : State) : Out3 :=
  commit s (fun w =>
    match rq w d with
    | none => trapQcfg w m d 0
    | some e =>
      if entryBusy w.ctl (curG w) e.toNat then notReady m w
      else
        let A := (rx w a).toNat
        let base := bits A 21 0
        let sp := bits A 33 32
        let slot := (rx w b).toNat
        let count := (rx w c).toNat
        let size := if sp = 1 then Config.scrSize else Config.fltSize
        if (sp ≠ 1 ∧ sp ≠ 3) ∨ base % 64 ≠ 0 ∨ slot = 0 ∨ slot % 64 ≠ 0 ∨ 0x400000 < slot ∨ count = 0 ∨ 4096 < count ∨
            size < base + slot * count ∨ (bufOf w.ctl (curG w) e.toNat).filled ≠ 0 then trapQcfg w m d 3
        else next m (renewCtl (updBuf w (curG w) e.toNat (fun _ =>
          { base := base, space := sp, slot := slot, count := count, head := 0, tail := 0, filled := 0 })) (curG w) [.buf e.toNat]))

/-- A field of QINFO (R156). -/
def qinfoOf (fld : Nat) (e : Nat) (b : Buf) : Nat :=
  match fld with
  | 0 => b.filled
  | 1 => b.free
  | 2 => b.head
  | 3 => b.tail
  | 4 => b.count
  | 5 => b.slot
  | 6 => b.space * 2 ^ 32 + b.base
  | _ => e

/-- QINFO (R156). -/
def execQinfo (m : Marks) (fld : BitVec 3) (d : XReg) (a : QReg) (s : State) : Out3 :=
  commit s (fun w =>
    match entryOf w a with
    | .error n => trapQcfg w m a n
    | .ok (e, b) => next m (wx w m d (w64 (qinfoOf fld.toNat e b))))

/-- Whether the task's earlier local stores (or loads) are performed (R160). -/
def localQuiet (T : Task) (stores : Bool) : Bool :=
  T.fl.outs.all (fun o => o.store != stores || (decide (o.sp ≠ .scr) && decide (o.sp ≠ .flt)))

def qadv (m : Marks) (d : QReg) (a : XReg) (imm : BitVec 32) (consumer : Bool) (w : Work) : Work :=
  match entryOf w d with
  | .error n => trapQcfg w m d n
  | .ok (e, b) =>
    let n := (rx w a).toNat + imm.toNat
    if b.count < n then trapQcfg w m d 2
    else if n = 0 then next m w
    else if (if consumer then decide (n ≤ b.filled) else decide (n ≤ b.free)) && localQuiet (me w) (!consumer) then
      next m (changeBuf w (curG w) e (fun b => if consumer then b.take n else b.give n))
    else notReady m w

/-- QADV.C (R157, R160). -/
def execQadvC (m : Marks) (d : QReg) (a : XReg) (imm : BitVec 32) (s : State) : Out3 := commit s (qadv m d a imm true)
/-- QADV.P (R157, R160). -/
def execQadvP (m : Marks) (d : QReg) (a : XReg) (imm : BitVec 32) (s : State) : Out3 := commit s (qadv m d a imm false)

def qwait (m : Marks) (d : QReg) (k : BitVec 13) (consumer : Bool) (w : Work) : Work :=
  match entryOf w d with
  | .error n => trapQcfg w m d n
  | .ok (e, b) =>
    if b.count < k.toNat then trapQcfg w m d 2
    else if qwaitDone b consumer k.toNat then next m w
    else if resultsPending (me w) then notReady m w
    else updMe (next m w) (fun T => fallAsleep T (.qwait consumer e k.toNat))

/-- QWAIT.C (R158). -/
def execQwaitC (m : Marks) (d : QReg) (k : BitVec 13) (s : State) : Out3 := commit s (qwait m d k true)
/-- QWAIT.P (R158). -/
def execQwaitP (m : Marks) (d : QReg) (k : BitVec 13) (s : State) : Out3 := commit s (qwait m d k false)

/-- The place of a slot's part: space, offset, flat location. An entry that an image has loaded with a space of 0 or 2 counts as
one of the scratchpad, and a ring beyond its space wraps. (DESIGN CHOICE, log entry 77.) -/
def slotPlace (w : Work) (b : Buf) (first k p : Nat) : Space × Nat × Nat :=
  let off := b.base + ((first + k) % b.count) * b.slot + 256 * p
  if b.space = 3 then (.flt, off, fltAt (curG w) (off % 2 ^ 22)) else (.scr, off, scrAt (curG w) (off % 2 ^ 21))

def placeFlat (a : Nat) : Xlate := { addr := a, key := 0, ext := none, svc := false }

/-- VLDQ (R159): the wait, the access and the advance are one step on the entry, so the words are read at issue, once
no request stands before them at their banks. -/
def vldq (m : Marks) (d : VReg) (a : QReg) (k : BitVec 12) (p : BitVec 8) (adv : Bool) (w : Work) : Work :=
  match entryOf w a with
  | .error n => trapQcfg w m a n
  | .ok (e, b) =>
    if b.count ≤ k.toNat ∨ b.slot < 256 * (p.toNat + 1) then trapQcfg w m a 2
    else
      let (sp, off, loc) := slotPlace w b b.head k.toNat p.toNat
      let locs := locsFrom loc 256
      let cov := sqCover (me w).fl.sq locs
      let (id, w') := newId w
      let reqs := loadPieces w id sp off (placeFlat loc) 256 4 cov
      if b.filled < k.toNat + 1 then notReady m w
      else
        match shareWait w cov locs with
        | some w => notReady m w
        | none =>
          if mayIssue w 0 reqs = false ∨ reqs.all (fun r => banksEmpty w.ctl r.g r) = false ∨
              (adv = true ∧ localQuiet (me w) false = false) then notReady m w
          else
            let w := issueAccess (serveMark w' cov locs) m id (.v d.toNat) sp m.gap.toNat false (decide (sp = .flt)) false true reqs
            if adv ∧ w.ctl.model.issuing = 1 then changeBuf w (curG w) e (fun b => b.take 1) else w

/-- VLDQ (R159). -/
def execVldq (m : Marks) (d : VReg) (a : QReg) (k : BitVec 12) (p : BitVec 8) (s : State) : Out3 :=
  commit s (vldq m d a k p false)
/-- VLDQ.ADV (R159). -/
def execVldqAdv (m : Marks) (d : VReg) (a : QReg) (k : BitVec 12) (p : BitVec 8) (s : State) : Out3 :=
  commit s (vldq m d a k p true)

/-- VSTQ (R159, R160): the words are written at issue, once every earlier local store is performed. -/
def vstq (m : Marks) (d : QReg) (a : VReg) (k : BitVec 12) (p : BitVec 8) (adv : Bool) (w : Work) : Work :=
  match entryOf w d with
  | .error n => trapQcfg w m d n
  | .ok (e, b) =>
    if b.count ≤ k.toNat ∨ b.slot < 256 * (p.toNat + 1) then trapQcfg w m d 2
    else
      let (sp, off, loc) := slotPlace w b b.tail k.toNat p.toNat
      let reqs := storePieces w (curId w) sp off (placeFlat loc) (natLe 256 (rv w a).toNat) 4
      if b.free < k.toNat + 1 ∨ mayIssue w 1 reqs = false ∨ localQuiet (me w) true = false ∨
          reqs.all (fun r => banksEmpty w.ctl r.g r) = false then notReady m w
      else
        let w := updModel w (fun x => { x with nextId := x.nextId + reqs.length })
        let pc := (me w).pc
        let w := updMyFl w (fun f => { f with outs := f.outs ++ reqs.map (storeOut pc) })
        let w := reqs.foldl performNow (next m w)
        if adv then changeBuf w (curG w) e (fun b => b.give 1) else w

/-- VSTQ (R159). -/
def execVstq (m : Marks) (d : QReg) (a : VReg) (k : BitVec 12) (p : BitVec 8) (s : State) : Out3 :=
  commit s (vstq m d a k p false)
/-- VSTQ.ADV (R159). -/
def execVstqAdv (m : Marks) (d : QReg) (a : VReg) (k : BitVec 12) (p : BitVec 8) (s : State) : Out3 :=
  commit s (vstq m d a k p true)

end Sys2Proof.Machine
end

