-- ==== Sys2Proof/Machine/Engines.lean ====
section
/-! DEFINITION. Engine instructions: their checks, entering the queues, waits (R165, R171 to R198). -/
namespace Sys2Proof.Machine

/-! ## Queues -/

/-- Commands a queue holds (R165, R221). -/
def qDepth : Queue → Nat
  | .xq | .sr | .sw | .ms => 16
  | _ => 32

/-- Room for one more command: fence entries occupy no slot (R214). -/
def qRoom (c : Ctl) (g : Nat) (q : Queue) : Bool :=
  decide (((cmdsOf c g q).filter (fun x => !isFence x)).length < qDepth q)

def cqOf (n : BitVec 2) : Queue :=
  match n.toNat with
  | 0 => .cq0
  | 1 => .cq1
  | 2 => .cq2
  | _ => .cq3

/-- How a command's device addresses are translated: 0 by the launch, 1 as P2, `2 + p` as P1 of partition `p`. -/
def vaKind (s : Sys) : Nat := if s.priv = 0 then 0 else if s.priv = 2 then 1 else 2 + s.part

def mkCmd (w : Work) (id : Nat) (op : CmdOp) (ka kb kc : Key) : Cmd :=
  { id := id, t := curT w, op := op, ka := ka, kb := kb, kc := kc, slot := 0, s0 := 0, s1 := 0, begun := false, unit := 0
    got := [], puts := [], toks := [], off := 0, aux := 0, flags := 0, count := 0, fin := false, starts := 0, after := none
    hda := 0, hdb := 0, wrote := [], cleared := [], vaPart := vaKind (me w).sys }

/-- The monitor source of a queue's depth (R396). -/
def qSource : Queue → Nat
  | .mq => 1
  | .cq0 => 2
  | .cq1 => 3
  | .cq2 => 4
  | .cq3 => 5
  | .xq => 6
  | _ => 0

/-- Enter a command: its queue, the depth sample and the counter, and the task's list of unreported commands. -/
def enterCmd (w : Work) (q : Queue) (c : Cmd) (prom : Option Nat) : Work :=
  let w := updQ w (curG w) q (· ++ [c])
  let w := sample w (curG w) (qSource q) ((cmdsOf w.ctl (curG w) q).filter (fun x => !isFence x)).length
  let w := bump w (curG w) (curT w) 7 1
  updMyFl w (fun f => { f with recs := f.recs ++ [{ id := c.id, q := q, slot := c.slot, done := false, flags := 0, count := 0, prom := prom }] })

/-- Commit a command whose checks passed; a full queue leaves the task not ready (R165). -/
def commitCmd (w : Work) (m : Marks) (q : Queue) (mk : Nat → Cmd) : Work :=
  if qRoom w.ctl (curG w) q then
    let (id, w) := newId w
    next m (enterCmd w q (mk id) none)
  else notReady m w

/-! ## The matrix engine (R173 to R178) -/

/-- Operand classes of R173's table. -/
def mmaClass (f : Nat) : Nat :=
  if f = 0x10 ∨ f = 0x11 ∨ f = 0x12 then 0
  else if isMx f then 1
  else if f = 0x01 then 2
  else if f = 0x20 then 3
  else if f = 0x21 then 4
  else if f = 0x22 then 5
  else 6
/-- The accumulator format of a class. -/
def mmaAcc (c : Nat) : Nat := if c = 2 then 0x03 else if c = 5 then 0x22 else 0x21

def accRole (need : Need) : Role := { fmts := [0x03, 0x21, 0x22], spaces := [4], packed := 0, trans := none, need := need }

/-- The keys of MMA with the relations of R463. (DEDUCED, log entry 55.) -/
def mmaUses (w : Work) (ka kb kc : KIdx) : List Use :=
  let A := myKey w ka
  let B := myKey w kb
  let C := myKey w kc
  let cls := mmaClass (kFmt A)
  let M := kLog A 1
  let N := kLog B 0
  [{ ix := ka, k := A
     role := { fmts := [0x01, 0x10, 0x11, 0x12, 0x18, 0x19, 0x20, 0x21, 0x22], spaces := [0, 1, 2, 3], packed := 1, trans := some false, need := .read }
     rel := (if cls ≠ mmaClass (kFmt B) ∨ mmaAcc cls ≠ kFmt C ∨ (kPacked A ∧ cls ≠ 0 ∧ cls ≠ 2 ∧ cls ≠ 3) then [1] else []) ++
       (if 128 < M ∨ 2 < kRank A then [2] else []) },
   { ix := kb, k := B
     role := { fmts := [0x01, 0x10, 0x11, 0x12, 0x18, 0x19, 0x20, 0x21, 0x22], spaces := [0, 1, 2, 3], packed := 0, trans := some true, need := .read }
     rel := if kLog B 1 ≠ kLog A 0 ∨ 128 < N ∨ 2 < kRank B then [2] else [] },
   { ix := kc, k := C, role := accRole .both
     rel := if kLog C 1 ≠ M ∨ kLog C 0 ≠ N then [2] else [] }]

def mmaDesync (w : Work) (ka kb : KIdx) : Option KIdx :=
  if desyncs (myKey w ka) (kDim (myKey w ka) 1) (kDim (myKey w ka) 0) then some ka
  else if desyncs (myKey w kb) (kDim (myKey w kb) 1) (kDim (myKey w kb) 0) then some kb
  else none

def mmaCmd (w : Work) (z : Bool) (ka kb kc : KIdx) (id : Nat) : Cmd :=
  mkCmd w id (.mma z) (myKey w ka) (myKey w kb) (myKey w kc)

/-- MMA (R173 to R175). -/
def execMma (m : Marks) (z : Bool) (ka kb kc : KIdx) (s : State) : Out3 :=
  commit s (fun w =>
    match keyFault w (mmaUses w ka kb kc) (mmaDesync w ka kb) with
    | some t => trapWith w m t
    | none => commitCmd w m .mq (mmaCmd w z ka kb kc))

/-- MZERO (R176). -/
def execMzero (m : Marks) (kc : KIdx) (s : State) : Out3 :=
  commit s (fun w =>
    match keyFault w [{ ix := kc, k := myKey w kc, role := accRole .write, rel := [] }] none with
    | some t => trapWith w m t
    | none => commitCmd w m .mq (fun id => mkCmd w id .mzero 0 0 (myKey w kc)))

def moutUses (w : Work) (ka kb : KIdx) : List Use :=
  let A := myKey w ka
  let B := myKey w kb
  [{ ix := ka, k := A, role := accRole .read, rel := [] },
   { ix := kb, k := B
     role := { fmts := allFmts.filter (· != 0x30), spaces := [0, 1, 2, 3], packed := 0, trans := none, need := .write }
     rel := if kLog A 0 ≠ kLog B 0 ∨ kLog A 1 ≠ kLog B 1 ∨ 2 < kRank B then [2] else [] }]

/-- MOUT (R177). -/
def execMout (m : Marks) (rm : Rnd) (nanm clr : Bool) (ka kb : KIdx) (x : XReg) (s : State) : Out3 :=
  commit s (fun w =>
    let B := myKey w kb
    match keyFault w (moutUses w ka kb) (if desyncs B (kLog B 1) (kLog B 0) then some kb else none) with
    | some t => trapWith w m t
    | none =>
      let sc := (rx w x).setWidth 32
      commitCmd w m .mq (fun id => mkCmd w id (.mout rm nanm clr sc) (myKey w ka) B 0))

/-- ME.PROG (R178). -/
def meProg (c : Ctl) (g : Nat) : Word :=
  let p := (gladeOf c g).ctx.eng.prog
  w64 (b2n p.busy * 2 ^ 63 + ((cmdsOf c g .mq).filter (fun x => !isFence x)).length * 2 ^ 48 + p.kgroup % 2 ^ 32)

/-- MPROG (R178). -/
def execMprog (m : Marks) (x : XReg) (s : State) : Out3 :=
  commit s (fun w => next m (wx w m x (meProg w.ctl (curG w))))

/-! ## Waits (R172) -/

/-- OR of the flags of a set with the COUNT of its last command. -/
def statusOfRecs (l : List Rec) : Word :=
  w64 (((l.getLast?.map (·.count)).getD 0) % 2 ^ 32 * 2 ^ 32 + l.foldl (fun a r => a ||| r.flags) 0)

/-- The records of a task that a wait names. -/
def recsOf (T : Task) (ids : List Nat) : List Rec := T.fl.recs.filter (fun r => ids.contains r.id)

/-- The ids, destination and kind of a completion wait. -/
def waitSet : Sleep → Option (List Nat × Nat)
  | .cpwait ids d | .mwait ids d | .collwait ids d => some (ids, d)
  | _ => none

/-- End a completion wait whose commands are all done: the status to its register, the commands reported. -/
def wakeWait (w : Work) (g t : Nat) : Work :=
  let T := taskOf w.ctl g t
  match T.run with
  | .sleeping sl =>
    match waitSet sl with
    | some (ids, d) =>
      let rs := recsOf T ids
      if rs.all (·.done) then
        putX (updTask w g t (fun T => { T with run := .runnable, fl := { T.fl with recs := T.fl.recs.filter (fun r => !ids.contains r.id) } }))
          g t d (statusOfRecs rs)
      else w
    | none => w
  | _ => w

/-- MWAIT, CPWAIT, COLLWAIT over the unreported commands that `p` picks. -/
def waitFor (m : Marks) (x : XReg) (p : Rec → Bool) (mk : List Nat → Nat → Sleep) (w : Work) : Work :=
  let rs := (me w).fl.recs.filter p
  if rs.all (·.done) then
    let ids := rs.map (·.id)
    next m (wx (updMyFl w (fun f => { f with recs := f.recs.filter (fun r => !ids.contains r.id) })) m x (statusOfRecs rs))
  else if resultsPending (me w) then notReady m w
  else updMe (next m w) (fun T => fallAsleep T (mk (rs.map (·.id)) x.toNat))

/-- MWAIT (R172). -/
def execMwait (m : Marks) (x : XReg) (s : State) : Out3 :=
  commit s (waitFor m x (fun r => decide (r.q = .mq)) .mwait)

def cqBit (mask : BitVec 4) : Queue → Bool
  | .cq0 => mask.getLsbD 0
  | .cq1 => mask.getLsbD 1
  | .cq2 => mask.getLsbD 2
  | .cq3 => mask.getLsbD 3
  | _ => false

/-- CPWAIT (R172): QMASK 0 names all four queues. -/
def execCpwait (m : Marks) (x : XReg) (mask : BitVec 4) (s : State) : Out3 :=
  commit s (waitFor m x (fun r => cqBit (if mask = 0 then 15 else mask) r.q) .cpwait)

/-- COLLWAIT (R172). -/
def execCollwait (m : Marks) (x : XReg) (slot : BitVec 4) (one : Bool) (s : State) : Out3 :=
  commit s (waitFor m x (fun r => decide (r.q = .xq) && (!one || decide (r.slot = slot.toNat))) .collwait)

/-! ## The copy engine (R180 to R191) -/

def memRole (need : Need) : Role := { fmts := allFmts, spaces := [0, 1, 2, 3], packed := 0, trans := none, need := need }

/-- Destination bytes of a dense key: scales are none of them. (DEDUCED, log entry 59.) -/
def keyBytesOf (k : Key) : Nat :=
  let row := if kBits k < 8 then ceilDiv (kDim k 0) 2 else kDim k 0 * (kBits k / 8)
  row * (kDim k 1 * kDim k 2 * kDim k 3)

/-- Destination bytes of a queued command (R183): a SCATTER writes the rows its index key names, and a PACK, whose real size
is not known before it ends, counts its packed bound. (DEDUCED, log entry 59.) -/
def destBytes (c : Cmd) : Nat :=
  match c.op with
  | .scatter => kDim c.kc 0 * ceilDiv (kLog c.kb 0 * kBits c.kb) 8
  | _ => if kPacked c.kb then packedBound c.kb else keyBytesOf c.kb

/-- Destination bytes that commands ahead have not yet written: whole chunks of 4 KiB count as finished (R183). -/
def bytesAhead (l : List Cmd) : Nat :=
  l.foldl (fun a c => a + if isFence c then 0 else if c.begun then destBytes c - c.off / 8192 * 4096 else destBytes c) 0

/-- Tprom of R183, a 64-bit count (R1). -/
def promiseTick (w : Work) (q : Queue) (kb : Key) : Nat :=
  (w.ctl.tick + 1024 + ceilDiv (bytesAhead (cmdsOf w.ctl (curG w) q) + keyBytesOf kb) 16) % 2 ^ 64

def copyUses (w : Work) (cv : Bool) (ka kb : KIdx) : List Use :=
  let A := myKey w ka
  let B := myKey w kb
  [{ ix := ka, k := A, role := memRole .read, rel := [] },
   { ix := kb, k := B, role := memRole .write
     rel := (if !cv ∧ kFmt A ≠ kFmt B then [1] else []) ++ (if kRank A ≠ kRank B ∨ kDims A ≠ kDims B then [2] else []) }]

/-- A COPY enters its queue: the promise to x[X], the generator stepped for SR (R182, R183). -/
def enterCopy (w : Work) (m : Marks) (q : BitVec 2) (prom cv : Bool) (rm : BitVec 3) (nanm : Bool) (ka kb : KIdx) (x : XReg)
    (id : Nat) : Work :=
  let tp := promiseTick w (cqOf q) (myKey w kb)
  let T := me w
  let c := { mkCmd w id (.copy cv rm nanm) (myKey w ka) (myKey w kb) 0 with s0 := T.regs.rng0, s1 := T.regs.rng1 }
  let w := enterCmd w (cqOf q) c (if prom then some tp else none)
  let w := if cv ∧ rm = 4 then
      let (a, b) := rngAdvance (ceilDiv (kCount (myKey w kb)) 4) T.regs.rng0 T.regs.rng1
      updMyRegs w (fun r => { r with rng0 := a, rng1 := b })
    else w
  if prom then wx w m x (w64 tp) else w

/-- COPY (R182, R183). -/
def execCopy (m : Marks) (q : BitVec 2) (prom cv : Bool) (rm : BitVec 3) (nanm : Bool) (ka kb : KIdx) (x : XReg)
    (s : State) : Out3 :=
  commit s (fun w =>
    match keyFault w (copyUses w cv ka kb) none with
    | some t => trapWith w m t
    | none =>
      if qRoom w.ctl (curG w) (cqOf q) then
        let (id, w) := newId w
        next m (enterCopy w m q prom cv rm nanm ka kb x id)
      else notReady m w)

/-- A bundle of COPY and MMA (R92, R184): both enter at once, and control passes both words. -/
def execCopyMmaBundle (m : Marks) (q : BitVec 2) (prom cv : Bool) (rm : BitVec 3) (nanm : Bool) (ka kb : KIdx) (x : XReg)
    (z : Bool) (ma mb mc : KIdx) (s : State) : Out3 :=
  commit s (fun w =>
    match bundleFault w (copyUses w cv ka kb) (mmaUses w ma mb mc) none (mmaDesync w ma mb) with
    | some (t, mmaWord) =>
      if t.code = 0 then notReady m w
      else trapC w m { code := t.code, epc := (me w).pc, eaddr := t.eaddr, eval := t.eval, detail := t.detail, bundle := mmaWord }
    | none =>
      if qRoom w.ctl (curG w) (cqOf q) && qRoom w.ctl (curG w) .mq then
        let mma := mmaCmd w z ma mb mc
        let (i1, w) := newId w
        let (i2, w) := newId w
        let w := enterCopy w m q prom cv rm nanm ka kb x i1
        let w := enterCmd w .mq { mma i2 with after := some i1 } none
        goto m ((me w).pc + 16) w
      else notReady m w)

/-- PACK's keys (R186). -/
def packUses (w : Work) (ka kb : KIdx) : List Use :=
  let A := myKey w ka
  let B := myKey w kb
  [{ ix := ka, k := A, role := { memRole .read with fmts := packFmts }, rel := [] },
   { ix := kb, k := B, role := { memRole .write with fmts := packFmts, packed := 2 }
     rel := (if kFmt A ≠ kFmt B then [1] else []) ++
       (if kRank A ≠ kRank B ∨ (List.range 4).map (kDim A) ≠ (List.range 4).map (kDim B) then [2] else []) }]

def packWith (m : Marks) (q : BitVec 2) (ka kb : KIdx) (x : XReg) (prune : Nat) (w : Work) : Work :=
  match keyFault w (packUses w ka kb) none with
  | some t => trapWith w m t
  | none =>
    if qRoom w.ctl (curG w) (cqOf q) then
      let v := rx w x
      let T := me w
      let (a, b, o) := rngStep T.regs.rng0 T.regs.rng1
      let (id, w) := newId w
      let c := mkCmd w id (.pack prune v) (myKey w ka) (myKey w kb) 0
      if prune = 3 then
        let w := updMyRegs w (fun r => { r with rng0 := a, rng1 := b })
        next m (enterCmd w (cqOf q) { c with s0 := o, s1 := o ^^^ 0x9E3779B97F4A7C15 } none)
      else next m (enterCmd w (cqOf q) c none)
    else notReady m w

/-- PACK.NZ (R186). -/
def execPackNz (m : Marks) (q : BitVec 2) (ka kb : KIdx) (x : XReg) (s : State) : Out3 := commit s (packWith m q ka kb x 0)
/-- PACK.THR (R186). -/
def execPackThr (m : Marks) (q : BitVec 2) (ka kb : KIdx) (x : XReg) (s : State) : Out3 := commit s (packWith m q ka kb x 1)
/-- PACK.TOP (R186). -/
def execPackTop (m : Marks) (q : BitVec 2) (ka kb : KIdx) (x : XReg) (s : State) : Out3 := commit s (packWith m q ka kb x 2)
/-- PACK.STO (R186, R187). -/
def execPackSto (m : Marks) (q : BitVec 2) (ka kb : KIdx) (x : XReg) (s : State) : Out3 := commit s (packWith m q ka kb x 3)

def unpackUses (w : Work) (ka kb : KIdx) : List Use :=
  let A := myKey w ka
  let B := myKey w kb
  [{ ix := ka, k := A, role := { memRole .read with fmts := packFmts, packed := 2 }, rel := [] },
   { ix := kb, k := B, role := { memRole .write with fmts := packFmts }
     rel := (if kFmt A ≠ kFmt B then [1] else []) ++
       (if kRank A ≠ kRank B ∨ (List.range 4).map (kDim A) ≠ (List.range 4).map (kDim B) then [2] else []) }]

/-- UNPACK (R188). -/
def execUnpack (m : Marks) (q : BitVec 2) (ka kb : KIdx) (s : State) : Out3 :=
  commit s (fun w =>
    match keyFault w (unpackUses w ka kb) none with
    | some t => trapWith w m t
    | none => commitCmd w m (cqOf q) (fun id => mkCmd w id .unpack (myKey w ka) (myKey w kb) 0))

def indexRole : Role := { fmts := [0x02], spaces := [0, 1, 2, 3], packed := 0, trans := none, need := .read }

def gatherUses (w : Work) (ka kb kc : KIdx) : List Use :=
  let A := myKey w ka
  let B := myKey w kb
  let C := myKey w kc
  [{ ix := ka, k := A, role := memRole .read, rel := if kRank A ≠ 2 then [2] else [] },
   { ix := kb, k := B, role := memRole .write
     rel := (if kFmt A ≠ kFmt B then [1] else []) ++
       (if kRank B ≠ 2 ∨ kLog A 0 ≠ kLog B 0 ∨ kLog B 1 ≠ kLog C 0 then [2] else []) },
   { ix := kc, k := C, role := indexRole, rel := if kRank C ≠ 1 then [2] else [] }]

def scatterUses (w : Work) (ka kb kc : KIdx) : List Use :=
  let A := myKey w ka
  let B := myKey w kb
  let C := myKey w kc
  [{ ix := ka, k := A, role := memRole .read
     rel := (if kFmt A ≠ kFmt B then [1] else []) ++
       (if kRank A ≠ 2 ∨ kLog A 0 ≠ kLog B 0 ∨ kLog A 1 ≠ kLog C 0 then [2] else []) },
   { ix := kb, k := B, role := memRole .write, rel := if kRank B ≠ 2 then [2] else [] },
   { ix := kc, k := C, role := indexRole, rel := if kRank C ≠ 1 then [2] else [] }]

/-- GATHER (R189). -/
def execGather (m : Marks) (q : BitVec 2) (ka kb kc : KIdx) (s : State) : Out3 :=
  commit s (fun w =>
    match keyFault w (gatherUses w ka kb kc) none with
    | some t => trapWith w m t
    | none => commitCmd w m (cqOf q) (fun id => mkCmd w id .gather (myKey w ka) (myKey w kb) (myKey w kc)))

/-- SCATTER (R189). -/
def execScatter (m : Marks) (q : BitVec 2) (ka kb kc : KIdx) (s : State) : Out3 :=
  commit s (fun w =>
    match keyFault w (scatterUses w ka kb kc) none with
    | some t => trapWith w m t
    | none => commitCmd w m (cqOf q) (fun id => mkCmd w id .scatter (myKey w ka) (myKey w kb) (myKey w kc)))

/-- FILL (R191). -/
def execFill (m : Marks) (q : BitVec 2) (kb : KIdx) (x : XReg) (s : State) : Out3 :=
  commit s (fun w =>
    match keyFault w [{ ix := kb, k := myKey w kb, role := memRole .write, rel := [] }] none with
    | some t => trapWith w m t
    | none =>
      let v := rx w x
      commitCmd w m (cqOf q) (fun id => mkCmd w id (.fill v) 0 (myKey w kb) 0))

/-! ## Collectives (R193 to R197) -/

def collUses (w : Work) (ka kb : KIdx) : List Use :=
  let A := myKey w ka
  let B := myKey w kb
  let f := [0x02, 0x03, 0x20, 0x21, 0x22]
  [{ ix := ka, k := A, role := { memRole .read with fmts := f, spaces := [0, 1, 3] }, rel := [] },
   { ix := kb, k := B, role := { memRole .write with fmts := f, spaces := [0, 1, 3] }
     rel := if kFmt A ≠ kFmt B then [1] else [] }]

def collWith (m : Marks) (slot : BitVec 4) (kind : Nat) (opr : FoldOp) (ka kb : KIdx) (root : Word) (w : Work) : Work :=
  match keyFault w (collUses w ka kb) none with
  | some t => trapWith w m t
  | none =>
    commitCmd w m .xq (fun id => { mkCmd w id (.coll kind opr root) (myKey w ka) (myKey w kb) 0 with slot := slot.toNat })

/-- COLL.ALLRED (R194, R195). -/
def execCollAllred (m : Marks) (slot : BitVec 4) (opr : FoldOp) (ka kb : KIdx) (s : State) : Out3 :=
  commit s (collWith m slot 0 opr ka kb 0)
/-- COLL.REDSCAT. -/
def execCollRedscat (m : Marks) (slot : BitVec 4) (opr : FoldOp) (ka kb : KIdx) (s : State) : Out3 :=
  commit s (collWith m slot 1 opr ka kb 0)
/-- COLL.ALLGATH. -/
def execCollAllgath (m : Marks) (slot : BitVec 4) (opr : FoldOp) (ka kb : KIdx) (s : State) : Out3 :=
  commit s (collWith m slot 2 opr ka kb 0)
/-- COLL.BCAST: the root is x[X]. -/
def execCollBcast (m : Marks) (slot : BitVec 4) (opr : FoldOp) (ka kb : KIdx) (x : XReg) (s : State) : Out3 :=
  commit s (fun w => collWith m slot 3 opr ka kb (rx w x) w)

/-- COLLGRP with a descriptor (R193). -/
def collgrpWith (m : Marks) (slot : BitVec 4) (x : XReg) (mk : Nat → CmdOp) (w : Work) : Work :=
  let v := rx w x
  if v.toNat % 64 ≠ 0 then trapMisalign w m v 64 2
  else if Config.scrSize < v.toNat + 64 then trapOwn w m 4 v 1 0
  else commitCmd w m .xq (fun id => { mkCmd w id (mk v.toNat) 0 0 0 with slot := slot.toNat })

/-- COLLGRP.FORM (R193). -/
def execCollgrpForm (m : Marks) (slot : BitVec 4) (x : XReg) (s : State) : Out3 := commit s (collgrpWith m slot x .form)
/-- COLLGRP.REFORM (R197). -/
def execCollgrpReform (m : Marks) (slot : BitVec 4) (x : XReg) (s : State) : Out3 := commit s (collgrpWith m slot x .reform)
/-- COLLGRP.RELEASE (R193). -/
def execCollgrpRelease (m : Marks) (slot : BitVec 4) (s : State) : Out3 :=
  commit s (fun w => commitCmd w m .xq (fun id => { mkCmd w id .release 0 0 0 with slot := slot.toNat }))

end Sys2Proof.Machine
end

