-- ==== Sys2Proof/Machine/Sync.lean ====
section
/-! DEFINITION. Atomics, WAITMON, barriers, the fleeting-store instructions, fences, sleeps, the generator (R199 to R218). -/
namespace Sys2Proof.Machine

/-! ## Atomics (R200 to R203) -/

/-- Whether every earlier access of the task is performed at a scope (R290). -/
def quietAt (w : Work) (s : Nat) : Bool := (allIds (me w)).all (performedAt (me w) s)

/-- A bank or atomic-unit step of the task: nothing of SQ(t) on its bytes, release and guards satisfied. One that may put the
task to sleep waits for every earlier result, and nothing issues behind it before it is over (R85): it takes no GAP. -/
def issueStep (w : Work) (m : Marks) (d : XReg) (sp : Space) (ea : Nat) (x : Xlate) (acc : Access) (k : AccKind)
    (acq : Bool) (rel : Option Nat) : Work :=
  let (id, w') := newId w
  let reqs := [mkReq w id sp ea x acc 0]
  let held := match rel with
    | some s => !quietAt w s
    | none => false
  let sleeps := match acc with
    | .arm .. => true
    | .bar op _ => decide (op = 2) || decide (op = 3)
    | _ => false
  if held = true ∨ mayIssue w k reqs = false ∨ (sleeps && resultsPending (me w)) = true ∨ sqCover (me w).fl.sq (locsFrom x.addr (accLen acc)) ≠ .none then notReady m w
  else issueAccess w' m id (.x d.toNat) sp (if sleeps then 0 else gapFor m sp) (decide (k = 2)) false acq false reqs

/-- An AMO (R201). -/
def amo (m : Marks) (op n : Nat) (d a b c : XReg) (sp : Space) (sc : BitVec 3) (ord : Order) (w : Work) : Work :=
  let ea := rx w a
  match locate w sp ea n n .both with
  | (.error e, w) => trapWith w m e
  | (.ok x, w) =>
    issueStep w m d sp ea.toNat x (.amo op n ((rx w b).toNat % 2 ^ (8 * n)) ((rx w c).toNat % 2 ^ (8 * n))) 2
      (isAcq ord) (if isRel ord then some sc.toNat else none)

def amoBytes (dbl : Bool) : Nat := if dbl then 8 else 4

/-- AMO.ADD (R200). -/
def execAmoAdd (m : Marks) (dbl : Bool) (d a b : XReg) (sp : Space) (sc : BitVec 3) (ord : Order) (s : State) : Out3 :=
  commit s (amo m 0 (amoBytes dbl) d a b 0 sp sc ord)
/-- AMO.AND (R200). -/
def execAmoAnd (m : Marks) (dbl : Bool) (d a b : XReg) (sp : Space) (sc : BitVec 3) (ord : Order) (s : State) : Out3 :=
  commit s (amo m 1 (amoBytes dbl) d a b 0 sp sc ord)
/-- AMO.OR (R200). -/
def execAmoOr (m : Marks) (dbl : Bool) (d a b : XReg) (sp : Space) (sc : BitVec 3) (ord : Order) (s : State) : Out3 :=
  commit s (amo m 2 (amoBytes dbl) d a b 0 sp sc ord)
/-- AMO.XOR (R200). -/
def execAmoXor (m : Marks) (dbl : Bool) (d a b : XReg) (sp : Space) (sc : BitVec 3) (ord : Order) (s : State) : Out3 :=
  commit s (amo m 3 (amoBytes dbl) d a b 0 sp sc ord)
/-- AMO.MIN (R200). -/
def execAmoMin (m : Marks) (dbl : Bool) (d a b : XReg) (sp : Space) (sc : BitVec 3) (ord : Order) (s : State) : Out3 :=
  commit s (amo m 4 (amoBytes dbl) d a b 0 sp sc ord)
/-- AMO.MAX (R200). -/
def execAmoMax (m : Marks) (dbl : Bool) (d a b : XReg) (sp : Space) (sc : BitVec 3) (ord : Order) (s : State) : Out3 :=
  commit s (amo m 5 (amoBytes dbl) d a b 0 sp sc ord)
/-- AMO.MINU (R200). -/
def execAmoMinu (m : Marks) (dbl : Bool) (d a b : XReg) (sp : Space) (sc : BitVec 3) (ord : Order) (s : State) : Out3 :=
  commit s (amo m 6 (amoBytes dbl) d a b 0 sp sc ord)
/-- AMO.MAXU (R200). -/
def execAmoMaxu (m : Marks) (dbl : Bool) (d a b : XReg) (sp : Space) (sc : BitVec 3) (ord : Order) (s : State) : Out3 :=
  commit s (amo m 7 (amoBytes dbl) d a b 0 sp sc ord)
/-- AMO.SWAP (R200). -/
def execAmoSwap (m : Marks) (dbl : Bool) (d a b : XReg) (sp : Space) (sc : BitVec 3) (ord : Order) (s : State) : Out3 :=
  commit s (amo m 8 (amoBytes dbl) d a b 0 sp sc ord)
/-- AMO.CAS (R200). -/
def execAmoCas (m : Marks) (dbl : Bool) (d a b c : XReg) (sp : Space) (sc : BitVec 3) (ord : Order) (s : State) : Out3 :=
  commit s (amo m 9 (amoBytes dbl) d a b c sp sc ord)
/-- AMO.FADD (R200). -/
def execAmoFadd (m : Marks) (d a b : XReg) (sp : Space) (sc : BitVec 3) (ord : Order) (s : State) : Out3 :=
  commit s (amo m 10 4 d a b 0 sp sc ord)
/-- AMO.BFADD (R200). -/
def execAmoBfadd (m : Marks) (d a b : XReg) (sp : Space) (sc : BitVec 3) (ord : Order) (s : State) : Out3 :=
  commit s (amo m 11 4 d a b 0 sp sc ord)

/-- WAITMON (R204). -/
def execWaitmon (m : Marks) (dbl : Bool) (d a b c : XReg) (sp : Space) (_sc : BitVec 3) (ord : Order) (s : State) : Out3 :=
  commit s (fun w =>
    let n := amoBytes dbl
    let ea := rx w a
    match locate w sp ea n n .read with
    | (.error e, w) => trapWith w m e
    | (.ok x, w) =>
      let dl := if b = 0 then none else some (rx w b).toNat
      issueStep w m d sp ea.toNat x (.arm n ((rx w c).toNat % 2 ^ (8 * n)) dl) 0 (isAcq ord) none)

/-! ## Barriers (R206 to R210) -/

/-- The scope level that joins two glades of the package (R287). -/
def joinLevel (g h : Nat) : Nat :=
  if g = h then 0
  else if !isMgmt g && !isMgmt h && decide (groveOf g = groveOf h) then 1
  else if dieOf g = dieOf h then 2
  else 3

/-- One barrier instruction (R208); arriving and dropping are releases at the joining scope, waiting is an acquire (R210). A second arrival waits while
the phase of the first one lasts. (DEDUCED, log entry 57.) -/
def barrier (m : Marks) (op : Nat) (d a : XReg) (tok : Option XReg) (sp : Space) (w : Work) : Work :=
  let ea := rx w a
  match locate w sp ea 4 4 .both with
  | (.error e, w) => trapWith w m e
  | (.ok x, w) =>
    let hg := (gladeAt x.addr).getD 0
    let again := (me w).fl.bars.any (fun e => e.addr == x.addr && e.arrived && decide (e.phase = (barOf (w.nat x.addr 4)).phase))
    if (op = 1 ∨ op = 3) ∧ again = true then notReady m w
    else
      let token := match tok with
        | some b => bits (rx w b).toNat 29 26
        | none => 0
      issueStep w m d sp ea.toNat x (.bar op token) 2 (decide (op = 2 ∨ op = 3)) (if op = 1 ∨ op = 3 ∨ op = 4 then some (joinLevel (curG w) hg) else none)

/-- BAR.JOIN (R208). -/
def execBarJoin (m : Marks) (d a : XReg) (sp : Space) (s : State) : Out3 := commit s (barrier m 0 d a none sp)
/-- BAR.ARRIVE (R208). -/
def execBarArrive (m : Marks) (d a : XReg) (sp : Space) (s : State) : Out3 := commit s (barrier m 1 d a none sp)
/-- BAR.WAIT (R208). -/
def execBarWait (m : Marks) (d a b : XReg) (sp : Space) (s : State) : Out3 := commit s (barrier m 2 d a (some b) sp)
/-- BAR.ARRWAIT (R208). -/
def execBarArrwait (m : Marks) (d a : XReg) (sp : Space) (s : State) : Out3 := commit s (barrier m 3 d a none sp)
/-- BAR.DROP (R208). -/
def execBarDrop (m : Marks) (d a : XReg) (sp : Space) (s : State) : Out3 := commit s (barrier m 4 d a none sp)

/-! ## Fleeting tiles (R211, R212) -/

/-- A step on a tile's birth register, after every earlier fleeting access of the task: R212 asks it for the stores to that tile,
and the model for all, so that births follow the task's order. (DESIGN CHOICE, log entry 89.) -/
def tileStep (m : Marks) (op : Nat) (d a : XReg) (w : Work) : Work :=
  let v := rx w a
  if Config.fltSize ≤ v.toNat then trapOwn w m 4 v 3 0
  else if (me w).fl.outs.any (fun o => decide (o.sp = .flt)) then notReady m w
  else
    issueStep w m d .flt v.toNat (placeFlat (fltAt (curG w) (v.toNat / 4096 * 4096))) (.birth op) 0 false none

/-- FRENEW (R211). -/
def execFrenew (m : Marks) (d a : XReg) (s : State) : Out3 := commit s (tileStep m 0 d a)
/-- FLIFE (R211). -/
def execFlife (m : Marks) (d a : XReg) (s : State) : Out3 := commit s (tileStep m 1 d a)
/-- FCLAIM (R211). -/
def execFclaim (m : Marks) (d a : XReg) (s : State) : Out3 := commit s (tileStep m 2 d a)

/-! ## Fences (R213, R214, R222) -/

/-- The earlier accesses a FENCE names: 0 full, 1 acquire, 2 release, 3 stores. (DEDUCED, log entry 58.) -/
def fenceIds (kind : Nat) (T : Task) : List Nat :=
  (T.fl.outs.filter (fun o => match kind with
    | 1 => !o.store || o.atom
    | 3 => o.store
    | _ => true)).map (·.id)

def fence (m : Marks) (kind covers : Nat) (sc : BitVec 3) (w : Work) : Work :=
  let ids := fenceIds kind (me w)
  next m (if ids = [] then w
    else updMyFl w (fun f => { f with guards := f.guards ++ [{ ids := ids, scope := sc.toNat, covers := covers }] }))

/-- FENCE.FULL (R213). -/
def execFenceFull (m : Marks) (sc : BitVec 3) (s : State) : Out3 := commit s (fence m 0 0 sc)
/-- FENCE.ACQ (R213). -/
def execFenceAcq (m : Marks) (sc : BitVec 3) (s : State) : Out3 := commit s (fence m 1 0 sc)
/-- FENCE.REL (R213). -/
def execFenceRel (m : Marks) (sc : BitVec 3) (s : State) : Out3 := commit s (fence m 2 1 sc)
/-- FENCE.ST (R213). -/
def execFenceSt (m : Marks) (sc : BitVec 3) (s : State) : Out3 := commit s (fence m 3 2 sc)

/-- The queues of a FENCEQ mask (R296). -/
def maskQueues (mask : BitVec 10) : List Queue :=
  (List.range 9).filterMap (fun i =>
    if mask.getLsbD i then ([Queue.mq, .cq0, .cq1, .cq2, .cq3, .xq, .sr, .sw, .ms])[i]? else none)
/-- The classes of an SBAR mask (R222). -/
def maskStreams (mask : BitVec 3) : List Queue :=
  (List.range 3).filterMap (fun i => if mask.getLsbD i then ([Queue.sr, .sw, .ms])[i]? else none)

/-- The commands that stand in the named queues now. -/
def cmdsAhead (w : Work) (qs : List Queue) : List (Queue × Nat) :=
  (qs.map (fun q => ((cmdsOf w.ctl (curG w) q).filter (fun c => !isFence c)).map (fun c => (q, c.id)))).flatten

/-- Place one fence entry in each named queue; with `wait` the task is not ready until it is released. -/
def placeFence (m : Marks) (qs : List Queue) (stores : List Nat) (scope : Nat) (wait : Bool) (w : Work) : Work :=
  let (id, w) := newId w
  let f : Fence := { id := id, t := curT w, queues := qs, cmds := cmdsAhead w qs, stores := stores, scope := scope }
  let w := updEng w (curG w) (fun e => { e with fences := e.fences ++ [f] })
  let entry := mkCmd w id .fence 0 0 0
  let w := qs.foldl (fun w q => updQ w (curG w) q (· ++ [entry])) w
  let w := if wait then updMe w (fun T => { T with wait := some (.entry id) }) else w
  next m w

def fenceqWith (m : Marks) (mask : BitVec 10) (sc : BitVec 3) (wait : Bool) (w : Work) : Work :=
  if mask = 0 then next m w
  else placeFence m (maskQueues mask)
    (if mask.getLsbD 9 then ((me w).fl.outs.filter (·.store)).map (·.id) else []) sc.toNat wait w

/-- FENCEQ (R214). -/
def execFenceq (m : Marks) (mask : BitVec 10) (sc : BitVec 3) (s : State) : Out3 := commit s (fenceqWith m mask sc false)
/-- FENCEQ.W (R214). -/
def execFenceqW (m : Marks) (mask : BitVec 10) (sc : BitVec 3) (s : State) : Out3 := commit s (fenceqWith m mask sc true)

def sbarWith (m : Marks) (mask : BitVec 3) (wait : Bool) (w : Work) : Work :=
  if mask = 0 then next m w else placeFence m (maskStreams mask) [] 0 wait w

/-- SBAR (R222). -/
def execSbar (m : Marks) (mask : BitVec 3) (s : State) : Out3 := commit s (sbarWith m mask false)
/-- SBAR.W (R222). -/
def execSbarW (m : Marks) (mask : BitVec 3) (s : State) : Out3 := commit s (sbarWith m mask true)

/-- Release an entry whose commands have completed and whose stores are performed (R296). -/
def releaseFence (w : Work) (g id : Nat) : Work :=
  match (gladeOf w.ctl g).ctx.eng.fences.find? (fun f => f.id == id) with
  | none => w
  | some f =>
    let T := taskOf w.ctl g f.t
    let left := f.cmds.any (fun p => (cmdsOf w.ctl g p.1).any (fun c => c.id == p.2))
    if left ∨ f.stores.all (performedAt T f.scope) = false then w
    else
      let w := f.queues.foldl (fun w q => updQ w g q (fun l => l.filter (fun c => c.id != id))) w
      let w := updEng w g (fun e => { e with fences := e.fences.filter (fun x => x.id != id) })
      updTask w g f.t (fun T => if T.wait = some (.entry id) then { T with wait := none } else T)

/-- FENCEQ_ENTRY_RELEASE (R296). -/
def execFenceqEntryRelease (g id : Nat) (s : State) : Out3 := commit s (fun w => releaseFence w g id)

/-! ## Time, yield, exit (R215 to R217) -/

/-- A copy promise up to a tick whose COPY has not completed (R215). -/
def promiseBroken (T : Task) (till : Nat) : Bool :=
  T.fl.recs.any (fun r => match r.prom with
    | some p => decide (p ≤ till) && !r.done
    | none => false)

def sleepUntil (m : Marks) (a : XReg) (np : Bool) (w : Work) : Work :=
  let till := (rx w a).toNat
  if till ≤ w.ctl.tick then
    (if !np && promiseBroken (me w) till then trapOwn w m 0xA 0 (w64 till) 0 else next m w)
  else if resultsPending (me w) then notReady m w
  else updMe (next m w) (fun T => fallAsleep T (.sleepuntil till np))

/-- SLEEPUNTIL (R215). -/
def execSleepuntil (m : Marks) (a : XReg) (s : State) : Out3 := commit s (sleepUntil m a false)
/-- SLEEPUNTIL.NP (R215). -/
def execSleepuntilNp (m : Marks) (a : XReg) (s : State) : Out3 := commit s (sleepUntil m a true)

/-- A sleeper whose tick has come: it runs on, or takes PROMISE with EPC at the SLEEPUNTIL (R215). -/
def wakeSleeper (w : Work) (g t : Nat) : Work :=
  match (taskOf w.ctl g t).run with
  | .sleeping (.sleepuntil till np) =>
    if till ≤ w.ctl.tick then
      let w := updTask w g t (fun T => { T with run := .runnable })
      let T := taskOf w.ctl g t
      if !np && promiseBroken T till then
        raiseAt w g t { code := 0xA, epc := T.pc - 8, eaddr := 0, eval := w64 till, detail := 0, bundle := false }
      else w
    else w
  | _ => w

/-- SLEEPUNTIL_WAKE (R215). -/
def execSleepuntilWake (g t : Nat) (s : State) : Out3 := commit s (fun w => wakeSleeper w g t)

/-- A monitor whose deadline has come wakes its task (R204). -/
def monitorDeadline (w : Work) (g t : Nat) : Work :=
  match (taskOf w.ctl g t).run with
  | .sleeping (.waitmon a _ (some dl) _ _) =>
    if dl ≤ w.ctl.tick then
      let hg := (gladeAt a).getD g
      disarm (wakeMonitor w g t) hg g t
    else w
  | _ => w

/-- WAITMON_DEADLINE (R204). -/
def execWaitmonDeadline (g t : Nat) (s : State) : Out3 := commit s (fun w => monitorDeadline w g t)

/-- RDTICK (R215). -/
def execRdtick (m : Marks) (d : XReg) (s : State) : Out3 := commit s (fun w => next m (wx w m d (w64 w.ctl.tick)))
/-- YIELD (R216): the task's run ends, and its launch has met a yield point (R342). -/
def execYield (m : Marks) (s : State) : Out3 :=
  commit s (fun w =>
    let w := updCtx w (curG w) (fun x => { x with runEnd := true })
    next m (match (gladeOf w.ctl (curG w)).owner with
      | some o => updLaunch w o.part o.launch (fun l => { l with yielded := true })
      | none => w))
/-- The end of a task at its EXIT: in the handler of a fatal trap with that trap's record (R103, R380). -/
def exitTask (w : Work) : Work :=
  let T := me w
  if T.sys.inh && T.sys.estat.getLsbD 16 then
    retireFatal w (curG w) (curT w)
      { code := T.sys.ecause.toNat, epc := T.sys.trapEpc, eaddr := T.sys.eaddr, eval := T.sys.eval, detail := 0, bundle := false } 1
  else retire w (curG w) (curT w)

/-- EXIT (R217): once SQ(t) is empty and every earlier result is written, the task retires.
(DEDUCED, log entry 29.) -/
def execExit (m : Marks) (s : State) : Out3 :=
  commit s (fun w =>
    if (me w).fl.sq ≠ [] ∨ resultsPending (me w) = true then notReady m w else exitTask (next m w))

/-! ## The generator (R218) -/

/-- RNG.SEED. -/
def execRngSeed (m : Marks) (a b : XReg) (s : State) : Out3 :=
  commit s (fun w =>
    let x := rx w a
    let y := rx w b
    next m (updMyRegs w (fun r => { r with rng0 := x, rng1 := y })))

def rngDraw (m : Marks) (d : XReg) (f : Word → Word) (w : Work) : Work :=
  let T := me w
  let (a, b, o) := rngStep T.regs.rng0 T.regs.rng1
  next m (wx (updMyRegs w (fun r => { r with rng0 := a, rng1 := b })) m d (f o))

/-- RNG.NEXT. -/
def execRngNext (m : Marks) (d : XReg) (s : State) : Out3 := commit s (rngDraw m d id)
/-- RNG.GET: below x[A] where that is not zero. -/
def execRngGet (m : Marks) (d a : XReg) (s : State) : Out3 :=
  commit s (fun w =>
    let n := rx w a
    rngDraw m d (fun o => if n = 0 then o else w64 (o.toNat * n.toNat / 2 ^ 64)) w)

end Sys2Proof.Machine
end

