-- ==== Sys2Proof/Machine/Deliver.lean ====
section
/-! DEFINITION. The steps of the ordering machine that carry task requests (R285), and trap entry (R103). -/
namespace Sys2Proof.Machine

/-- SQ_DRAIN (R285, R290). -/
def execSqDrain (g t : Nat) (s : State) : Out3 := commit s (fun w => drainStep w g t)
/-- BANK_PERFORM (R307, R308). -/
def execBankPerform (g bank : Nat) (s : State) : Out3 := commit s (fun w => bankStep w g bank)
/-- BRIDGE_PERFORM (R284, R72). -/
def execBridgePerform (b : Nat) (s : State) : Out3 := commit s (fun w => bridgeStep w b)
/-- REPLAY_RELEASE (R72). -/
def execReplayRelease (b : Nat) (s : State) : Out3 := commit s (fun w => replayStep w b)
/-- REMOTE_MESSAGE_ARRIVE (R311). -/
def execRemoteMessageArrive (g : Nat) (s : State) : Out3 := commit s (fun w => rmqArrive w g)
/-- REMOTE_MESSAGE_DISPATCH (R311). -/
def execRemoteMessageDispatch (g : Nat) (s : State) : Out3 := commit s (fun w => rmqDispatch w g)
/-- CREDIT_RETURN_RECEIVE (R312). -/
def execCreditReturnReceive (g target : Nat) (s : State) : Out3 := commit s (fun w => creditReceive w g target)

/-- The next barrier of a retired task drops: a request like any other, once every earlier access of the task is performed at
the scope that joins the two glades (R209, R210, R302). -/
def leaveStep (w : Work) (g t : Nat) : Work :=
  let T := taskOf w.ctl g t
  match T.run, T.fl.bars with
  | .retired, e :: _ =>
    let (id, w') := newId w
    let r := taskReq w g t id e.sp e.va (placeFlat e.addr) (.bar 4 0) 0
    let hg := (gladeAt e.addr).getD g
    if resultsPending T || !((allIds T).all (performedAt T (joinLevel g hg))) || !canEnter w.ctl r ||
        (decide (e.sp = .rscr) && decide (creditsOf w.ctl g hg = 0)) then w
    else
      let w := updTask w' g t (fun T => { T with fl := { T.fl with outs := T.fl.outs ++
        [{ id := id, store := false, atom := true, lvl := 0, left := 1, stage := 0, bad := none, dest := .none, gap := 0, pc := T.pc
           fe := false, sp := homeSp r }] } })
      send (if e.sp = .rscr then spendCredits w g hg 1 else w) r
  | _, _ => w

/-- Trap entry of a cause that waited for earlier results (R85, R103), and where it comes after its instruction for that
instruction's stores to the glade's own stores, which may meet a watchpoint (R102, R394). A cause taken after its instruction
has EPC at the next one. -/
def deliverPend (w : Work) (g t : Nat) : Work :=
  let T := taskOf w.ctl g t
  match T.pend with
  | none => w
  | some c =>
    if resultsPending T ∨ T.run ≠ .runnable ∨ T.wait.isSome = true ∨ T.held.isSome = true ∨
        (causeAfter c.code && !localQuiet T true) = true then w
    else enterTrap (updTask w g t (fun T => { T with pend := none })) g t { c with epc := if causeAfter c.code then T.pc else c.epc }

/-- TRAP_ENTRY (R103). -/
def execTrapEntry (g t : Nat) (s : State) : Out3 := commit s (fun w => deliverPend w g t)

/-- ENGINE_COMMIT_SAMPLE (R396). -/
def execEngineCommitSample (g src v : Nat) (s : State) : Out3 := commit s (fun w => sample w g src v)

end Sys2Proof.Machine
end

