-- ==== Sys2Proof/Machine/Plane.lean ====
section
/-! DEFINITION. Thicket planes: configuration commands, validation, status, PLANE and STRM (R219 to R222, R231 to R238,
R252, R253). -/
namespace Sys2Proof.Machine

/-! ## Planes of a glade -/

def elemOf (P : Plane) (e : Nat) : Elem := Tab.getD P.elems e Elem.empty
def arcKey (e j : Nat) : Nat := e * 9 + j
def arcOf (P : Plane) (e j : Nat) : Arc := Tab.getD P.arcs (arcKey e j) Arc.empty
def inOf (x : Elem) (j : Nat) : Nat := ((x.ins.toList[j]?).getD 0).toNat
/-- IN field parts (R231). -/
def inRouted (v : Nat) : Bool := v.testBit 15
def inPort (v : Nat) : Nat := bits v 11 8
def inElem (v : Nat) : Nat := bits v 7 0
/-- The non-empty elements, by number. -/
def liveElems (P : Plane) : List (Nat × Elem) := P.elems.filter (fun p => decide (p.2.kind ≠ 0))

/-! ## Kinds (R234, R235) -/

def cfgKb (v : Nat) : Bool := v.testBit 0
def cfgRm (v : Nat) : Nat := bits v 2 1
def cfgCmp (v : Nat) : Nat := bits v 5 3
def cfgDn (v : Nat) : Bool := v.testBit 15
def cfgLevel (v : Nat) : Nat := bits v 1 0
def cfgDepth (v : Nat) : Nat := bits v 3 2
def cfgVc (v : Nat) : Nat := bits v 8 4
def cfgEnt (v : Nat) : Nat := bits v 5 0

def kindHasDn (k : Nat) : Bool := [1, 2, 3, 13, 15].contains k
/-- Bits of CFG that R235 lists for a kind. -/
def cfgMask (k : Nat) : Nat :=
  match k with
  | 1 => 0x8001
  | 2 => 0x803F
  | 3 => 0x8000
  | 9 => 0x0003
  | 13 => 0x800C
  | 14 => 0x01F0
  | 15 => 0x81FC
  | 16 => 0x003F
  | _ => 0
/-- Whether an OP code is assigned to a kind (R234). -/
def opOk (k op : Nat) : Bool :=
  match k with
  | 1 => decide (op ≤ 0x11)
  | 2 => decide (op ≤ 6)
  | _ => decide (op = 0)
def cfgOk (k v : Nat) : Bool := decide (v &&& cfgMask k = v) && (decide (k ≠ 2) || decide (cfgCmp v ≤ 4))

/-- An input port: 0 must be unrouted, 1 must be routed, 2 may be routed (R234). -/
def portRule (x : Elem) (j : Nat) : Nat :=
  match x.kind with
  | 1 => if j = 0 then 1 else if j = 1 then (if cfgKb x.cfg then 0 else 1) else 0
  | 2 =>
    if j = 0 then 1
    else if x.op = 3 then (if j = 1 then 1 else if j = 2 then (if cfgKb x.cfg then 0 else 1) else 0)
    else if j = 1 then (if cfgKb x.cfg then 0 else 1) else 0
  | 3 | 4 | 13 | 15 => if j = 0 then 1 else 0
  | 5 | 9 => if j < 2 then 1 else 0
  | 6 | 8 => if j < 3 then 1 else 0
  | 7 | 10 => if j < 4 then 2 else 0
  | 11 => if j < 8 then 2 else 1
  | _ => 0
/-- Whether a kind needs one of its optional inputs routed. -/
def needsOne (k : Nat) : Bool := [7, 10, 11].contains k

/-- Whether output port `o` exists (R234). -/
def hasOut (x : Elem) (o : Nat) : Bool :=
  match x.kind with
  | 1 | 2 | 3 => decide (o = 0) || (decide (o = 7) && cfgDn x.cfg)
  | 4 => decide (o < 4)
  | 5 | 8 => decide (o < 2)
  | 6 | 7 | 10 | 12 | 14 | 16 => decide (o = 0)
  | 9 => decide (o < 3)
  | 11 => decide (o < 9)
  | 13 | 15 => decide (o = 7) && cfgDn x.cfg
  | _ => false

/-! ## One command (R231 to R233) -/

/-- What an applied command leaves: the plane, and the element whose stream commands end by R233. -/
abbrev Applied := Except Nat (Plane × Option Nat)

/-- Plane completion (R253): every SNK and VCO finished. -/
def sinksDone (P : Plane) : Bool :=
  let l := (liveElems P).filter (fun p => decide (p.2.kind = 13) || decide (p.2.kind = 15))
  !l.isEmpty && l.all (fun p => p.2.fin)

/-- The sending port of an element of a plane: those of task slots are below 16. -/
def vcoPort (p e : Nat) : Nat := 16 + 256 * p + e

def dropArc (P : Plane) (e j : Nat) : Plane := { P with arcs := Tab.del P.arcs (arcKey e j) }
def dropArcs (P : Plane) (e : Nat) : Plane := (List.range 9).foldl (fun P j => dropArc P e j) P
def putElem (P : Plane) (e : Nat) (x : Elem) : Plane := { P with elems := Tab.set P.elems e x }

def applyCmd (P : Plane) (cmd : Nat) : Applied :=
  let e := bits cmd 29 22
  let f := bits cmd 21 16
  let v := bits cmd 15 0
  let x := elemOf P e
  if 14 ≤ f then .error 1
  else if f = 0 then
    if 16 < v then .error 2
    else
      let P := putElem (dropArcs P e) e { x with kind := v, mode := 0, n := 0, i := 0, fifo := [] }
      .ok ({ P with done := P.done || sinksDone P }, some e)
  else if f ≤ 9 then
    if bits v 14 12 ≠ 0 then .error 2
    else
      let j := f - 1
      let P := if inOf x j = v then P else dropArc P e j
      .ok (putElem P e { x with ins := x.ins.setIfInBounds j (BitVec.ofNat 16 v) }, none)
  else if f = 10 then
    if 256 ≤ v ∨ (x.kind ≠ 0 ∧ opOk x.kind v = false) then .error 2 else .ok (putElem P e { x with op := v }, none)
  else if f = 11 then .ok (putElem P e { x with klo := v }, none)
  else if f = 12 then .ok (putElem P e { x with khi := v }, none)
  else if x.kind ≠ 0 ∧ cfgOk x.kind v = false then .error 2
  else .ok (putElem P e { x with cfg := v }, none)

/-! ## Stream commands of an element -/

def streamQs : List Queue := [.sr, .sw, .ms]
def ofElem (p e : Nat) (c : Cmd) : Bool :=
  match c.op with
  | .stream _ _ _ pl el => decide (pl = p) && decide (el = e)
  | _ => false
def ofPlane (p : Nat) (c : Cmd) : Bool :=
  match c.op with
  | .stream _ _ _ pl _ => decide (pl = p)
  | _ => false

/-- Begun stream commands that `f` picks end without moving more data and without advancing an entry (R233): `aux` 1
marks them. True where there was one. -/
def cutStreams (w : Work) (g : Nat) (f : Cmd → Bool) : Work × Bool :=
  let hit := streamQs.any (fun q => (cmdsOf w.ctl g q).any (fun c => f c && c.begun && !c.fin))
  if hit then
    (streamQs.foldl (fun w q => updQ w g q (fun l => l.map (fun c =>
      if f c && c.begun && !c.fin then { c with fin := true, aux := 1, toks := [], puts := [], got := [] } else c))) w, true)
  else (w, false)

/-! ## Validation (R236) -/

def arcCount (P : Plane) : Nat :=
  (liveElems P).foldl (fun a p => a + ((List.range 9).filter (fun j => inRouted (inOf p.2 j))).length) 0

def elemValueOk (x : Elem) : Bool :=
  opOk x.kind x.op && cfgOk x.kind x.cfg && ([1, 2, 3].contains x.kind || (decide (x.klo = 0) && decide (x.khi = 0))) &&
    !(decide (x.kind = 2) && decide (4 ≤ x.op) && decide (cfgRm x.cfg ≠ 0))

/-- The sources of all routed inputs of non-empty elements. -/
def sources (P : Plane) : List (Nat × Nat) :=
  ((liveElems P).map (fun p => (List.range 9).filterMap (fun j =>
    let v := inOf p.2 j
    if inRouted v then some (inElem v, inPort v) else none))).flatten

def noDups : List (Nat × Nat) → Bool
  | [] => true
  | a :: r => !r.contains a && noDups r

def elemRoutesOk (P : Plane) (x : Elem) : Bool :=
  (List.range 9).all (fun j =>
    let v := inOf x j
    if inRouted v then
      decide (portRule x j ≠ 0) && (let s := elemOf P (inElem v); decide (s.kind ≠ 0) && hasOut s (inPort v))
    else decide (portRule x j ≠ 1)) &&
  (!needsOne x.kind || (List.range 8).any (fun j => decide (portRule x j = 2) && inRouted (inOf x j)))

/-- BIND v of the launch whose context stands at a glade (R331), if valid. -/
def bindOf (c : Ctl) (g v : Nat) : Option (Nat × Nat × Nat) :=
  match ownLaunch c g with
  | none => none
  | some l =>
    match l.rec_.binds[v]? with
    | some (a, b, d) => if a.toNat.testBit 0 then some (a.toNat, b.toNat, d.toNat) else none
    | none => none

def vciVcs (P : Plane) : List Nat := (liveElems P).filterMap (fun p => if p.2.kind = 14 then some (cfgVc p.2.cfg) else none)
def entryEnts (P : Plane) : List Nat := (liveElems P).filterMap (fun p => if p.2.kind = 16 then some (cfgEnt p.2.cfg) else none)

def bindingsOk (c : Ctl) (g p : Nat) (P : Plane) : Bool :=
  let others := ((List.range 4).filter (· != p)).map (planeOf c g)
  let allVci := vciVcs P ++ (others.map vciVcs).flatten
  (liveElems P).all (fun q =>
    if q.2.kind = 14 then
      (match bindOf c g (cfgVc q.2.cfg) with
        | some b => b.1.testBit 16
        | none => false) && decide ((allVci.filter (· == cfgVc q.2.cfg)).length ≤ 1)
    else if q.2.kind = 15 then
      (match bindOf c g (cfgVc q.2.cfg) with
        | some b => b.1.testBit 48
        | none => false)
    else true) &&
  decide ((entryEnts P).length ≤ 1) &&
  (entryEnts P).all (fun n => !((others.map entryEnts).flatten.contains n))

/-- The lowest reason for which a plane fails, that of a rejected command included (R236, R237). -/
def planeFault (c : Ctl) (g p : Nat) (rej : Option Nat) : Option Nat :=
  let P := planeOf c g p
  let l := liveElems P
  let own : Option Nat :=
    if l = [] then none
    else if l.all (fun q => elemValueOk q.2) = false then some 2
    else if 768 < arcCount P then some 3
    else if (l.all (fun q => elemRoutesOk P q.2) && noDups (sources P)) = false then some 4
    else if bindingsOk c g p P = false then some 5
    else none
  match rej, own with
  | some a, some b => some (Nat.min a b)
  | some a, none => some a
  | none, o => o

/-- The active plane leaves the thicket once it is no longer eligible (R255). -/
def dropActive (w : Work) (g : Nat) : Work :=
  match (netOf w.ctl g).active with
  | none => w
  | some p => if (planeOf w.ctl g p).st = .eligible then w else updNet (endWaits w g (16 ≤ ·)) g (fun n => { n with active := none })

/-- The routed input ports of the non-empty elements, in element and port order (R238). -/
def arcKeys (P : Plane) : List Nat :=
  ((liveElems P).map (fun p => ((List.range 9).filter (fun j => inRouted (inOf p.2 j))).map (arcKey p.1))).flatten

/-- Validate one named plane: its state and ERRCODE, and where it succeeds its arc numbers (R237, R238, R252). -/
def validatePlane (w : Work) (g p : Nat) (rej : Option Nat) : Work × Option Nat :=
  let P := planeOf w.ctl g p
  match planeFault w.ctl g p rej with
  | some r => (dropActive (setPlane w g p { P with st := .error, err := r }) g, some r)
  | none =>
    let st := if liveElems P = [] then PState.empty
      else match P.st with
        | .empty | .error => .halted
        | s => s
    (dropActive (setPlane w g p { P with st := st, err := 0, nums := arcKeys P }) g, none)

/-! ## A stream of commands -/

/-- Apply command number `idx`: the planes it names, rejections, ended streams. -/
def applyAt (w : Work) (g : Nat) (pt : CfgPort) (cmd : Nat) : Work × CfgPort :=
  let p := bits cmd 31 30
  let pt := { pt with named := (pt.named.filter (fun n => n.1 != p)) ++ [(p, pt.idx)], idx := pt.idx + 1 }
  if pt.failed.any (fun f => f.1 == p) then (w, pt)
  else
    match applyCmd (planeOf w.ctl g p) cmd with
    | .error r => (w, { pt with failed := pt.failed ++ [(p, r, pt.idx - 1)] })
    | .ok (P, cut) =>
      let w := setPlane w g p P
      match cut with
      | none => (w, pt)
      | some e =>
        let (w, hit) := cutStreams (endWaits w g (· == vcoPort p e)) g (ofElem p e)
        (if hit then setPlane w g p { planeOf w.ctl g p with strmerr := true } else w, pt)

def cfgStatus (idx reason : Nat) : Nat := 2 ^ 63 + idx % 65536 * 2 ^ 32 + reason

/-- The end of an instruction: every named plane is validated; the word for x[D] (R219, R237). -/
def endConfig (w : Work) (g : Nat) (pt : CfgPort) : Work × Nat :=
  let (w, bad) := (List.range 4).foldl (fun (acc : Work × List (Nat × Nat)) p =>
      match pt.named.find? (fun n => n.1 == p) with
      | none => acc
      | some (_, last) =>
        let rej := pt.failed.find? (fun f => f.1 == p)
        match validatePlane acc.1 g p (rej.map (fun f => f.2.1)) with
        | (w, none) => (w, acc.2)
        | (w, some r) => (w, acc.2 ++ [((rej.map (fun f => f.2.2)).getD last, r)])) (w, [])
  match pt.stop with
  | some i => (w, cfgStatus i 7)
  | none =>
    match bad with
    | [] => (w, 0)
    | b :: r => let m := r.foldl (fun (m : Nat × Nat) x => if x.1 < m.1 then x else m) b; (w, cfgStatus m.1 m.2)

def freshPort (t : Nat) (sp : Space) (ea n : Nat) : CfgPort :=
  { t := t, sp := sp, ea := ea, count := n, idx := 0, failed := [], named := [], stop := none }

/-- Apply a whole list of commands at a glade and validate (CFGW, and the plane streams of a dispatch). -/
def applyAll (w : Work) (g : Nat) (cmds : List Nat) : Work × Nat :=
  let (w, pt) := cmds.foldl (fun (a : Work × CfgPort) c => applyAt a.1 g a.2 c) (w, freshPort 0 .dev 0 cmds.length)
  endConfig w g pt

/-- CFGW (R219). -/
def execCfgw (m : Marks) (d a : XReg) (s : State) : Out3 :=
  commit s (fun w =>
    let cmd := (rx w a).toNat % 2 ^ 32
    if (netOf w.ctl (curG w)).port.isSome then notReady m w
    else
      let (w, r) := applyAll w (curG w) [cmd]
      next m (wx w m d (w64 r)))

/-- BOUND, or LEASE then MEMRANGE, of a whole span (R134, R219). -/
def spanFault (w : Work) (sp : Space) (ea n : Nat) (need : Need) : Option Trapped :=
  match sp with
  | .dev =>
    match rangeFault w need false (ea + n) (n / 65536 + 2) ea with
    | some t => some t
    | none => rangeFault w need true (ea + n) (n / 65536 + 2) ea
  | sp => boundOf w sp ea n

/-- CFGS (R219): the configuration port takes the span, its reads behind every guard as a load's are (R290), and the task waits for
its last command. -/
def execCfgs (m : Marks) (d a b : XReg) (sp : Space) (s : State) : Out3 :=
  commit s (fun w =>
    let ea := (rx w a).toNat
    let n := (rx w b).toNat
    if n = 0 ∨ 65536 < n then trapQcfgNone w m
    else if ea % 4 ≠ 0 then trapMisalign w m (rx w a) 4 2
    else
      match spanFault w sp ea (4 * n) .read with
      | some t => trapWith w m t
      | none =>
        if (netOf w.ctl (curG w)).port.isSome ∨ (me w).fl.outs.any (·.store) = true ∨ guardsOpen (me w) 0 = false then notReady m w
        else
          let w := updNet w (curG w) (fun x => { x with port := some (freshPort (curT w) sp ea n) })
          let t := curT w
          let g := curG w
          updTask (next m w) g t (fun T => { T with wait := some (.cfgs d.toNat) }))

/-! ## The configuration port (R232) -/

/-- What the home of a request does with it once its way is clear: none while something stands on the way.
(DESIGN CHOICE, log entry 11.) -/
def homeVerdict (c : Ctl) (r : Req) : Option Verdict :=
  let r := reroute c r
  let home := homeOf c r
  match home with
  | .glade _ => if pathClear c r then some .perform else none
  | h =>
    if (hopPath c r.g h).all (fun k => hopReqs c.net k h = []) && routeSettled c r && (bridgeOf c (bridgeNo c r.g h)).fifo = [] then
      some (verdict c (bridgeNo c r.g h) r)
    else none

/-- Whether a request of the device itself ends now: performed, or come to nothing. -/
def homeOpen (c : Ctl) (r : Req) : Bool :=
  [some Verdict.perform, some .vacated, some .lost].contains (homeVerdict c r)

/-- What the port reads for its next command: nothing yet, bad, or the word. -/
inductive CfgWord where
  | wait | bad (addr detail : Nat) | word (v : Nat)
deriving DecidableEq, Repr

def cfgWord (w : Work) (g : Nat) (pt : CfgPort) : CfgWord × Work :=
  let ea := pt.ea + 4 * pt.idx
  let place : Except XErr Xlate × Work :=
    match pt.sp with
    | .dev => checkDev w g pt.t ea .read
    | .flt => (.ok (placeFlat (fltAt g ea)), w)
    | _ => (.ok (placeFlat (scrAt g ea)), w)
  match place with
  | (.error (.memunc a d), w) => (.bad a d, if d < 2 then (checkRead w a 8).1 else w)
  | (.error _, w) => (.wait, w)
  | (.ok x, w) =>
    let r := taskReq w g pt.t 0 pt.sp ea x (.read 4) 0
    if homeVerdict w.ctl r = some .vacated then (.bad x.addr 3, w)
    else if homeVerdict w.ctl r = some .lost then (.bad x.addr 2, w)
    else if homeOpen w.ctl r = false then (.wait, w)
    else if pt.sp = .flt ∧ expired w.ctl g (ea / 4096) = true then (.word 0, setFe w g pt.t true)
    else
      let (w, f) := checkRead w x.addr 4
      if f.bad then (.bad x.addr (foundDetail f), w) else (.word (leNat (readBytes w x.key x.addr 4)), w)

/-- The port's next command, or the end of its instruction. -/
def cfgStep (w : Work) (g : Nat) : Work :=
  match (netOf w.ctl g).port with
  | none => w
  | some pt =>
    let finish := fun (w : Work) (pt : CfgPort) =>
      let (w, r) := endConfig w g pt
      let w := updNet w g (fun n => { n with port := none })
      match (taskOf w.ctl g pt.t).wait with
      | some (.cfgs d) => putX (updTask w g pt.t (fun T => { T with wait := none })) g pt.t d (w64 r)
      | _ => w
    match cfgWord w g pt with
    | (.wait, w) => w
    | (.bad a d, w) =>
      let n := (taskOf w.ctl g pt.t).sys.launch
      let w := if d < 2 then logEvent w (chanOf w.ctl a) 2 (errAddr a) n false else if d = 3 then logEvent w 48 11 a n false else w
      finish w { pt with stop := some pt.idx }
    | (.word v, w) =>
      let (w, pt) := applyAt w g pt v
      if pt.count ≤ pt.idx then finish w pt else updNet w g (fun n => { n with port := some pt })

/-- CONFIG_COMMAND_APPLY (R232). -/
def execConfigCommandApply (g : Nat) (s : State) : Out3 :=
  commit s (fun w => if (gladeOf w.ctl g).halted then w else cfgStep w g)

/-! ## PLANE (R220, R252, R253) -/

def stNat : PState → Nat
  | .empty => 0
  | .halted => 1
  | .eligible => 2
  | .error => 3

/-- WAITING: FILLED of the ENTRY's entry. -/
def waiting (c : Ctl) (g : Nat) (P : Plane) : Nat :=
  match entryEnts P with
  | [] => 0
  | n :: _ => (bufOf c g n).filled

/-- The plane status word (R253). ARCS of a plane in ERROR with more routed arcs than its 768 is the count modulo 1,024, all that its
ten bits hold. (DESIGN CHOICE, log entry 93.) -/
def planeStatus (c : Ctl) (g p : Nat) : Word :=
  let P := planeOf c g p
  w64 (b2n (decide (P.st = .error)) * 2 ^ 63 + P.err % 16 * 2 ^ 48 + arcCount P % 1024 * 2 ^ 32 +
    waiting c g P % 8192 * 2 ^ 16 + b2n (decide ((netOf c g).active = some p)) * 2 ^ 12 + stNat P.st * 256 +
    b2n P.exp * 64 + b2n P.arberr * 32 + b2n P.strmerr * 16 + b2n P.kinderr * 4 + b2n P.eosmis * 2 + b2n P.done)

/-- PLANE.RUN. -/
def execPlaneRun (m : Marks) (p : BitVec 2) (s : State) : Out3 :=
  commit s (fun w =>
    let P := planeOf w.ctl (curG w) p.toNat
    next m (if P.st = .halted then setPlane w (curG w) p.toNat { P with st := .eligible } else w))
/-- PLANE.HALT. -/
def execPlaneHalt (m : Marks) (p : BitVec 2) (s : State) : Out3 :=
  commit s (fun w =>
    let P := planeOf w.ctl (curG w) p.toNat
    next m (if P.st = .eligible then dropActive (setPlane w (curG w) p.toNat { P with st := .halted, passed := 0 }) (curG w) else w))
/-- PLANE.STAT. -/
def execPlaneStat (m : Marks) (d : XReg) (p : BitVec 2) (s : State) : Out3 :=
  commit s (fun w => next m (wx w m d (planeStatus w.ctl (curG w) p.toNat)))
/-- PLANE.CLR: the sticky bits and the finished marks. -/
def execPlaneClr (m : Marks) (p : BitVec 2) (s : State) : Out3 :=
  commit s (fun w =>
    let P := planeOf w.ctl (curG w) p.toNat
    next m (setPlane w (curG w) p.toNat
      { P with exp := false, arberr := false, strmerr := false, kinderr := false, eosmis := false, done := false
               elems := P.elems.map (fun q => (q.1, { q.2 with fin := false })) }))
/-- PLANE.FREE: configuration, tokens, holds, element state and bound streams go. (DEDUCED, log entry 61.) -/
def execPlaneFree (m : Marks) (p : BitVec 2) (s : State) : Out3 :=
  commit s (fun w =>
    let g := curG w
    let (w, hit) := cutStreams w g (ofPlane p.toNat)
    let P := planeOf w.ctl g p.toNat
    let w := setPlane w g p.toNat { P with elems := [], arcs := [], nums := [], st := .empty, passed := 0, strmerr := P.strmerr || hit }
    next m (dropActive w g))

/-! ## STRM (R221) -/

def streamUses (w : Work) (cls : Nat) (ka : KIdx) : List Use :=
  let f := allFmts.filter (fun x => match fmtBits x with
    | some b => decide (b ≤ 32)
    | none => false)
  [{ ix := ka, k := myKey w ka
     role := { fmts := f, spaces := if cls = 2 then [0] else [1, 2, 3], packed := 0, trans := none, need := .read }
     rel := [] }]

def strmWith (m : Marks) (q : Queue) (cls : Nat) (toMem : Bool) (dep : BitVec 2) (ka : KIdx) (x : XReg) (w : Work) : Work :=
  let us := (streamUses w cls ka).map (fun u => { u with role := { u.role with need := if toMem then .write else .read } })
  let v := (rx w x).toNat
  match (List.range 2).findSome? (checkStep w us none) with
  | some t => trapWith w m t
  | none =>
    if 1024 ≤ v then trapQcfgNone w m
    else
      match keyFault w us none with
      | some t => trapWith w m t
      | none => commitCmd w m q (fun id =>
          mkCmd w id (.stream cls toMem dep.toNat (bits v 9 8) (bits v 7 0)) (myKey w ka) 0 0)

/-- STRM.SR (R221). -/
def execStrmSr (m : Marks) (dep : BitVec 2) (ka : KIdx) (x : XReg) (s : State) : Out3 :=
  commit s (strmWith m .sr 0 false dep ka x)
/-- STRM.SW (R221). -/
def execStrmSw (m : Marks) (dep : BitVec 2) (ka : KIdx) (x : XReg) (s : State) : Out3 :=
  commit s (strmWith m .sw 1 true dep ka x)
/-- STRM.MS (R221): DIR 1 writes device memory. -/
def execStrmMs (m : Marks) (dir : Bool) (dep : BitVec 2) (ka : KIdx) (x : XReg) (s : State) : Out3 :=
  commit s (strmWith m .ms 2 dir dep ka x)

end Sys2Proof.Machine
end

