-- ==== Sys2Proof/Machine/Vc.lean ====
section
/-! DEFINITION. Virtual channels: bindings, sending, spilling, arrival, re-injection, and the VC instructions (R68 to R70,
R223, R293, R326 to R328, R331, R402 to R404). -/
namespace Sys2Proof.Machine

/-! ## Receivers (R331, R402) -/

/-- The logical glade that receives from logical glade `lg` on a binding. -/
def receiverLg (r : LRec) (lg : Nat) (b0 : Nat) : Nat :=
  match bits b0 2 1 with
  | 0 => lg
  | 1 => (lg + r.groves * r.glades) % gladesOf r
  | _ => bits b0 15 8

/-- VXDEST of a launch's VC. -/
def vxOf (c : Ctl) (p n v : Nat) : Nat := (Tab.getD (partOf c p).ten.vxdest (n * 32 + v) 0).toNat

/-- Where the words that glade `g` sends on VC `v` go: physical glade and VC. -/
def destOf (c : Ctl) (g v : Nat) : Option (Nat × Nat) :=
  match (gladeOf c g).owner, ownLaunch c g, bindOf c g v with
  | some o, some l, some (b0, _, _) =>
    let x := vxOf c o.part o.launch v
    if x.testBit 63 then some (bits x 7 0, bits x 12 8)
    else (Tab.find l.map (receiverLg l.rec_ o.lglade b0)).map (fun d => (d, v))
  | _, _, _ => none

/-! ## Spills (R326 to R328) -/

def spillOf (c : Ctl) (g v : Nat) : Spill := Tab.getD (netOf c g).spills v Spill.empty
def setSpill (w : Work) (g v : Nat) (x : Spill) : Work := updNet w g (fun n => { n with spills := Tab.set n.spills v x })
/-- Records of the region of a binding. -/
def spillRecs (c : Ctl) (g v : Nat) : Nat :=
  match bindOf c g v with
  | some (_, _, len) => len / 8
  | none => 0

/-- The place of record `i` of a region, through the launch's own spill extents (R326, R368). -/
def spillPlace (w : Work) (g v i : Nat) : Option Xlate :=
  match ownLaunch w.ctl g, bindOf w.ctl g v with
  | some l, some (_, va, _) =>
    let a := va % 2 ^ 52 + 8 * i
    (findExtent l true a).map (fun p =>
      let (pa, key, tier) := extentPa w g p.2 a
      { addr := flatOf tier pa, key := key, ext := some p.1, svc := false })
  | _, _ => none

/-- A request of the device itself on behalf of the launch of glade `g`. -/
def devReq (w : Work) (g : Nat) (va : Nat) (x : Xlate) (acc : Access) : Req :=
  let o := (gladeOf w.ctl g).owner.getD { part := 0, launch := 0, lglade := 0 }
  { id := 0, g := g, t := 16, sp := .dev, addr := x.addr, va := va, acc := acc, lane := 0, part := o.part, launch := o.launch
    ext := x.ext, key := x.key, svc := x.svc, stack := if x.addr < hostBase then stackOf w.ctl (x.addr % 2 ^ 44) else 0
    born := w.ctl.tick, heldAt := 0 }

def tokNat (t : Token) : Nat := t.k.toNat * 2 ^ 32 + t.d.toNat
def tokOf (v : Nat) : Token := { k := BitVec.ofNat 3 (v / 2 ^ 32), d := BitVec.ofNat 32 v }

/-! ## Sending -/

/-- Words of a binding on their way. -/
def flyCount (c : Ctl) (g v : Nat) : Nat :=
  match (gladeOf c g).owner with
  | none => 0
  | some o => (c.net.fly.filter (fun f => f.src == g && f.svc == v && f.part == o.part && f.launch == o.launch)).length
def backPressed (c : Ctl) (g v : Nat) : Bool := decide (Config.flyDepth ≤ flyCount c g v)

/-- What a send would do now: be held by a full ring of the guard, wait for room, go, or be written to the region. -/
inductive SendWay where
  | held | wait | direct | spill
deriving DecidableEq, Repr

def sendWay (w : Work) (g v : Nat) : SendWay :=
  let s := spillOf w.ctl g v
  let guarded := match destOf w.ctl g v with
    | some d => meetsGuard g (.glade d.1)
    | none => false
  if guarded && guardHeld w.ctl g (((gladeOf w.ctl g).owner.map (·.part)).getD 0) then .held
  else if s.on ∨ 0 < s.count then
    if s.count < spillRecs w.ctl g v then
      match spillPlace w g v s.tail with
      | some x => if homeOpen w.ctl (devReq w g 0 x (.write [])) then .spill else .wait
      | none => .wait
    else .wait
  else if backPressed w.ctl g v then .wait else .direct

/-- A port has found no room for its word: it waits since the first such tick (R70). (DEDUCED, log entry 62.) -/
def portWaits (w : Work) (g v port : Nat) : Work :=
  let s := spillOf w.ctl g v
  if (Tab.find s.waits port).isSome then w else setSpill w g v { s with waits := Tab.set s.waits port w.ctl.tick }

/-- A port has sent its word, or something else holds it up: it waits for room no longer. -/
def portSends (w : Work) (g v port : Nat) : Work :=
  let s := spillOf w.ctl g v
  if (Tab.find s.waits port).isSome then setSpill w g v { s with waits := Tab.del s.waits port } else w

/-- Whether the guard passes a word to a glade of this package (R403): it stays in its grove, or its grove is the
partition's. -/
def gladeGuard (c : Ctl) (g p d : Nat) : Bool :=
  (!isMgmt g && !isMgmt d && decide (groveOf g = groveOf d)) || decide (g = d) ||
    (!isMgmt d && (partOf c p).ten.groves.toNat.testBit (groveOf d))

/-- The address of record `i` of a region. -/
def spillVa (c : Ctl) (g v i : Nat) : Nat := ((bindOf c g v).map (fun b => b.2.1 % 2 ^ 52 + 8 * i)).getD 0

/-- A word goes to its region at TAIL (R327); a store that comes to nothing leaves the record as it was (R405, R434). -/
def spillTok (w : Work) (g v : Nat) (o : Owner) (slot : Option Nat) (t : Token) : Work :=
  let s := spillOf w.ctl g v
  let x1 := vxOf w.ctl o.part o.launch v
  let dest := if x1.testBit 63 then some (bits x1 7 0, bits x1 12 8) else none
  let w := match spillPlace w g v s.tail with
    | some x =>
      if homeVerdict w.ctl (devReq w g 0 x (.write [])) = some .vacated then logEvent w 48 11 x.addr o.launch false
      else if homeVerdict w.ctl (devReq w g 0 x (.write [])) = some .lost then w
      else writeBytes (noteWrite w g o.part o.launch x.ext (spillVa w.ctl g v s.tail)) x.key o.launch x.addr (natLe 8 (tokNat t))
    | none => w
  setSpill w g v { s with
    tail := (s.tail + 1) % spillRecs w.ctl g v, count := s.count + 1
    dests := s.dests ++ [(dest, slot)] }

/-- The hop where a word for glade `d` starts: its receiver's door where it stays in the glade, or where nothing stands on its
way and the model does not hold it back (R22; log entry 10). -/
def flyStart (c : Ctl) (g d : Nat) : Option Hop :=
  let home := Home.glade d
  let busy := (hopPath c g home).any (fun h => hopReqs c.net h home != []) ||
    c.net.fly.any (fun f => f.dst == d && f.hop.isSome)
  if d = g ∨ (c.model.defer = false ∧ busy = false) then none else some (.gladeRouter g)

/-- Send a token whose way is open; `slot` is the sending task, none for the thicket. The guard comes first (R402, R403). -/
def sendTok (w : Work) (g v : Nat) (slot : Option Nat) (t : Token) : Work :=
  let o := (gladeOf w.ctl g).owner.getD { part := 0, launch := 0, lglade := 0 }
  let w := updNet w g (fun n => { n with sent := n.sent + 1 })
  match destOf w.ctl g v with
  | none => w
  | some (d, dv) =>
    if !gladeGuard w.ctl g o.part d then
      dropMessage w g o.part o.launch o.lglade (slot.getD 0)
        (dropWord 0 slot.isNone (bits w.ctl.links.pkgid.toNat 42 32) (bits w.ctl.links.pkgid.toNat 31 24) d dv)
    else if sendWay w g v = .spill then spillTok w g v o slot t
    else
      updNetC w (fun n => { n with fly := n.fly ++
        [{ src := g, svc := v, dst := d, dvc := dv, tok := t, part := o.part, launch := o.launch, lg := o.lglade, slot := slot
           hop := flyStart w.ctl g d, redir := (vxOf w.ctl o.part o.launch v).testBit 63 }] })

/-! ## Arrival (R69, R402) -/

def vcBuf (c : Ctl) (g v : Nat) : VcBuf := Tab.getD (netOf c g).vcin v VcBuf.empty
def setVcBuf (w : Work) (g v : Nat) (b : VcBuf) : Work := updNet w g (fun n => { n with vcin := Tab.set n.vcin v b })
/-- The head a receiver sees: none behind a hold (R74). -/
def vcHead (c : Ctl) (g v : Nat) : Option Token := if (vcBuf c g v).hold then none else (vcBuf c g v).toks.head?

/-- The lowest VC of a mask with a word at its head. -/
def lowestVc (c : Ctl) (g : Nat) (mask : BitVec 32) : Option Nat :=
  (List.range 32).find? (fun v => mask.getLsbD v && (vcHead c g v).isSome)

/-- A sleeper in WAITVC tests its mask again; `d` is none for a task that a launch starts asleep (R344). -/
def wakeVc (w : Work) (g t : Nat) : Work :=
  match (taskOf w.ctl g t).run with
  | .sleeping (.waitvc mask d) =>
    match lowestVc w.ctl g mask with
    | none => w
    | some v =>
      let w := updTask w g t (fun T => { T with run := .runnable })
      match d with
      | some d => putX w g t d (w64 v)
      | none => w
  | _ => w

def wakeVcAll (w : Work) (g : Nat) : Work := ((gladeOf w.ctl g).ctx.tasks.map (·.1)).foldl (fun w t => wakeVc w g t) w

/-- Put a token into an inbound buffer: RECV, and the sleepers of the VC. -/
def placeTok (w : Work) (g v : Nat) (t : Token) : Work :=
  let b := vcBuf w.ctl g v
  let w := sample (setVcBuf w g v { b with toks := b.toks ++ [t] }) g 0xA (b.toks.length + 1)
  wakeVcAll (updNet w g (fun n => { n with recv := n.recv + 1 })) g

def dropFirst {α : Type} (p : α → Bool) : List α → List α
  | [] => []
  | a :: r => if p a then r else a :: dropFirst p r

/-- A word of its own binding whose receiver's context is not loaded waits on its way (R313, R341). -/
def switchedOut (c : Ctl) (f : Fly) : Bool :=
  match launchOf c f.part f.launch with
  | none => false
  | some l =>
    !f.redir && l.map.any (fun m => m.2 == f.dst) &&
      (match (gladeOf c f.dst).owner with
        | some o => !(o.part == f.part && o.launch == f.launch)
        | none => true)

/-- Whether a word can be delivered at its receiver now (R69, R402): its launch's context is not switched out, and the buffer of
the context that is loaded has room, or none is loaded and the guard can record its drop. -/
def canDeliver (c : Ctl) (f : Fly) : Bool :=
  !switchedOut c f &&
    (if (gladeOf c f.dst).owner.isSome then decide ((vcBuf c f.dst f.dvc).toks.length < 16) && admits c f.dst
     else !guardHeld c f.src f.part)

/-- Deliver it: into the buffer, or where no context is loaded counted and recorded as a drop (R402). -/
def deliver (w : Work) (f : Fly) : Work :=
  if (gladeOf w.ctl f.dst).owner.isSome then placeTok w f.dst f.dvc f.tok
  else
    dropMessage w f.src f.part f.launch f.lg (f.slot.getD 0)
      (dropWord 0 f.slot.isNone (bits w.ctl.links.pkgid.toNat 42 32) (bits w.ctl.links.pkgid.toNat 31 24) f.dst f.dvc)

/-- Whether two words stand in one order: of one binding, toward one receiver (R68, R402). -/
def sameBinding (a b : Fly) : Bool :=
  a.src == b.src && a.svc == b.svc && a.part == b.part && a.launch == b.launch && a.dst == b.dst && a.dvc == b.dvc

/-- The oldest word at the door of VC `v` of glade `g` that can be delivered and is the oldest of its binding. -/
def atDoor (c : Ctl) (g v : Nat) : List Fly → List Fly → Option Fly
  | _, [] => none
  | before, f :: r =>
    if f.dst = g ∧ f.dvc = v ∧ f.hop = none ∧ !before.any (sameBinding f) ∧ canDeliver c f then some f
    else atDoor c g v (before ++ [f]) r

/-- A word arrives at VC `v` of glade `g`, if one can. -/
def vcArrive (w : Work) (g v : Nat) : Work :=
  match atDoor w.ctl g v [] w.ctl.net.fly with
  | none => w
  | some f => deliver (updNetC w (fun n => { n with fly := dropFirst (· == f) n.fly })) f

/-- VC_WORD_ARRIVE (R69). -/
def execVcWordArrive (g vc : Nat) (s : State) : Out3 := commit s (fun w => vcArrive w g vc)

/-- A port that has waited long enough is in persistent back-pressure: with a region, the binding spills from now on until it
has been drained (R70, R327). -/
def backPressure (w : Work) (g v : Nat) : Work :=
  let s := spillOf w.ctl g v
  if backPressed w.ctl g v && s.waits.any (fun x => decide (Config.spillAfter ≤ sinceTick w.ctl x.2)) &&
      decide (0 < spillRecs w.ctl g v) then setSpill w g v { s with on := true }
  else w

/-- VC_PERSISTENT_BACKPRESSURE (R70). -/
def execVcPersistentBackpressure (g vc : Nat) (s : State) : Out3 := commit s (fun w => backPressure w g vc)

/-- The word of the record at HEAD as it goes on, its token still to be read: the receiver is the one its sending fixed. -/
def spillWord (c : Ctl) (g v : Nat) (o : Owner) : Option Fly :=
  let sent := ((spillOf c g v).dests.head?).getD (none, none)
  let dest := match sent.1 with
    | some d => some d
    | none => match ownLaunch c g, bindOf c g v with
      | some l, some (b0, _, _) => (Tab.find l.map (receiverLg l.rec_ o.lglade b0)).map (fun d => (d, v))
      | _, _ => none
  dest.map (fun d => { src := g, svc := v, dst := d.1, dvc := d.2, tok := { k := 0, d := 0 }, part := o.part, launch := o.launch
                       lg := o.lglade, slot := sent.2, redir := sent.1.isSome })

/-- The receiving side reads the record at HEAD once every word sent before it has arrived and its buffer has room (R327); a
record that cannot be read ends the launch (R328). -/
def reinject (w : Work) (g v : Nat) : Work :=
  let s := spillOf w.ctl g v
  let o := (gladeOf w.ctl g).owner.getD { part := 0, launch := 0, lglade := 0 }
  if s.count = 0 ∨ 0 < flyCount w.ctl g v then w
  else
    match spillWord w.ctl g v o, spillPlace w g v s.head with
    | some y, some x =>
      let r := devReq w g 0 x (.read 8)
      if !homeOpen w.ctl r || !canDeliver w.ctl y then w
      else
        let gone := homeVerdict w.ctl r
        let (w, f) := if gone = some .perform then checkRead w x.addr 8 else (w, .met)
        if f.bad then
          let w := if gone = some .perform then logEvent w (chanOf w.ctl x.addr) 2 (errAddr x.addr) o.launch false
            else if gone = some .vacated then logEvent w 48 11 x.addr o.launch false else w
          let w := event w (some o.part) (evHead o.launch 0xFF 0 0xB 5) 0 (w64 (spillVa w.ctl g v s.head)) 0
          endLaunch w o.part o.launch 1 0xB
        else
          let t := tokOf (leNat (readBytes w x.key x.addr 8))
          let w := setSpill w g v
            { s with head := (s.head + 1) % spillRecs w.ctl g v, count := s.count - 1, dests := s.dests.tail
                     on := s.on && decide (1 < s.count) }
          deliver w { y with tok := t }
    | _, _ => w

/-- SPILL_RECORD_REINJECT (R327). -/
def execSpillRecordReinject (g vc : Nat) (s : State) : Out3 := commit s (fun w => reinject w g vc)

/-! ## The VC instructions (R223) -/

/-- DETAIL of a VCFAULT as sender: 1 (R98), or none where the task may send. -/
def maySend (w : Work) (v : Nat) : Bool :=
  match bindOf w.ctl (curG w) v with
  | some b => b.1.testBit (32 + curT w)
  | none => false

/-- Whether the task is the receiver of a VC of its glade. -/
def mayRecv (w : Work) (v : Nat) : Bool :=
  match bindOf w.ctl (curG w) v with
  | some b => !b.1.testBit 16 && decide (bits b.1 23 20 = curT w)
  | none => false

def vcFault (w : Work) (m : Marks) (v detail : Nat) : Work := trapOwn w m 0xC 0 (w64 v) detail

/-- SENDVC (R223, R293): a release at the joining scope. -/
def execSendvc (m : Marks) (vc : BitVec 5) (kind : BitVec 3) (a : XReg) (s : State) : Out3 :=
  commit s (fun w =>
    let v := vc.toNat
    if maySend w v = false then vcFault w m v 0
    else
      let d := ((destOf w.ctl (curG w) v).map (·.1)).getD (curG w)
      let quiet := (allIds (me w)).all (performedAt (me w) (joinLevel (curG w) d))
      if quiet = false then notReady m (portSends w (curG w) v (curT w))
      else if sendWay w (curG w) v = .held then notReady m (portSends w (curG w) v (curT w))
      else if sendWay w (curG w) v = .wait then notReady m (portWaits w (curG w) v (curT w))
      else
        let t : Token := { k := kind, d := if kind = 0 then (rx w a).setWidth 32 else 0 }
        let slot := curT w
        next m (sendTok (portSends w (curG w) v slot) (curG w) v (some slot) t))

/-- Take the head word of a VC. -/
def takeVc (w : Work) (g v : Nat) : Work :=
  let b := vcBuf w.ctl g v
  setVcBuf w g v { b with toks := b.toks.tail }

def recvWith (m : Marks) (d : XReg) (vc : BitVec 5) (nb : Bool) (w : Work) : Work :=
  let v := vc.toNat
  if mayRecv w v = false then vcFault w m v 1
  else
    match vcHead w.ctl (curG w) v with
    | some t => next m (wx (takeVc w (curG w) v) m d (w64 (tokNat t)))
    | none => if nb then next m (wx w m d (w64 (2 ^ 63))) else notReady m w

/-- RECVVC. -/
def execRecvvc (m : Marks) (d : XReg) (vc : BitVec 5) (s : State) : Out3 := commit s (recvWith m d vc false)
/-- RECVVC.NB. -/
def execRecvvcNb (m : Marks) (d : XReg) (vc : BitVec 5) (s : State) : Out3 := commit s (recvWith m d vc true)

/-- WAITVC. -/
def execWaitvc (m : Marks) (d : XReg) (mask : BitVec 32) (s : State) : Out3 :=
  commit s (fun w =>
    match (List.range 32).find? (fun v => mask.getLsbD v && !mayRecv w v) with
    | some v => vcFault w m v 1
    | none =>
      if mask = 0 then next m (wx w m d allOnes)
      else
        match lowestVc w.ctl (curG w) mask with
        | some v => next m (wx w m d (w64 v))
        | none => if resultsPending (me w) then notReady m w else updMe (next m w) (fun T => fallAsleep T (.waitvc mask (some d.toNat))))

end Sys2Proof.Machine
end

