-- ==== Sys2Proof/Machine/Vector.lean ====
section
/-! DEFINITION. Vector arithmetic, compares, conversions, scans, permutes and lanes (R142 to R152). -/
namespace Sys2Proof.Machine

def laneBits : LaneW → Nat
  | .b => 8
  | .h => 16
  | .w => 32

def tyBits : LaneTy → Nat
  | .i8 => 8
  | .i16 | .bf => 16
  | .i32 | .f => 32

def flFmt : FLane → FFmt
  | .bf => bf16
  | .f => fp32
def flBits : FLane → Nat
  | .bf => 16
  | .f => 32

/-! ## Integer lanes (R142) -/

/-- A lane function of width `w` on two lanes: the result and whether it was clamped. -/
abbrev LaneOp := Nat → Nat → Nat → Nat × Bool

def plain (f : Nat → Nat → Nat → Nat) : LaneOp := fun w a b => (f w a b % 2 ^ w, false)
def clampTo (w : Nat) (p : Int × Bool) : Nat × Bool := (wrapInt w p.1, p.2)

def lAdd : LaneOp := plain (fun _ a b => a + b)
def lSub : LaneOp := plain (fun w a b => a + 2 ^ w - b)
def lAnd : LaneOp := plain (fun _ a b => a &&& b)
def lOr : LaneOp := plain (fun _ a b => a ||| b)
def lXor : LaneOp := plain (fun _ a b => a ^^^ b)
def lShl : LaneOp := plain (fun w a b => a * 2 ^ (b % w))
def lShr : LaneOp := plain (fun w a b => a / 2 ^ (b % w))
def lSar : LaneOp := plain (fun w a b => wrapInt w (signedOf w a / (2 ^ (b % w) : Nat)))
def lMin : LaneOp := plain (fun w a b => if signedOf w b < signedOf w a then b else a)
def lMax : LaneOp := plain (fun w a b => if signedOf w a < signedOf w b then b else a)
def lMinu : LaneOp := plain (fun _ a b => Nat.min a b)
def lMaxu : LaneOp := plain (fun _ a b => Nat.max a b)
def lMul : LaneOp := plain (fun _ a b => a * b)
def lMulh : LaneOp := plain (fun w a b => wrapInt w (signedOf w a * signedOf w b / (2 ^ w : Nat)))
def lMulhu : LaneOp := plain (fun w a b => a * b / 2 ^ w)
def lAdds : LaneOp := fun w a b => clampTo w (clampSym w (signedOf w a + signedOf w b))
def lSubs : LaneOp := fun w a b => clampTo w (clampSym w (signedOf w a - signedOf w b))
def lAddsu : LaneOp := fun w a b => clampTo w (clampU w (a + b))
def lSubsu : LaneOp := fun w a b => clampTo w (clampU w ((a : Int) - b))
def lAbs : LaneOp := fun w a _ => clampTo w (clampSym w (signedOf w a).natAbs)

/-- Apply a lane function over two registers: every source lane is read before any is written (R133). -/
def mapLanes2 (w : Nat) (f : LaneOp) (x y : BitVec 2048) : BitVec 2048 × Bool :=
  let l := (lanes w x).zipWith (f w) (lanes w y)
  (ofLanes w (l.map (·.1)), l.any (·.2))

def opVV (m : Marks) (lw : LaneW) (d a b : VReg) (f : LaneOp) (w : Work) : Work :=
  let (v, sat) := mapLanes2 (laneBits lw) f (rv w a) (rv w b)
  next m (setSat (wv w m d v) sat)

/-- VADD (R142). -/
def execVadd (m : Marks) (lw : LaneW) (d a b : VReg) (s : State) : Out3 := commit s (opVV m lw d a b lAdd)
/-- VSUB. -/
def execVsub (m : Marks) (lw : LaneW) (d a b : VReg) (s : State) : Out3 := commit s (opVV m lw d a b lSub)
/-- VAND. -/
def execVand (m : Marks) (lw : LaneW) (d a b : VReg) (s : State) : Out3 := commit s (opVV m lw d a b lAnd)
/-- VOR. -/
def execVor (m : Marks) (lw : LaneW) (d a b : VReg) (s : State) : Out3 := commit s (opVV m lw d a b lOr)
/-- VXOR. -/
def execVxor (m : Marks) (lw : LaneW) (d a b : VReg) (s : State) : Out3 := commit s (opVV m lw d a b lXor)
/-- VSHL. -/
def execVshl (m : Marks) (lw : LaneW) (d a b : VReg) (s : State) : Out3 := commit s (opVV m lw d a b lShl)
/-- VSHR. -/
def execVshr (m : Marks) (lw : LaneW) (d a b : VReg) (s : State) : Out3 := commit s (opVV m lw d a b lShr)
/-- VSAR. -/
def execVsar (m : Marks) (lw : LaneW) (d a b : VReg) (s : State) : Out3 := commit s (opVV m lw d a b lSar)
/-- VMIN. -/
def execVmin (m : Marks) (lw : LaneW) (d a b : VReg) (s : State) : Out3 := commit s (opVV m lw d a b lMin)
/-- VMAX. -/
def execVmax (m : Marks) (lw : LaneW) (d a b : VReg) (s : State) : Out3 := commit s (opVV m lw d a b lMax)
/-- VMINU. -/
def execVminu (m : Marks) (lw : LaneW) (d a b : VReg) (s : State) : Out3 := commit s (opVV m lw d a b lMinu)
/-- VMAXU. -/
def execVmaxu (m : Marks) (lw : LaneW) (d a b : VReg) (s : State) : Out3 := commit s (opVV m lw d a b lMaxu)
/-- VMUL. -/
def execVmul (m : Marks) (lw : LaneW) (d a b : VReg) (s : State) : Out3 := commit s (opVV m lw d a b lMul)
/-- VMULH. -/
def execVmulh (m : Marks) (lw : LaneW) (d a b : VReg) (s : State) : Out3 := commit s (opVV m lw d a b lMulh)
/-- VMULHU. -/
def execVmulhu (m : Marks) (lw : LaneW) (d a b : VReg) (s : State) : Out3 := commit s (opVV m lw d a b lMulhu)
/-- VADDS. -/
def execVadds (m : Marks) (lw : LaneW) (d a b : VReg) (s : State) : Out3 := commit s (opVV m lw d a b lAdds)
/-- VSUBS. -/
def execVsubs (m : Marks) (lw : LaneW) (d a b : VReg) (s : State) : Out3 := commit s (opVV m lw d a b lSubs)
/-- VADDSU. -/
def execVaddsu (m : Marks) (lw : LaneW) (d a b : VReg) (s : State) : Out3 := commit s (opVV m lw d a b lAddsu)
/-- VSUBSU. -/
def execVsubsu (m : Marks) (lw : LaneW) (d a b : VReg) (s : State) : Out3 := commit s (opVV m lw d a b lSubsu)
/-- VABS: B is unused. -/
def execVabs (m : Marks) (lw : LaneW) (d a : VReg) (s : State) : Out3 := commit s (opVV m lw d a a lAbs)

/-! ## Floating lanes (R143, R144) -/

def fl1 (fl : FLane) (f : Num → Num) (x : BitVec 2048) : BitVec 2048 :=
  let F := flFmt fl
  ofLanes (flBits fl) ((lanes (flBits fl) x).map (fun a => F.ieee .rne (f (F.val a))))

def fl2 (fl : FLane) (rm : Rnd) (f : Num → Num → Num) (x y : BitVec 2048) : BitVec 2048 :=
  let F := flFmt fl
  ofLanes (flBits fl) ((lanes (flBits fl) x).zipWith (fun a b => F.ieee rm (f (F.val a) (F.val b))) (lanes (flBits fl) y))

def fl3 (fl : FLane) (rm : Rnd) (f : Num → Num → Num → Num) (x y z : BitVec 2048) : BitVec 2048 :=
  let F := flFmt fl
  ofLanes (flBits fl)
    (((lanes (flBits fl) x).zip (lanes (flBits fl) y)).zipWith
      (fun p c => F.ieee rm (f (F.val p.1) (F.val p.2) (F.val c))) (lanes (flBits fl) z))

def opF2 (m : Marks) (fl : FLane) (rm : Rnd) (d a b : VReg) (f : Num → Num → Num) (w : Work) : Work :=
  next m (wv w m d (fl2 fl rm f (rv w a) (rv w b)))
def opF3 (m : Marks) (fl : FLane) (rm : Rnd) (d a b c : VReg) (f : Num → Num → Num → Num) (w : Work) : Work :=
  next m (wv w m d (fl3 fl rm f (rv w a) (rv w b) (rv w c)))

/-- VFADD (R143). -/
def execVfadd (m : Marks) (fl : FLane) (rm : Rnd) (d a b : VReg) (s : State) : Out3 :=
  commit s (opF2 m fl rm d a b (fun x y => x.add rm y))
/-- VFSUB. -/
def execVfsub (m : Marks) (fl : FLane) (rm : Rnd) (d a b : VReg) (s : State) : Out3 :=
  commit s (opF2 m fl rm d a b (fun x y => x.add rm y.neg))
/-- VFMUL. -/
def execVfmul (m : Marks) (fl : FLane) (rm : Rnd) (d a b : VReg) (s : State) : Out3 :=
  commit s (opF2 m fl rm d a b Num.mul)
/-- VFMIN. -/
def execVfmin (m : Marks) (fl : FLane) (d a b : VReg) (s : State) : Out3 :=
  commit s (opF2 m fl .rne d a b (Num.minMax false))
/-- VFMAX. -/
def execVfmax (m : Marks) (fl : FLane) (d a b : VReg) (s : State) : Out3 :=
  commit s (opF2 m fl .rne d a b (Num.minMax true))
/-- VFABS. -/
def execVfabs (m : Marks) (fl : FLane) (d a : VReg) (s : State) : Out3 :=
  commit s (fun w => next m (wv w m d (fl1 fl Num.abs (rv w a))))
/-- VFNEG. -/
def execVfneg (m : Marks) (fl : FLane) (d a : VReg) (s : State) : Out3 :=
  commit s (fun w => next m (wv w m d (fl1 fl Num.neg (rv w a))))
/-- VFMA: one rounding of a × b + c. -/
def execVfma (m : Marks) (fl : FLane) (rm : Rnd) (d a b c : VReg) (s : State) : Out3 :=
  commit s (opF3 m fl rm d a b c (fun x y z => (x.mul y).add rm z))
/-- VFMS: a × b − c. -/
def execVfms (m : Marks) (fl : FLane) (rm : Rnd) (d a b c : VReg) (s : State) : Out3 :=
  commit s (opF3 m fl rm d a b c (fun x y z => (x.mul y).add rm z.neg))
/-- VFNMA: −(a × b) + c. -/
def execVfnma (m : Marks) (fl : FLane) (rm : Rnd) (d a b c : VReg) (s : State) : Out3 :=
  commit s (opF3 m fl rm d a b c (fun x y z => (x.mul y).neg.add rm z))
/-- VFNMS: −(a × b) − c. -/
def execVfnms (m : Marks) (fl : FLane) (rm : Rnd) (d a b c : VReg) (s : State) : Out3 :=
  commit s (opF3 m fl rm d a b c (fun x y z => (x.mul y).neg.add rm z.neg))

def opFunc (m : Marks) (d a : VReg) (f : Nat → Nat) (w : Work) : Work :=
  next m (wv w m d (ofLanes 32 ((lanes 32 (rv w a)).map f)))

/-- VRCP (R56). -/
def execVrcp (m : Marks) (d a : VReg) (s : State) : Out3 := commit s (opFunc m d a vrcpLane)
/-- VRSQ. -/
def execVrsq (m : Marks) (d a : VReg) (s : State) : Out3 := commit s (opFunc m d a vrsqLane)
/-- VEXP2. -/
def execVexp2 (m : Marks) (d a : VReg) (s : State) : Out3 := commit s (opFunc m d a vexp2Lane)
/-- VLOG2. -/
def execVlog2 (m : Marks) (d a : VReg) (s : State) : Out3 := commit s (opFunc m d a vlog2Lane)

/-! ## Compare and select (R145, R146) -/

/-- The format of a floating lane type. -/
def tyFmt : LaneTy → Option FFmt
  | .bf => some bf16
  | .f => some fp32
  | _ => none

def condInt (w : Nat) (c : VCond) (a b : Nat) : Bool :=
  match c with
  | .eq => decide (a = b)
  | .ne => decide (a ≠ b)
  | .lt => decide (signedOf w a < signedOf w b)
  | .ge => decide (signedOf w b ≤ signedOf w a)
  | .ltu => decide (a < b)
  | .geu => decide (b ≤ a)
  | .un => false

def condF (c : VCond) (x y : Num) : Bool :=
  let un := x.isNan || y.isNan
  match c with
  | .eq => x.eq y
  | .ne => un || !(x.eq y)
  | .lt => x.lt y
  | .ge => !un && !(x.lt y)
  | .un => un
  | .ltu | .geu => false

def condLane (ty : LaneTy) (c : VCond) (a b : Nat) : Bool :=
  match tyFmt ty with
  | none => condInt (tyBits ty) c a b
  | some F => condF c (F.val a) (F.val b)

/-- VCMP (R145). -/
def execVcmp (m : Marks) (ty : LaneTy) (cond : VCond) (d a b : VReg) (s : State) : Out3 :=
  commit s (fun w =>
    let k := tyBits ty
    next m (wv w m d (ofLanes k
      ((lanes k (rv w a)).zipWith (fun x y => if condLane ty cond x y then 2 ^ k - 1 else 0) (lanes k (rv w b))))))

/-- VSEL (R146). -/
def execVsel (m : Marks) (lw : LaneW) (d a b c : VReg) (s : State) : Out3 :=
  commit s (fun w =>
    let k := laneBits lw
    next m (wv w m d (ofLanes k
      (((lanes k (rv w a)).zip (lanes k (rv w b))).zipWith (fun p z => if z ≠ 0 then p.1 else p.2) (lanes k (rv w c))))))

/-! ## Conversions (R147, R148) -/

/-- The formats of a conversion pair: source and destination. -/
inductive Cv where
  | f (f : FFmt) (bits : Nat)
  | q4
  | i32
  | i8s
deriving DecidableEq, Repr

def Cv.bits : Cv → Nat
  | .f _ b => b
  | .q4 => 8
  | .i32 => 32
  | .i8s => 8

def cvPair (p : Nat) : Cv × Cv :=
  let F := Cv.f fp32 32
  let B := Cv.f bf16 16
  let E4 := Cv.f e4m3 8
  let E5 := Cv.f e5m2 8
  match p with
  | 0x0 => (F, B)
  | 0x1 => (B, F)
  | 0x2 => (F, E4)
  | 0x3 => (F, E5)
  | 0x4 => (E4, F)
  | 0x5 => (E5, F)
  | 0x6 => (F, .q4)
  | 0x7 => (.q4, F)
  | 0x8 => (F, .i32)
  | 0x9 => (.i32, F)
  | 0xA => (F, .i8s)
  | 0xB => (.i8s, F)
  | 0xC => (B, E4)
  | 0xD => (B, E5)
  | 0xE => (.i32, .i8s)
  | _ => (.i8s, .i32)

/-- The exact value of a source lane, and whether it was the byte 0x80 read as INT8S. -/
def Cv.read (c : Cv) (v : Nat) : Num × Bool :=
  match c with
  | .f F _ => (F.val v, false)
  | .q4 => (e2m1.val (v % 16), false)
  | .i32 => (Num.ofInt (signedOf 32 v), false)
  | .i8s => let (i, cl) := int8s v; (Num.ofInt i, cl)

/-- Round into a destination lane: code and SAT (R44, R45). -/
def Cv.write (c : Cv) (rm : Rnd) (nan : Bool) (u : Nat) (x : Num) : Nat × Bool :=
  match c with
  | .f F b => F.put (if b = 8 then (if nan then .nanMode else .sat) else .ieee) rm u false x
  | .q4 => e2m1.put .sat rm u false x
  | .i32 => let (v, st) := x.toInt rm u (-(2 ^ 31 : Nat)) ((2 ^ 31 : Nat) - 1); (wrapInt 32 v, st)
  | .i8s => let (v, st) := x.toInt rm u (-127) 127; (wrapInt 8 v, st)

/-- VCVT (R147, R148). -/
def execVcvt (m : Marks) (pair : BitVec 4) (rm : Rnd) (nan : Bool) (d a : VReg) (b : XReg) (s : State) : Out3 :=
  commit s (fun w =>
    let (src, dst) := cvPair pair.toNat
    let ws := src.bits
    let wd := dst.bits
    let n := 2048 / Nat.max ws wd
    let parts := Nat.max ws wd / Nat.min ws wd
    let p := (rx w b).toNat % 4 % parts
    let A := rv w a
    let T := me w
    let (outs, s0, s1) := if rm = .sr then rngSteps (ceilDiv n 4) T.regs.rng0 T.regs.rng1 else ([], T.regs.rng0, T.regs.rng1)
    let conv := (List.range n).map (fun i =>
      let (x, cl) := src.read (lane ws A (if ws < wd then p * n + i else i))
      let (v, st) := dst.write rm nan (laneWord outs i) x
      (v, st, cl))
    let vals := conv.map (·.1)
    let res := if wd < ws then
        let old := lanes wd (rv w d)
        ofLanes wd (old.take (p * n) ++ vals ++ old.drop (p * n + n))
      else ofLanes wd vals
    let w := wv w m d res
    let w := updMyRegs w (fun r => { r with rng0 := s0, rng1 := s1 })
    next m (setSticky w { sat := conv.any (·.2.1), clamp := conv.any (·.2.2) }))

/-! ## Scans and reductions (R54, R55, R149) -/

def combine (ty : LaneTy) (op : ROp) (a b : Nat) : Nat :=
  match tyFmt ty with
  | some F =>
    F.ieee .rne (match op with
      | .min => (F.val a).minMax false (F.val b)
      | .max => (F.val a).minMax true (F.val b)
      | _ => (F.val a).add .rne (F.val b))
  | none =>
    let w := tyBits ty
    match op with
    | .add => (a + b) % 2 ^ w
    | .min => if signedOf w b < signedOf w a then b else a
    | .max => if signedOf w a < signedOf w b then b else a
    | .minu => Nat.min a b
    | .maxu => Nat.max a b
    | .and => a &&& b
    | .or => a ||| b
    | .xor => a ^^^ b

/-- One level of the pairwise tree (R54). -/
def pairUp (f : Nat → Nat → Nat) : List Nat → List Nat
  | a :: b :: r => f a b :: pairUp f r
  | l => l

/-- `k` levels. -/
def treeFold (f : Nat → Nat → Nat) : Nat → List Nat → List Nat
  | 0, l => l
  | k + 1, l => treeFold f k (pairUp f l)

/-- One distance of the Kogge–Stone scan over values and head flags. -/
def scanStep (f : Nat → Nat → Nat) (d : Nat) (l : List (Nat × Bool)) : List (Nat × Bool) :=
  l.take d ++ (l.drop d).zipWith (fun (y : Nat × Bool) (x : Nat × Bool) =>
    (if y.2 then y.1 else f x.1 y.1, y.2 || x.2)) l

/-- The distances 1, 2, 4, … below `n`. -/
def scanAll (f : Nat → Nat → Nat) : Nat → Nat → List (Nat × Bool) → List (Nat × Bool)
  | 0, _, l => l
  | k + 1, d, l => scanAll f k (2 * d) (scanStep f d l)

/-- The plain form combines without heads: no flag is set, and none is carried. -/
def scanPlainStep (f : Nat → Nat → Nat) (d : Nat) (l : List Nat) : List Nat :=
  l.take d ++ (l.drop d).zipWith (fun y x => f x y) l

def scanPlain (f : Nat → Nat → Nat) : Nat → Nat → List Nat → List Nat
  | 0, _, l => l
  | k + 1, d, l => scanPlain f k (2 * d) (scanPlainStep f d l)

/-- log2 of the lane count. -/
def tyLevels (ty : LaneTy) : Nat :=
  match ty with
  | .i8 => 8
  | .i16 | .bf => 7
  | .i32 | .f => 6

/-- What a scan writes of a lane's last value: the canonical NaN for any NaN of a float type (R37, R133), in a lane that nothing is
combined into as well, whose value R55 keeps. (DESIGN CHOICE, log entry 92.) -/
def scanOut (ty : LaneTy) (v : Nat) : Nat :=
  match tyFmt ty with
  | some F => if (F.val v).isNan then F.ieee .rne .nan else v
  | none => v

/-- VSCAN (R55, R149). -/
def execVscan (m : Marks) (ty : LaneTy) (op : ROp) (d a : VReg) (h : Option VReg) (s : State) : Out3 :=
  commit s (fun w =>
    let k := tyBits ty
    let l := lanes k (rv w a)
    let res : List Nat := match h with
      | none => scanPlain (combine ty op) (tyLevels ty) 1 l
      | some r =>
        let flags := (lanes k (rv w r)).map (fun x => decide (x ≠ 0))
        (scanAll (combine ty op) (tyLevels ty) 1 (l.zip (true :: flags.drop 1))).map (·.1)
    next m (wv w m d (ofLanes k (res.map (scanOut ty)))))

/-- How VRED writes an x register (R149). -/
def redExtend (ty : LaneTy) (op : ROp) (v : Nat) : Word :=
  match tyFmt ty, op with
  | none, .add | none, .min | none, .max => BitVec.ofInt 64 (signedOf (tyBits ty) v)
  | _, _ => w64 v

/-- VRED (R54, R149). -/
def execVred (m : Marks) (ty : LaneTy) (op : ROp) (d : XVReg) (a : VReg) (s : State) : Out3 :=
  commit s (fun w =>
    let v := ((treeFold (combine ty op) (tyLevels ty) (lanes (tyBits ty) (rv w a))).head?).getD 0
    next m (match d with
      | .x r => wx w m r (redExtend ty op v)
      | .v r => wv w m r (BitVec.ofNat 2048 v)))

/-! ## Permute, broadcast, lanes (R150 to R152) -/

/-- VPERM (R150). -/
def execVperm (m : Marks) (lw : LaneW) (d a b : VReg) (c : Option VReg) (s : State) : Out3 :=
  commit s (fun w =>
    let k := laneBits lw
    let n := 2048 / k
    let A := rv w a
    let C := c.map (rv w)
    next m (wv w m d (ofLanes k ((lanes k (rv w b)).map (fun j =>
      if j < n then lane k A j
      else match C with
        | some v => if j < 2 * n then lane k v (j - n) else 0
        | none => 0)))))

/-- VBCAST from an x register (R151). -/
def execVbcastX (m : Marks) (lw : LaneW) (d : VReg) (a : XReg) (s : State) : Out3 :=
  commit s (fun w =>
    let k := laneBits lw
    next m (wv w m d (ofLanes k (List.replicate (2048 / k) ((rx w a).toNat % 2 ^ k)))))

/-- VBCAST of a lane (R151). -/
def execVbcastV (m : Marks) (lw : LaneW) (d a : VReg) (b : XReg) (s : State) : Out3 :=
  commit s (fun w =>
    let k := laneBits lw
    let n := 2048 / k
    next m (wv w m d (ofLanes k (List.replicate n (lane k (rv w a) ((rx w b).toNat % n))))))

/-- VLANE.GET (R152). -/
def execVlaneGet (m : Marks) (lw : LaneW) (d : XReg) (a : VReg) (b : XReg) (s : State) : Out3 :=
  commit s (fun w =>
    let k := laneBits lw
    next m (wx w m d (BitVec.ofInt 64 (signedOf k (lane k (rv w a) ((rx w b).toNat % (2048 / k)))))))

/-- VLANE.GETU (R152). -/
def execVlaneGetu (m : Marks) (lw : LaneW) (d : XReg) (a : VReg) (b : XReg) (s : State) : Out3 :=
  commit s (fun w =>
    let k := laneBits lw
    next m (wx w m d (w64 (lane k (rv w a) ((rx w b).toNat % (2048 / k))))))

/-- VLANE.SET (R152). -/
def execVlaneSet (m : Marks) (lw : LaneW) (d : VReg) (a b : XReg) (s : State) : Out3 :=
  commit s (fun w =>
    let k := laneBits lw
    next m (wv w m d (ofLanes k (setAt (lanes k (rv w d)) ((rx w b).toNat % (2048 / k)) ((rx w a).toNat % 2 ^ k)))))

/-- VLANE.IOTA (R152). -/
def execVlaneIota (m : Marks) (lw : LaneW) (d : VReg) (s : State) : Out3 :=
  commit s (fun w => next m (wv w m d (ofLanes (laneBits lw) (List.range (2048 / laneBits lw)))))

end Sys2Proof.Machine
end

