-- ==== Sys2Proof/Machine/Fire.lean ====
section
/-! DEFINITION. The firings of thicket elements and the block scheduler (R57 to R65, R239 to R256). -/
namespace Sys2Proof.Machine

/-! ## Tokens -/

def dataTok (v : Nat) : Token := { k := 0, d := BitVec.ofNat 32 v }
def doneTok : Token := { k := 1, d := 0 }
def eosTok (n : Nat) : Token := { k := BitVec.ofNat 3 (4 + n), d := 0 }
def Token.isData (t : Token) : Bool := decide (t.k = 0)
def Token.isDone (t : Token) : Bool := decide (t.k = 1)
def Token.isEos (t : Token) : Bool := t.k.getLsbD 2
def Token.level (t : Token) : Nat := t.k.toNat % 4

/-- What one firing of an element does (R61): the inputs it takes from, the tokens it writes by output port, the sticky
bits it sets, the element after it. -/
structure Firing where
  takes  : List Nat
  writes : List (Nat × Token)
  eosmis : Bool
  kinderr : Bool
  arberr : Bool
  el     : Elem
deriving DecidableEq, Repr

def Firing.plain (x : Elem) (takes : List Nat) (writes : List (Nat × Token)) : Firing :=
  { takes := takes, writes := writes, eosmis := false, kinderr := false, arberr := false, el := x }

/-! ## Heads and outputs -/

/-- The head of an input arc with the beat it was appended in; a held or unrouted arc offers none. -/
def headAt (P : Plane) (e j : Nat) : Option (Token × Nat) :=
  let x := elemOf P e
  let a := arcOf P e j
  if inRouted (inOf x j) && !a.hold then a.toks.head? else none
def headTok (P : Plane) (e j : Nat) : Option Token := (headAt P e j).map (·.1)

/-- The input port that output `o` of element `e` feeds. -/
def consumer (P : Plane) (e o : Nat) : Option (Nat × Nat) :=
  (liveElems P).findSome? (fun p =>
    ((List.range 9).find? (fun j =>
      let v := inOf p.2 j
      inRouted v && decide (inElem v = e) && decide (inPort v = o))).map (fun j => (p.1, j)))

/-- Whether output `o` takes a token: it has a free slot, or feeds nothing. -/
def outFree (P : Plane) (e o : Nat) : Bool :=
  match consumer P e o with
  | none => true
  | some (c, j) => decide ((arcOf P c j).toks.length < 2)

/-- Whether an input port is of class e (R234). -/
def entryPort (x : Elem) (j : Nat) : Bool := (decide (x.kind = 7) && decide (j < 4)) || decide (x.kind = 11)

/-- Append a token to the arc that output `o` feeds; a port of class e discards what is not DATA (R65). -/
def pushTok (P : Plane) (e o : Nat) (t : Token) (beat : Nat) : Plane :=
  match consumer P e o with
  | none => P
  | some (c, j) =>
    if entryPort (elemOf P c) j && !t.isData then { P with kinderr := true }
    else
      let a := arcOf P c j
      { P with arcs := Tab.set P.arcs (arcKey c j) { a with toks := a.toks ++ [(t, beat)] } }

def popTok (P : Plane) (e j : Nat) : Plane :=
  let a := arcOf P e j
  { P with arcs := Tab.set P.arcs (arcKey e j) { a with toks := a.toks.tail } }

/-- A firing on the plane, if every output it writes has a free slot (R61). -/
def applyFiring (P : Plane) (e : Nat) (f : Firing) (beat : Nat) : Option Plane :=
  if f.writes.all (fun o => outFree P e o.1) then
    let P := f.takes.foldl (fun P j => popTok P e j) P
    let P := f.writes.foldl (fun P o => pushTok P e o.1 o.2 beat) P
    let P := putElem P e f.el
    some { P with eosmis := P.eosmis || f.eosmis, kinderr := P.kinderr || f.kinderr, arberr := P.arberr || f.arberr
                  done := P.done || sinksDone P }
  else none

/-! ## R65 -/

/-- Inputs among `js` whose head is of a kind `bad` finds. -/
def wrongAt (P : Plane) (e : Nat) (js : List Nat) (bad : Token → Bool) : Option Nat :=
  js.find? (fun j => match headTok P e j with
    | some t => bad t
    | none => false)

/-- The firing over data and control inputs `js` (R65): `outs` are the outputs an EOS goes to, `eosEl` the element
after a common EOS, `go` the firing on DATA heads. -/
def r65 (P : Plane) (e : Nat) (x : Elem) (js outs : List Nat) (eosEl : Elem) (go : List Nat → Option Firing) : Option Firing :=
  match wrongAt P e js Token.isDone with
  | some j => some { Firing.plain x [j] [] with kinderr := true }
  | none =>
    let hs := js.filterMap (headTok P e)
    if hs.length < js.length then none
    else if hs.all Token.isData then go (hs.map (·.d.toNat))
    else if hs.all Token.isEos then
      let lv := hs.map Token.level
      let top := lv.foldl Nat.max 0
      some { Firing.plain eosEl js (outs.map (fun o => (o, eosTok top))) with eosmis := lv.any (· != top) }
    else
      some { Firing.plain x (js.filter (fun j => (headTok P e j).any Token.isData)) [] with eosmis := true }

/-- The DONE of a DATA firing (R243). -/
def dnOut (x : Elem) : List (Nat × Token) := if kindHasDn x.kind && cfgDn x.cfg then [(7, doneTok)] else []

/-! ## The kinds -/

def sgn32 (v : Nat) : Int := signedOf 32 v

/-- R239: the operations of R107 on 32 bits. -/
def alu32 (op a b : Nat) : Nat :=
  let sh := b % 32
  (match op with
    | 0x00 => a + b
    | 0x01 => a + 2 ^ 32 - b
    | 0x02 => a &&& b
    | 0x03 => a ||| b
    | 0x04 => a ^^^ b
    | 0x05 => a * 2 ^ sh
    | 0x06 => a / 2 ^ sh
    | 0x07 => wrapInt 32 (sgn32 a / (2 ^ sh : Nat))
    | 0x08 => a * 2 ^ sh % 2 ^ 32 ||| a / 2 ^ (32 - sh)
    | 0x09 => a / 2 ^ sh ||| a * 2 ^ (32 - sh) % 2 ^ 32
    | 0x0A => if sgn32 b < sgn32 a then b else a
    | 0x0B => if sgn32 a < sgn32 b then b else a
    | 0x0C => Nat.min a b
    | 0x0D => Nat.max a b
    | 0x0E => b2n (decide (sgn32 a < sgn32 b))
    | 0x0F => b2n (decide (a < b))
    | 0x10 => b2n (decide (a = b))
    | _ => b2n (decide (a ≠ b))) % 2 ^ 32

def constK (x : Elem) : Nat := x.klo + 65536 * x.khi

def rmOf (n : Nat) : Rnd :=
  match n with
  | 0 => .rne
  | 1 => .rz
  | 2 => .rd
  | _ => .ru

def condOf (n : Nat) : VCond :=
  match n with
  | 0 => .eq
  | 1 => .ne
  | 2 => .lt
  | 3 => .ge
  | _ => .un

/-- R240. -/
def falu (op rm cmp a b c : Nat) : Nat :=
  let r := rmOf rm
  let x := fp32.val a
  let y := fp32.val b
  match op with
  | 0 => fp32.ieee r (x.add r y)
  | 1 => fp32.ieee r (x.add r y.neg)
  | 2 => fp32.ieee r (x.mul y)
  | 3 => fp32.ieee r ((x.mul y).add r (fp32.val c))
  | 4 => fp32.ieee .rne (Num.minMax false x y)
  | 5 => fp32.ieee .rne (Num.minMax true x y)
  | _ => b2n (condF (condOf cmp) x y)

def nthD (l : List Nat) (i : Nat) : Nat := (l[i]?).getD 0

def aluFiring (P : Plane) (e : Nat) (x : Elem) : Option Firing :=
  let js := if cfgKb x.cfg then [0] else [0, 1]
  r65 P e x js [0] x (fun v =>
    let b := if cfgKb x.cfg then constK x else nthD v 1
    some (Firing.plain x js ((0, dataTok (alu32 x.op (nthD v 0) b)) :: dnOut x)))

def faluFiring (P : Plane) (e : Nat) (x : Elem) : Option Firing :=
  let n := if x.op = 3 then 3 else 2
  let js := List.range (if cfgKb x.cfg then n - 1 else n)
  r65 P e x js [0] x (fun v =>
    let v := if cfgKb x.cfg then v ++ [constK x] else v
    some (Firing.plain x js ((0, dataTok (falu x.op (cfgRm x.cfg) (cfgCmp x.cfg) (nthD v 0) (nthD v 1) (nthD v 2))) :: dnOut x)))

/-- R241. -/
def constFiring (P : Plane) (e : Nat) (x : Elem) : Option Firing :=
  r65 P e x [0] [0] x (fun _ => some (Firing.plain x [0] ((0, dataTok (constK x)) :: dnOut x)))

/-- R242. -/
def dupFiring (P : Plane) (e : Nat) (x : Elem) : Option Firing :=
  (headTok P e 0).map (fun t => Firing.plain x [0] ((List.range 4).map (fun o => (o, t))))

/-- R64, R244. -/
def steerFiring (P : Plane) (e : Nat) (x : Elem) : Option Firing :=
  r65 P e x [0, 1] [0, 1] x (fun v =>
    some (Firing.plain x [0, 1] [(if nthD v 1 = 0 then 1 else 0, dataTok (nthD v 0))]))

/-- R244. -/
def mergeFiring (P : Plane) (e : Nat) (x : Elem) : Option Firing :=
  match headTok P e 0 with
  | none => none
  | some c =>
    if c.isEos then r65 P e x [0, 1, 2] [0] x (fun _ => none)
    else
      let j := if c.d = 0 then 1 else 2
      r65 P e x (if c.isDone then [0] else [0, j]) [0] x (fun v => some (Firing.plain x [0, j] [(0, dataTok (nthD v 1))]))

/-- The earliest DATA head among inputs below `n`, ties to the lowest input (R245, R249). -/
def earliest (P : Plane) (e n : Nat) : Option (Nat × Token) :=
  let hs := (List.range n).filterMap (fun j => (headAt P e j).map (fun h => (j, h)))
  match hs with
  | [] => none
  | a :: r => let m := r.foldl (fun (m : Nat × Token × Nat) h => if h.2.2 < m.2.2 then h else m) a; some (m.1, m.2.1)

/-- R245. -/
def amergeFiring (P : Plane) (e : Nat) (x : Elem) : Option Firing :=
  (earliest P e 4).map (fun h => Firing.plain x [h.1] [(0, h.2)])

/-- R246: mode 0 INIT, 1 LOOP. -/
def carryFiring (P : Plane) (e : Nat) (x : Elem) : Option Firing :=
  let j := if x.mode = 0 then 0 else 1
  r65 P e x [j, 2] [0, 1] { x with mode := 0 } (fun v =>
    if nthD v 1 ≠ 0 then some (Firing.plain { x with mode := 1 } [j, 2] [(0, dataTok (nthD v 0))])
    else some (Firing.plain { x with mode := 0 } [j, 2] [(1, dataTok (nthD v 0))]))

/-- R247: mode 0 IDLE, 1 RUN. -/
def lceFiring (P : Plane) (e : Nat) (x : Elem) : Option Firing :=
  let lvl := cfgLevel x.cfg
  if x.mode = 0 then
    match headTok P e 0 with
    | none => none
    | some t =>
      if t.isDone then some { Firing.plain x [0] [] with kinderr := true }
      else if t.isEos then some (Firing.plain x [0] [(2, eosTok (Nat.min 3 (t.level + lvl + 1)))])
      else if t.d = 0 then some (Firing.plain { x with n := 0 } [0] [(1, dataTok 0), (2, eosTok lvl)])
      else some (Firing.plain { x with n := t.d.toNat, i := 1, mode := 1 } [0] [(0, dataTok 0), (1, dataTok 1)])
  else
    match headTok P e 1 with
    | none => none
    | some t =>
      if !t.isDone then some { Firing.plain x [1] [] with kinderr := true }
      else if x.i < x.n then some (Firing.plain { x with i := x.i + 1 } [1] [(0, dataTok x.i), (1, dataTok 1)])
      else some (Firing.plain { x with mode := 0 } [1] [(1, dataTok 0), (2, eosTok lvl)])

/-- R248. -/
def djoinFiring (P : Plane) (e : Nat) (x : Elem) : Option Firing :=
  let js := (List.range 4).filter (fun j => inRouted (inOf x j))
  match wrongAt P e js (fun t => !t.isDone) with
  | some j => some { Firing.plain x [j] [] with kinderr := true }
  | none => if js.all (fun j => (headTok P e j).isSome) then some (Firing.plain x js [(0, doneTok)]) else none

/-- The reply form of R249. -/
def arbReply (P : Plane) (e : Nat) (x : Elem) : Option Firing :=
  match headTok P e 8, x.fifo with
  | none, _ => none
  | some _, [] => some { Firing.plain x [8] [] with arberr := true }
  | some t, j :: r => some (Firing.plain { x with fifo := r } [8] [(j, t)])

/-- The grant form of R249; the reply form goes first where both can fire. -/
def arbGrant (P : Plane) (e : Nat) (x : Elem) : Option Firing :=
  let reply := match arbReply P e x with
    | some f => (applyFiring P e f 0).isSome
    | none => false
  if reply || decide (16 ≤ x.fifo.length) then none
  else (earliest P e 8).map (fun h => Firing.plain { x with fifo := x.fifo ++ [h.1] } [h.1] [(8, h.2)])

/-! ## Firing an element -/

/-- The active plane of a glade whose thicket is not frozen, while it fires: not where a decision is due (R255, R256). -/
def activePlane (c : Ctl) (g : Nat) : Option Nat :=
  if (gladeOf c g).halted || (netOf c g).redecide then none
  else
    match (netOf c g).active with
    | some p => if (planeOf c g p).st = .eligible ∧ (planeOf c g p).beats < 256 then some p else none
    | none => none

/-- The first firing after a switch of planes is a sample of source 0x08 (R396). (DEDUCED, log entry 83.) -/
def firstFiring (w : Work) (g : Nat) : Work :=
  match (netOf w.ctl g).switched with
  | none => w
  | some t => updNet (sample w g 8 (sinceTick w.ctl t)) g (fun n => { n with switched := none })

/-- One firing has happened: the plane after it, and the beat counted. -/
def fired (w : Work) (g p : Nat) (P : Plane) : Work :=
  let w := firstFiring w g
  updNet (setPlane w g p { P with beats := P.beats + 1 }) g (fun n => { n with beats := n.beats + 1 })

/-! ## Scores (R254) -/

/-- Work other than waiting threads: a token, a word at a VCI, a bound stream command. -/
def planeHasWork (c : Ctl) (g p : Nat) : Bool :=
  let P := planeOf c g p
  P.arcs.any (fun a => !a.2.toks.isEmpty) || (vciVcs P).any (fun v => !(vcBuf c g v).toks.isEmpty) ||
    streamQs.any (fun q => (cmdsOf c g q).any (fun x => ofPlane p x && x.begun && !x.fin))

/-- The score of R254; 0 where the plane is no candidate. -/
def planeScore (c : Ctl) (g p : Nat) : Nat :=
  let P := planeOf c g p
  if P.st ≠ .eligible then 0
  else
    let k := b2n (planeHasWork c g p)
    match entryEnts P with
    | [] => k
    | _ => Nat.max k (waiting c g P)

/-- The pass-over count of a plane that is no candidate is 0 (R255). -/
def settlePassed (w : Work) (g : Nat) : Work :=
  (List.range 4).foldl (fun w p =>
    let P := planeOf w.ctl g p
    if 0 < P.passed ∧ planeScore w.ctl g p = 0 then setPlane w g p { P with passed := 0 } else w) w

/-- A firing of plane `p` takes place, unless a word of the plane's configuration, or of the units `us` it reads besides, is bad
(R424); `after` is what it does beyond the plane. -/
def doFire (w : Work) (g p : Nat) (us : List CtlUnit) (P : Plane) (after : Work → Work) : Work :=
  let (w, ended) := useCtl w g (.plane p :: us)
  if ended then w else settlePassed (after (fired w g p P)) g

/-- An element of kind `k` of the active plane fires, if its rule holds. -/
def fireKind (w : Work) (g e k : Nat) (f : Plane → Nat → Elem → Option Firing) : Work :=
  match activePlane w.ctl g with
  | none => w
  | some p =>
    let P := planeOf w.ctl g p
    let x := elemOf P e
    if x.kind ≠ k then w
    else
      match f P e x with
      | none => w
      | some a =>
        match applyFiring P e a (netOf w.ctl g).beats with
        | none => w
        | some P => doFire w g p [] P id

/-- ALU_FIRE (R239). -/
def execAluFire (g e : Nat) (s : State) : Out3 := commit s (fun w => fireKind w g e 1 aluFiring)
/-- FALU_FIRE (R240). -/
def execFaluFire (g e : Nat) (s : State) : Out3 := commit s (fun w => fireKind w g e 2 faluFiring)
/-- CONST_FIRE (R241). -/
def execConstFire (g e : Nat) (s : State) : Out3 := commit s (fun w => fireKind w g e 3 constFiring)
/-- DUP_FIRE (R242). -/
def execDupFire (g e : Nat) (s : State) : Out3 := commit s (fun w => fireKind w g e 4 dupFiring)
/-- STEER_FIRE (R244). -/
def execSteerFire (g e : Nat) (s : State) : Out3 := commit s (fun w => fireKind w g e 5 steerFiring)
/-- MERGE_FIRE (R244). -/
def execMergeFire (g e : Nat) (s : State) : Out3 := commit s (fun w => fireKind w g e 6 mergeFiring)
/-- AMERGE_FIRE (R245). -/
def execAmergeFire (g e : Nat) (s : State) : Out3 := commit s (fun w => fireKind w g e 7 amergeFiring)
/-- CARRY_FIRE (R246). -/
def execCarryFire (g e : Nat) (s : State) : Out3 := commit s (fun w => fireKind w g e 8 carryFiring)
/-- LCE_FIRE (R247). -/
def execLceFire (g e : Nat) (s : State) : Out3 := commit s (fun w => fireKind w g e 9 lceFiring)
/-- DJOIN_FIRE (R248). -/
def execDjoinFire (g e : Nat) (s : State) : Out3 := commit s (fun w => fireKind w g e 10 djoinFiring)
/-- ARB_REPLY_FIRE (R249). -/
def execArbReplyFire (g e : Nat) (s : State) : Out3 := commit s (fun w => fireKind w g e 11 arbReply)
/-- ARB_GRANT_FIRE (R249). -/
def execArbGrantFire (g e : Nat) (s : State) : Out3 := commit s (fun w => fireKind w g e 11 arbGrant)

/-! ## The ports (R250, R251) -/

/-- The stream command bound to an element now: the begun one. -/
def boundCmd (c : Ctl) (g p e : Nat) : Option (Queue × Cmd) :=
  streamQs.findSome? (fun q => ((cmdsOf c g q).find? (fun x => ofElem p e x && x.begun && !x.fin)).map (fun x => (q, x)))

def cmdToMem (c : Cmd) : Bool :=
  match c.op with
  | .stream _ m _ _ _ => m
  | _ => false
def cmdDepth (c : Cmd) : Nat :=
  match c.op with
  | .stream _ _ d _ _ => d
  | _ => 0

/-- Fire a port that only writes OUT0 with a token it has at hand. -/
def fireSource (w : Work) (g p e : Nat) (t : Token) (us : List CtlUnit) (after : Work → Work) : Work :=
  let P := planeOf w.ctl g p
  match applyFiring P e (Firing.plain (elemOf P e) [] [(0, t)]) (netOf w.ctl g).beats with
  | none => w
  | some P => doFire w g p us P after

/-- Element `e` of kind `k` on the active plane. -/
def portAt (c : Ctl) (g e k : Nat) : Option (Nat × Elem) :=
  match activePlane c g with
  | none => none
  | some p => if (elemOf (planeOf c g p) e).kind = k then some (p, elemOf (planeOf c g p) e) else none

/-- SRC (R250). -/
def fireSrc (w : Work) (g e : Nat) : Work :=
  match (if admits w.ctl g then portAt w.ctl g e 12 else none) with
  | none => w
  | some (p, _) =>
    match boundCmd w.ctl g p e with
    | none => w
    | some (q, c) =>
      match c.toks with
      | [] => w
      | t :: r => if cmdToMem c then w else fireSource w g p e t [] (fun w => updCmd w g q c.id (fun c => { c with toks := r }))

/-- A sink takes its head: what it passes on, its DONE, whether it is finished (R243, R250).
(DEDUCED, log entry 60.) -/
def fireSink (w : Work) (g p e : Nat) (x : Elem) (pass : Token → Work → Work) : Work :=
  let P := planeOf w.ctl g p
  match headTok P e 0 with
  | none => w
  | some t =>
    let f := if t.isDone then { Firing.plain x [0] [] with kinderr := true }
      else
        { Firing.plain { x with fin := x.fin || (t.isEos && decide (cfgDepth x.cfg ≤ t.level)) } [0]
            (if t.isData then dnOut x else []) with kinderr := false }
    match applyFiring P e f (netOf w.ctl g).beats with
    | none => w
    | some P => doFire w g p [] P (if t.isDone then id else pass t)

/-- SNK (R250): a DONE is discarded; any other token goes to the bound writing command. -/
def fireSnk (w : Work) (g e : Nat) : Work :=
  match portAt w.ctl g e 13 with
  | none => w
  | some (p, x) =>
    match boundCmd w.ctl g p e with
    | none => w
    | some (q, c) =>
      let full := decide (Config.streamDepth ≤ c.toks.length) || c.toks.any (fun t => t.isEos && decide (cmdDepth c ≤ t.level))
      if !cmdToMem c || (full && !(headTok (planeOf w.ctl g p) e 0).any Token.isDone) then w
      else fireSink w g p e x (fun t w => updCmd w g q c.id (fun c => { c with toks := c.toks ++ [t] }))

/-- VCI (R250). -/
def fireVci (w : Work) (g e : Nat) : Work :=
  match (if admits w.ctl g then portAt w.ctl g e 14 else none) with
  | none => w
  | some (p, x) =>
    match vcHead w.ctl g (cfgVc x.cfg) with
    | none => w
    | some t => fireSource w g p e t [] (fun w => takeVc w g (cfgVc x.cfg))

/-- VCO (R250): a DONE is discarded, which needs no room (R65); a port without room waits (R70). -/
def fireVco (w : Work) (g e : Nat) : Work :=
  match portAt w.ctl g e 15 with
  | none => w
  | some (p, x) =>
    let v := cfgVc x.cfg
    match headTok (planeOf w.ctl g p) e 0 with
    | none => w
    | some t =>
      if !t.isDone && decide (sendWay w g v = .held) then portSends w g v (vcoPort p e)
      else if !t.isDone && decide (sendWay w g v = .wait) then portWaits w g v (vcoPort p e)
      else fireSink w g p e x (fun t w => sendTok (portSends w g v (vcoPort p e)) g v none t)

/-- ENTRY (R251): it reads its word once no request stands before it at the word's bank. -/
def fireEntry (w : Work) (g e : Nat) : Work :=
  match (if admits w.ctl g then portAt w.ctl g e 16 else none) with
  | none => w
  | some (p, x) =>
    let n := cfgEnt x.cfg
    let b := bufOf w.ctl g n
    let flt := decide (b.space = 3)
    let off := (b.base + b.head * b.slot) % (if flt then 2 ^ 22 else 2 ^ 21)
    let a := if flt then fltAt g off else scrAt g off
    if b.count = 0 ∨ b.filled = 0 ∨ banksEmpty w.ctl g (devReq w g off (placeFlat a) (.read 4)) = false then w
    else
      let dead := flt && expired w.ctl g (off / 4096)
      let (_, f) := checkRead w a 4
      let v := if dead || f.bad then 0 else w.nat a 4
      fireSource w g p e (dataTok v) [.buf n] (fun w =>
        let w := if dead then setPlane w g p { planeOf w.ctl g p with exp := true }
          else if f.bad then setPlane (checkRead w a 4).1 g p { planeOf w.ctl g p with strmerr := true }
          else (checkRead w a 4).1
        changeBuf w g n (fun b => b.take 1))

/-- SRC_FIRE. -/
def execSrcFire (g e : Nat) (s : State) : Out3 := commit s (fun w => fireSrc w g e)
/-- SNK_FIRE. -/
def execSnkFire (g e : Nat) (s : State) : Out3 := commit s (fun w => fireSnk w g e)
/-- VCI_FIRE. -/
def execVciFire (g e : Nat) (s : State) : Out3 := commit s (fun w => fireVci w g e)
/-- VCO_FIRE. -/
def execVcoFire (g e : Nat) (s : State) : Out3 := commit s (fun w => fireVco w g e)
/-- ENTRY_FIRE. -/
def execEntryFire (g e : Nat) (s : State) : Out3 := commit s (fun w => fireEntry w g e)

/-- Whatever kind element `e` is, its firing (both forms of ARB, the reply first). -/
def fireAny (w : Work) (g e : Nat) : Work :=
  match activePlane w.ctl g with
  | none => w
  | some p =>
    match (elemOf (planeOf w.ctl g p) e).kind with
    | 1 => fireKind w g e 1 aluFiring
    | 2 => fireKind w g e 2 faluFiring
    | 3 => fireKind w g e 3 constFiring
    | 4 => fireKind w g e 4 dupFiring
    | 5 => fireKind w g e 5 steerFiring
    | 6 => fireKind w g e 6 mergeFiring
    | 7 => fireKind w g e 7 amergeFiring
    | 8 => fireKind w g e 8 carryFiring
    | 9 => fireKind w g e 9 lceFiring
    | 10 => fireKind w g e 10 djoinFiring
    | 11 => fireKind (fireKind w g e 11 arbReply) g e 11 arbGrant
    | 12 => fireSrc w g e
    | 13 => fireSnk w g e
    | 14 => fireVci w g e
    | 15 => fireVco w g e
    | 16 => fireEntry w g e
    | _ => w

/-! ## The block scheduler (R254 to R256) -/

/-- R253: no token, no word at a VCI, no stream command bound or queued. -/
def planeIdle (c : Ctl) (g p : Nat) : Bool :=
  let P := planeOf c g p
  P.arcs.all (fun a => a.2.toks.isEmpty) && (vciVcs P).all (fun v => (vcBuf c g v).toks.isEmpty) &&
    streamQs.all (fun q => (cmdsOf c g q).all (fun x => !ofPlane p x))

/-- Whether an element of the active plane can fire. -/
def canFire (w : Work) (g : Nat) : Bool :=
  match activePlane w.ctl g with
  | none => false
  | some p => (liveElems (planeOf w.ctl g p)).any (fun e => (netOf (fireAny w g e.1).ctl g).beats != (netOf w.ctl g).beats)

/-- Whether this is a decision point (R255, R256). -/
def decisionPoint (w : Work) (g : Nat) : Bool :=
  let n := netOf w.ctl g
  n.redecide ||
  match n.active with
  | none => (List.range 4).any (fun p => decide (0 < planeScore w.ctl g p))
  | some p => decide ((planeOf w.ctl g p).st ≠ .eligible) || decide (256 ≤ (planeOf w.ctl g p).beats) || !canFire w g

/-- The choice of R255. -/
def choosePlane (c : Ctl) (g : Nat) : Option Nat :=
  let cs := (List.range 4).filter (fun p => decide (0 < planeScore c g p))
  match cs.find? (fun p => decide (4 ≤ (planeOf c g p).passed)) with
  | some p => some p
  | none =>
    match cs with
    | [] => none
    | a :: r => some (r.foldl (fun m p => if planeScore c g m < planeScore c g p then p else m) a)

/-- A decision of the block scheduler (R255). Every firing of one element counts as a beat, and each decision, whatever its cause,
starts the count of 256 anew; where no plane is a candidate, none stays active. (DESIGN CHOICE, log entry 94.) -/
def schedulePlane (w : Work) (g : Nat) : Work :=
  let w := settlePassed w g
  if (gladeOf w.ctl g).halted || !decisionPoint w g then w
  else
    let pick := choosePlane w.ctl g
    let w := (List.range 4).foldl (fun w p =>
      let P := planeOf w.ctl g p
      let n := if pick = some p ∨ planeScore w.ctl g p = 0 then 0 else P.passed + 1
      if n = P.passed ∧ P.beats = 0 then w else setPlane w g p { P with passed := n, beats := 0 }) w
    let w := if pick = (netOf w.ctl g).active then w else endWaits w g (16 ≤ ·)
    updNet w g (fun n =>
      { n with active := pick, redecide := false, switched := if pick = n.active then n.switched else pick.map (fun _ => w.ctl.tick) })

/-- PLANE_SCHEDULE_DECISION (R255). -/
def execPlaneScheduleDecision (g : Nat) (s : State) : Out3 := commit s (fun w => schedulePlane w g)

end Sys2Proof.Machine
end

