-- ==== Sys2Proof/Machine/EngineRun.lean ====
section
/-! DEFINITION. Engine and stream commands at work: their begin, their accesses, what each unit of work computes, their
completion (R44 to R52, R171 to R192, R221, R294 to R299). -/
namespace Sys2Proof.Machine

/-! ## Formats (R32, R38, R39, R44 to R46) -/

/-- The exact value of a code, and whether it was the byte 0x80 read as INT8S. -/
def fmtVal (f code : Nat) : Num × Bool :=
  if f = 0x01 then let (i, c) := int8s code; (Num.ofInt i, c)
  else if f = 0x02 then (Num.ofInt (signedOf 32 code), false)
  else if f = 0x03 then (Num.ofInt (signedOf 64 code), false)
  else if f = 0x10 ∨ f = 0x18 then (e4m3.val code, false)
  else if f = 0x11 then (e5m2.val code, false)
  else if f = 0x12 ∨ f = 0x19 then (e2m1.val (code % 16), false)
  else if f = 0x20 then (bf16.val code, false)
  else if f = 0x21 then (fp32.val code, false)
  else if f = 0x22 then (fp64.val code, false)
  else (match e8m0 code with
    | some k => .fin false 1 k
    | none => .nan, false)

/-- An MX element under its scale (R39). -/
def mxVal (f scale code : Nat) : Num :=
  match e8m0 scale with
  | none => .nan
  | some k => (fmtVal f code).1.scale k

/-- Into E8M0 (R38, R41, R45): the power of two that a positive value rounds to, the larger one at a tie of RNE; a result that
has no code is a free value of what is converted. (DEDUCED, log entry 17.) -/
def putE8m0 (rm : Rnd) (u : Nat) (x : Num) : Nat :=
  match x with
  | .nan => (Config.toE8m0 false 0 0 2).toNat
  | .inf s => (Config.toE8m0 s 0 0 1).toNat
  | .fin s m e =>
    let top : Int := e + msb m
    let k : Int := if roundAt rm false false u m e top = 2 then top + 1 else top
    if s || decide (m = 0) || decide (k < -127) || decide (127 < k) then (Config.toE8m0 s m e 0).toNat else (k + 127).toNat

/-- Round into a format that is not MX: code and SAT (R44, R45). -/
def fmtPut (f : Nat) (rm : Rnd) (nan : Bool) (u : Nat) (x : Num) : Nat × Bool :=
  let ov := if nan then Over.nanMode else .sat
  if f = 0x01 then let (v, st) := x.toInt rm u (-127) 127; (wrapInt 8 v, st)
  else if f = 0x02 then let (v, st) := x.toInt rm u (-(2 ^ 31 : Nat)) ((2 ^ 31 : Nat) - 1); (wrapInt 32 v, st)
  else if f = 0x03 then let (v, st) := x.toInt rm u (-(2 ^ 63 : Nat)) ((2 ^ 63 : Nat) - 1); (wrapInt 64 v, st)
  else if f = 0x10 ∨ f = 0x18 then e4m3.put ov rm u false x
  else if f = 0x11 then e5m2.put ov rm u false x
  else if f = 0x12 ∨ f = 0x19 then e2m1.put .sat rm u false x
  else if f = 0x20 then bf16.put .ieee rm u false x
  else if f = 0x21 then fp32.put .ieee rm u false x
  else if f = 0x22 then fp64.put .ieee rm u false x
  else (putE8m0 rm u x, false)

def Num.isInf : Num → Bool
  | .inf _ => true
  | _ => false
def Num.notFinite : Num → Bool
  | .fin .. => false
  | _ => true

/-- floor(log2 |x|) of a finite nonzero value. -/
def Num.top : Num → Option Int
  | .fin _ m e => if m = 0 then none else some (e + msb m)
  | _ => none

/-- A block of R46: scale, element codes, SAT. `us` are the words of stochastic rounding. -/
def mxBlock (f : Nat) (rm : Rnd) (xs : List Num) (us : List Nat) : Nat × List Nat × Bool :=
  let ef := if f = 0x18 then e4m3 else e2m1
  if xs.any Num.notFinite then (0xFF, xs.map (fun _ => 0), true)
  else
    match (xs.filterMap Num.top) with
    | [] => (0, xs.map (fun x => ef.signed x.isNeg 0), false)
    | t :: r =>
      let e0 : Int := r.foldl (fun m x => if m < x then x else m) t - (if f = 0x18 then 8 else 2)
      let e : Int := if e0 < -127 then -127 else if 127 < e0 then 127 else e0
      let ps := (xs.zip us).map (fun p => ef.put .sat rm p.2 false (p.1.scale (-e)))
      ((e + 127).toNat, ps.map (·.1), ps.any (·.2))

/-! ## Where an engine's access goes (R294) -/

/-- The place of an engine's access: above the capacity (R434), nowhere, unknown because its translation met poison (R424), not to
be had while a stack sleeps or a unit moves (R432, R436), or a location. -/
inductive EngAt where
  | vacated (addr : Nat) | stray | lost | wait | at_ (x : Xlate)
deriving DecidableEq, Repr

def engDev (w : Work) (g : Nat) (va ea : Nat) (need : Need) : EngAt × Work :=
  let r : Except XErr Xlate × Work :=
    if va = 0 then
      match ownLaunch w.ctl g with
      | none => (.error (.lease 0), w)
      | some l => (checkLaunch w g l ea need, w)
    else if va = 1 then checkTree w g none ea need
    else checkTree w g (some (va - 2)) ea need
  match r with
  | (.error (.memrange pa), w) => (.vacated pa, w)
  | (.error (.lease _), w) => (.stray, w)
  | (.error .wait, w) => (.wait, w)
  | (.error (.memunc a d), w) => (.lost, xMet w (((gladeOf w.ctl g).owner.map (·.launch)).getD 0) (.memunc a d))
  | (.ok x, w) => (.at_ x, w)

/-- Where `n` bytes of a command lie. An access outside its space, which only the contents of packed data or an unchecked buffer
entry can name, has no place. (DESIGN CHOICE, log entry 76.) -/
def engPlace (w : Work) (g va : Nat) (sp : Space) (ea n : Nat) (need : Need) : EngAt × Work :=
  match sp with
  | .dev => engDev w g va ea need
  | .scr => (if ea + n ≤ Config.scrSize then .at_ (placeFlat (scrAt g ea)) else .stray, w)
  | .flt => (if ea + n ≤ Config.fltSize then .at_ (placeFlat (fltAt g ea)) else .stray, w)
  | .rscr =>
    match (ownLaunch w.ctl g).bind (fun l => Tab.find l.map (bits ea 28 21)) with
    | some d => (if ea < 2 ^ 29 ∧ ea % 2 ^ 21 + n ≤ Config.scrSize then .at_ (placeFlat (scrAt d (ea % 2 ^ 21))) else .stray, w)
    | none => (.stray, w)

/-- The request of a command of queue `q` (R294). -/
def engReq (w : Work) (g : Nat) (q : Queue) (c : Cmd) (sp : Space) (ea : Nat) (x : Xlate) (acc : Access) : Req :=
  { devReq w g ea x acc with
    id := c.id, sp := sp, eng := some q, svc := x.svc || decide (c.vaPart ≠ 0), mon := decide (c.vaPart = 1)
    part := if c.vaPart < 2 then (((gladeOf w.ctl g).owner.map (·.part)).getD 0) else c.vaPart - 2 }

/-- The glade a message of a request goes to: one credit of it is spent (R310, R312). -/
def creditOf (r : Req) : Option Nat := if r.sp = .rscr then gladeAt r.addr else none

/-- Whether a request of an engine can be sent now: its first queue has room, and a credit is at hand (R312). -/
def engMay (c : Ctl) (r : Req) : Bool :=
  canEnter c r && (match creditOf r with
    | some d => decide (0 < creditsOf c r.g d)
    | none => true)

/-- It is sent, and its command waits for it. -/
def engSend (w : Work) (q : Queue) (r : Req) : Work :=
  let w := match creditOf r with
    | some d => spendCredits w r.g d 1
    | none => w
  send (updCmd w r.g q r.id (fun c => { c with flying := true })) r

/-- One read of a command: sent as a request, or at its end at once where its place is vacated or nowhere (R294, R434). -/
def engRead (w : Work) (g : Nat) (q : Queue) (c : Cmd) (sp : Space) (ea n : Nat) : Work :=
  match engPlace w g c.vaPart sp ea n .read with
  | (.vacated a, w) => performVacated w (engReq w g q c sp ea (placeFlat a) (.read n))
  | (.stray, w) =>
    let (k, w) := newNonce w
    engGot w (engReq w g q c sp ea (placeFlat 0) (.read n)) q { bytes := (List.range n).map (Config.stray k), poison := false } 0
  | (.lost, w) =>
    engGot w (engReq w g q c sp ea (placeFlat 0) (.read n)) q { bytes := List.replicate n 0, poison := true } stPoison
  | (.wait, w) => w
  | (.at_ x, w) =>
    let r := engReq w g q c sp ea x (.read n)
    if engMay w.ctl r then engSend w q r else w

/-! ## Writing (R171, R181, R425) -/

/-- The key a command writes to memory. -/
def destKey (c : Cmd) : Option Key :=
  match c.op with
  | .stream _ m _ _ _ => if m then some c.ka else none
  | .mma _ | .mzero | .form _ | .reform _ | .release | .fence => none
  | _ => some c.kb

/-- Whether the command writes every byte of the poison unit at `u` (offset `ea` of its space lies `d` bytes into it):
the unit lies in one stored row, or in rows that follow each other, or in the packed blocks it has made. (DEDUCED, log entry 63.) -/
def coversUnit (c : Cmd) (ea d size : Nat) : Bool :=
  match destKey c with
  | none => false
  | some k =>
    let lo := ea - d
    let row := if kBits k < 8 then ceilDiv (kDim k 0) 2 else kDim k 0 * (kBits k / 8)
    if decide (ea < d) || decide (lo < kBase k) then false
    else if kPacked k then decide (lo + size ≤ kBase k + c.count)
    else if kRank k = 1 ∨ kStride k 1 = row then decide (lo + size ≤ kBase k + row * kDim k 1)
    else decide (kStride k 1 ≠ 0) && decide ((lo - kBase k) % kStride k 1 + size ≤ row)

/-- Whether a write of a command cannot reach its home: its link is down, or a guard drops it (R190, R403). -/
def putLost (w : Work) (g : Nat) (q : Queue) (c : Cmd) (p : Put) : Bool :=
  match (engPlace w g c.vaPart p.sp p.ea p.bytes.length .write).1 with
  | .at_ x =>
    let r := reroute w.ctl (engReq w g q c p.sp p.ea x (.ewrite p.bytes p.nib p.poison false))
    let home := homeOf w.ctl r
    guardDrops w.ctl r home || (match home with
      | .package n => !w.ctl.links.up.contains (canopyFor w.ctl (dieOf g) n)
      | .host => !w.ctl.links.up.contains 18
      | _ => false)
  | _ => false

/-- The pending write that goes next. Of a row of a GATHER or SCATTER not yet begun, one that cannot reach its home goes first, so
that the row stays unchanged whole where it is lost (R190). -/
def nextPut (w : Work) (g : Nat) (q : Queue) (c : Cmd) : Option (Put × List Put) :=
  match c.puts with
  | [] => none
  | p :: r =>
    if isRows c && !c.opened then
      match (p :: r).find? (putLost w g q c) with
      | some x => some (x, (p :: r).erase x)
      | none => some (p, r)
    else some (p, r)

/-- A pending write of a command is sent, `rest` being the others. -/
def engPut (w : Work) (g : Nat) (q : Queue) (c : Cmd) (p : Put) (rest : List Put) : Work :=
  let pop := fun (w : Work) => updCmd w g q c.id (fun c => { c with puts := rest })
  let acc := fun (cov : Bool) => Access.ewrite p.bytes p.nib p.poison cov
  match engPlace w g c.vaPart p.sp p.ea p.bytes.length .write with
  | (.vacated a, w) => performVacated (pop w) (engReq w g q c p.sp p.ea (placeFlat a) (acc false))
  | (.stray, w) | (.lost, w) => engPutDone (pop w) (engReq w g q c p.sp p.ea (placeFlat 0) (acc false)) q
  | (.wait, w) => w
  | (.at_ x, w) =>
    let r := engReq w g q c p.sp p.ea x (acc (coversUnit c p.ea (x.addr - unitOf x.addr) (unitSize x.addr)))
    if engMay w.ctl r then engSend (pop w) q r else w

/-! ## Elements as accesses -/

/-- One read of a unit. -/
structure RSpec where
  sp : Space
  ea : Nat
  n  : Nat
deriving DecidableEq, Repr

def keySp (k : Key) : Space := spaceOfKey (kSpace k)
def elemBytes (k : Key) : Nat := if kBits k < 8 then 1 else kBits k / 8
/-- The read of a stored element. -/
def readElem (k : Key) (s : List Nat) : RSpec := { sp := keySp k, ea := kBase k + (kOffset k s).1, n := elemBytes k }
def readScale (k : Key) (s : List Nat) : RSpec := { sp := keySp k, ea := kScaleAt k s, n := 1 }
/-- The code of a stored element in what its read got. -/
def codeOf (k : Key) (s : List Nat) (g : Got) : Nat :=
  let v := leNat g.bytes
  if kBits k < 8 then (if (kOffset k s).2 then v / 16 % 16 else v % 16) else v
def putElem' (k : Key) (s : List Nat) (code : Nat) (poison : Bool) : Put :=
  { sp := keySp k, ea := kBase k + (kOffset k s).1, bytes := natLe (elemBytes k) code, poison := poison
    nib := if 8 ≤ kBits k then 0 else if (kOffset k s).2 then 2 else if nth s 0 + 1 = kDim k 0 then 4 else 1 }
def putScale (k : Key) (s : List Nat) (code : Nat) (poison : Bool) : Put :=
  { sp := keySp k, ea := kScaleAt k s, bytes := natLe 1 code, poison := poison, nib := 3 }

/-- Stored coordinates of block `b` along stored DIM0 (R185, R46). -/
def blockStored (k : Key) (b : Nat) : List (List Nat) :=
  let i0 := b % kRowBlocks k * 32
  let row := b / kRowBlocks k
  let tl := [row % kDim k 1, row / kDim k 1 % kDim k 2, row / kDim k 1 / kDim k 2]
  (List.range (Nat.min 32 (kDim k 0 - i0))).map (fun j => (i0 + j) :: tl)

def pad4 (s : List Nat) : List Nat := [nth s 0, nth s 1, nth s 2, nth s 3]
/-- Stored coordinates of linear element `e`. -/
def elemStored (k : Key) (e : Nat) : List Nat := pad4 (kStored k (pad4 (coordsOf (kDims k) e)))
/-- Linear index of coordinates. -/
def linIndex : List Nat → List Nat → Nat
  | d :: ds, x :: xs => x + d * linIndex ds xs
  | _, _ => 0
/-- The stored coordinates in `a` of the element stored at `s` in `b`. -/
def sameElem (a b : Key) (s : List Nat) : List Nat := kStored a (kStored b s)
/-- The linear index of the element stored at `s`: linear order is that of the logical indices, of a key with TRANS too, for what
is written and for what is drawn. (DESIGN CHOICE, log entry 91.) -/
def elemIndex (k : Key) (s : List Nat) : Nat := linIndex (kDims k) (kStored k s)

/-- Units of a destination that is written element by element, or block by block for MX. -/
def destUnits (k : Key) : Nat := if isMx (kFmt k) then kBlocks k else kCount k
def destStored (k : Key) (u : Nat) : List (List Nat) := if isMx (kFmt k) then blockStored k u else [elemStored k u]

/-- The 16-bit word of linear element `e` of a generator (R43). -/
def drawWord (s0 s1 : Word) (e : Nat) : Nat :=
  let (a, b) := rngAdvance (e / 4) s0 s1
  let (_, _, o) := rngStep a b
  o.toNat / 2 ^ (16 * (e % 4)) % 65536

/-- Whether MX blocks of two keys hold the same elements. (DESIGN CHOICE, log entry 18.) -/
def sameBlocks (a b : Key) : Bool := kTrans a == kTrans b

/-! ## COPY (R182) -/

def cvReads (a b : Key) (cv : Bool) (l : List (List Nat)) : List RSpec :=
  let xs := l.map (sameElem a b)
  if cv then (xs.map (fun s => if isMx (kFmt a) then [readScale a s, readElem a s] else [readElem a s])).flatten
  else (if isMx (kFmt a) then (xs.take 1).map (readScale a) else []) ++ xs.map (readElem a)

/-- The values a converting COPY read, with clamp and poison. -/
def cvVals (a : Key) : List (List Nat) → List Got → List (Num × Bool × Bool)
  | [], _ => []
  | s :: r, g =>
    if isMx (kFmt a) then
      match g with
      | x :: y :: t => (mxVal (kFmt a) (leNat x.bytes) (codeOf a s y), false, x.poison || y.poison) :: cvVals a r t
      | _ => []
    else
      match g with
      | y :: t => let (v, c) := fmtVal (kFmt a) (codeOf a s y); (v, c, y.poison) :: cvVals a r t
      | [] => []

def rmCopy (n : Nat) : Rnd :=
  match n with
  | 0 => .rne
  | 1 => .rz
  | 2 => .rd
  | 3 => .ru
  | _ => .sr

/-- Write converted values at stored places of `b`: the writes and the status bits. -/
def putVals (b : Key) (rm : Rnd) (nan : Bool) (us : List Nat) (l : List (List Nat)) (vs : List (Num × Bool × Bool)) :
    List Put × Nat :=
  let clamp := flagIf (vs.any (·.2.1)) stClamp
  if isMx (kFmt b) then
    let (sc, codes, sat) := mxBlock (kFmt b) rm (vs.map (·.1)) us
    let bad := vs.any (·.2.2)
    (((l.take 1).map (fun s => putScale b s sc bad)) ++
      (l.zip codes).map (fun p => putElem' b p.1 p.2 bad), clamp + flagIf sat stSat)
  else
    let ps := (l.zip (vs.zip us)).map (fun p =>
      let (code, sat) := fmtPut (kFmt b) rm nan p.2.2 p.2.1.1
      (putElem' b p.1 code p.2.1.2.2, sat))
    (ps.map (·.1), clamp + flagIf (ps.any (·.2)) stSat)

/-- Moved, uninterpreted: elements and their scale. -/
def putMoved (nonce : Nat) (same : Bool) (a b : Key) (l : List (List Nat)) (g : List Got) : List Put :=
  let el := fun (gs : List Got) => (l.zip gs).map (fun p => putElem' b p.1 (codeOf a (sameElem a b p.1) p.2) p.2.poison)
  if isMx (kFmt a) then
    match g with
    | sc :: r =>
      let v := if same then leNat sc.bytes else (Config.crossScale nonce).toNat
      (l.take 1).map (fun s => putScale b s v sc.poison) ++ el r
    | [] => []
  else el g

/-! ## Packed tensors (R185, R188) -/

def popMask (v : Nat) : Nat := ((List.range 32).filter (fun j => v.testBit j)).length
def blockSize (k : Key) (n : Nat) : Nat := 4 + roundUp (ceilDiv (n * kBits k) 8) 4
/-- Elements of block `b`. -/
def blockLen (k : Key) (b : Nat) : Nat := (blockStored k b).length

def zeroGot (k : Key) (p : Bool) : Got := { bytes := natLe (elemBytes k) 0, poison := p }

/-- The next read of a list, or what the reads gave and what was got beyond. -/
abbrev Taken (α : Type) := Except RSpec (α × List Got)

/-- `n` bytes of a packed key at `ea`: one access where they are aligned, else one a byte (R292). -/
def takeRead (k : Key) (ea n : Nat) (got : List Got) : Taken Got :=
  if ea % n = 0 then
    match got with
    | x :: r => .ok (x, r)
    | [] => .error { sp := keySp k, ea := ea, n := n }
  else if n ≤ got.length then
    .ok ({ bytes := ((got.take n).map (·.bytes)).flatten, poison := (got.take n).any (·.poison) }, got.drop n)
  else .error { sp := keySp k, ea := ea + got.length, n := 1 }

/-- The elements `lo ≤ j < hi` of a block at `pos` with mask `mask`: one Got each, +0 where absent; `j` elements are behind, of
which `i` are present. -/
def takeElems (k : Key) (pos mask lo hi : Nat) (bad : Bool) : Nat → Nat → Nat → List Got → Taken (List Got)
  | 0, _, _, got => .ok ([], got)
  | n + 1, j, i, got =>
    let here := decide (lo ≤ j) && decide (j < hi)
    if here && mask.testBit j then
      let off := if kBits k < 8 then i / 2 else i * (kBits k / 8)
      match takeRead k (kBase k + pos + 4 + off) (elemBytes k) got with
      | .error r => .error r
      | .ok (x, got) =>
        let v := leNat x.bytes
        let code := if kBits k < 8 then (if i % 2 = 1 then v / 16 else v % 16) else v
        match takeElems k pos mask lo hi bad n (j + 1) (i + 1) got with
        | .error r => .error r
        | .ok (l, got) => .ok ({ bytes := natLe (elemBytes k) code, poison := x.poison || bad } :: l, got)
    else
      match takeElems k pos mask lo hi bad n (j + 1) (i + b2n (mask.testBit j)) got with
      | .error r => .error r
      | .ok (l, got) => .ok (if here then zeroGot k bad :: l else l, got)

/-- Blocks in order from offset `pos`, the elements that `want` names gathered; none where `chk` finds a block beyond the packed
bound (R188). -/
def takeBlocks (k : Key) (chk : Bool) (want : Nat → Nat × Nat) : List Nat → Nat → Bool → List Got → Taken (Option (List Got))
  | [], _, _, got => .ok (some [], got)
  | b :: r, pos, bad, got =>
    if chk && decide (packedBound k < pos + 4) then .ok (none, got)
    else
      match takeRead k (kBase k + pos) 4 got with
      | .error e => .error e
      | .ok (mg, got) =>
        let mask := leNat mg.bytes % 2 ^ blockLen k b
        let size := blockSize k (popMask mask)
        let bad := bad || mg.poison
        if chk && decide (packedBound k < pos + size) then .ok (none, got)
        else
          match takeElems k pos mask (want b).1 (want b).2 bad (blockLen k b) 0 0 got with
          | .error e => .error e
          | .ok (l, got) =>
            match takeBlocks k chk want r (pos + size) bad got with
            | .error e => .error e
            | .ok (x, got) => .ok (x.map (l ++ ·), got)

/-- Blocks of group `m` up to block `hi`: the entry of the group, then mask by mask (R185). Only UNPACK checks (R188, R321).
(DESIGN CHOICE, log entry 64.) -/
def takePacked (k : Key) (chk : Bool) (want : Nat → Nat × Nat) (m hi : Nat) (got : List Got) : Taken (Option (List Got)) :=
  match takeRead k (kMetaBase k + 4 * m) 4 got with
  | .error e => .error e
  | .ok (x, got) => takeBlocks k chk want ((List.range (hi + 1 - 32 * m)).map (32 * m + ·)) (leNat x.bytes) x.poison got

/-- The blocks of a group. -/
def groupBlocks (k : Key) (m : Nat) : List Nat := (List.range (Nat.min 32 (kBlocks k - 32 * m))).map (32 * m + ·)

/-! ## PACK (R186, R187) -/

/-- |x| ≥ t, or a NaN; a threshold of +∞ keeps only NaNs (R186). -/
def keepThr (t x : Num) : Bool := x.isNan || (!t.isInf && !(x.abs.lt t))

/-- Whether `.sto` keeps a value below `t` on the word `u`: u < (|x| / t) × 65,536. -/
def keepSto (t x : Num) (u : Nat) : Bool :=
  !t.isInf && (Num.mul (.fin false u 0) t).lt (x.abs.scale 16)

def lostThr (t : Num) : Bool := t.isNan || !((Num.fin false 0 0).lt t)

/-- Whether a PRUNE compares the values of elements: then the byte 0x80 is read as −127 with CLAMP (R34).
(DEDUCED, log entry 80.) -/
def packCompares (prune : Nat) (param : Word) : Bool :=
  match prune with
  | 0 => false
  | 2 => decide (0 < bits param.toNat 5 0) && decide (bits param.toNat 5 0 < 32)
  | _ => !lostThr (fp32.val (param.toNat % 2 ^ 32))

/-- The elements of a block that PACK keeps, with what it writes for each (R186), and SAT. -/
def packKeep (f prune : Nat) (param : Word) (us : List Nat) (codes : List Nat) : List (Option Nat) × Bool :=
  let vals := codes.map (fun c => (fmtVal f c).1)
  let zero := fun (c : Nat) => decide (c % 2 ^ (if f = 0x12 then 3 else (fmtBits f).getD 8 - (if f = 1 then 0 else 1)) = 0)
  let t := fp32.val (param.toNat % 2 ^ 32)
  let nz := codes.map (fun c => if zero c then none else some c)
  match prune with
  | 0 => (nz, false)
  | 1 => if lostThr t then (nz, false)
         else ((codes.zip vals).map (fun p => if zero p.1 then none else if keepThr t p.2 then some p.1 else none), false)
  | 2 =>
    let n := bits param.toNat 5 0
    let idx := List.range codes.length
    let v := fun (j : Nat) => (vals[j]?).getD .nan
    -- element j goes before element k: larger |x|, NaN largest, ties to the lower index
    let before := fun (k j : Nat) =>
      if (v k).isNan then (if (v j).isNan then decide (k < j) else true)
      else if (v j).isNan then false
      else if (v j).abs.lt (v k).abs then true
      else if (v k).abs.lt (v j).abs then false
      else decide (k < j)
    (idx.map (fun j =>
      let c := (codes[j]?).getD 0
      if zero c then none
      else if (idx.filter (fun k => before k j)).length < n then some c else none), false)
  | _ =>
    if lostThr t then (nz, false)
    else
      let (tc, sat) := fmtPut f .rne false 0 t
      let rs := (codes.zip (vals.zip us)).map (fun p =>
        let c := p.1
        let x := p.2.1
        if zero c then (none, false)
        else if keepThr t x then (some c, false)
        else if keepSto t x p.2.2 then
          (some (if x.isNeg then (if f = 1 then wrapInt 8 (-(signedOf 8 tc)) else tc + 2 ^ ((fmtBits f).getD 8 - 1)) else tc), sat)
        else (none, false))
      (rs.map (·.1), rs.any (·.2))

def packBits : List (Option Nat) → Nat → Nat
  | [], _ => 0
  | x :: r, j => b2n x.isSome * 2 ^ j + packBits r (j + 1)

/-- The writes of a packed block at offset `at_` (R185): its mask, byte by byte where it is not aligned (R292), its present elements,
its padding. -/
def packPuts (k : Key) (at_ : Nat) (l : List (Option Nat)) (bad : Bool) : List Put :=
  let put := fun (off : Nat) (bs : List Byte) (nib : Nat) =>
    ({ sp := keySp k, ea := kBase k + at_ + off, bytes := bs, poison := bad, nib := nib } : Put)
  let xs := l.filterMap id
  let n := xs.length
  let e := kBits k
  let size := blockSize k n
  let mask := natLe 4 (packBits l 0)
  (if kBase k % 4 = 0 then [put 0 mask 0] else ((List.range 4).zip mask).map (fun p => put p.1 [p.2] 0)) ++
    (((List.range n).zip xs).map (fun p =>
      if e < 8 then put (4 + p.1 / 2) (natLe 1 p.2) (if p.1 % 2 = 1 then 2 else 1) else put (4 + p.1 * (e / 8)) (natLe (e / 8) p.2) 0)) ++
    (if e < 8 ∧ n % 2 = 1 then [put (4 + n / 2) [0] 2] else []) ++
    (List.range (size - 4 - ceilDiv (n * e) 8)).map (fun i => put (4 + ceilDiv (n * e) 8 + i) [0] 0)

/-! ## The matrix engine (R47 to R52, R173 to R177) -/

def accWord (w : Work) (g t row col : Nat) : Nat := w.nat (accAt g t row col) 4
def accFlag (w : Work) (g t row col : Nat) : Bool :=
  w.ctl.marks.poison.contains (accAt g t row col) || w.ctl.marks.latent.contains (accAt g t row col)
def wideAcc (f : Nat) : Bool := decide (f = 0x03) || decide (f = 0x22)

/-- A read of an accumulator element meets its errors, or its flag, and is logged where it does (R424, R465). -/
def accTouch (w : Work) (g : Nat) (k : Key) (s : List Nat) : Work :=
  let at_ := fun t => accAt g t (nth s 1) (nth s 0)
  let t := kBase k % 8
  let bad := ([at_ t] ++ if wideAcc (kFmt k) then [at_ (t + 1)] else []).foldl (fun (b : Work × Option Nat) a =>
    let (w, f) := checkRead b.1 a 4
    (w, if b.2.isNone && f.bad then some a else b.2)) (w, none)
  match bad with
  | (w, none) => w
  | (w, some a) => logEvent w (chanOfGlade g) 2 (errAddr a) (((gladeOf w.ctl g).owner.map (·.launch)).getD 0) false

/-- The element at stored column `s0`, row `s1` of an accumulator key: bits and flag. -/
def accGet (w : Work) (g : Nat) (k : Key) (s : List Nat) : Nat × Bool :=
  let t := kBase k % 8
  let r := nth s 1
  let c := nth s 0
  if wideAcc (kFmt k) then
    (accWord w g t r c + 2 ^ 32 * accWord w g (t + 1) r c, accFlag w g t r c || accFlag w g (t + 1) r c)
  else (accWord w g t r c, accFlag w g t r c)

def accPutWord (w : Work) (g t row col v : Nat) (poison : Bool) : Work :=
  let a := accAt g t row col
  let w := putBytes w a (natLe 4 v)
  if poison then setPoison w a else w
def accPut (w : Work) (g : Nat) (k : Key) (s : List Nat) (v : Nat) (poison : Bool) : Work :=
  let t := kBase k % 8
  let w := accPutWord w g t (nth s 1) (nth s 0) (v % 2 ^ 32) poison
  if wideAcc (kFmt k) then accPutWord w g (t + 1) (nth s 1) (nth s 0) (v / 2 ^ 32) poison else w
/-- +0 with the flag clear. -/
def accZero (w : Work) (g : Nat) (k : Key) (s : List Nat) : Work :=
  let t := kBase k % 8
  let z := fun (w : Work) (t : Nat) => accPutWord (clearPoison w (accAt g t (nth s 1) (nth s 0))) g t (nth s 1) (nth s 0) 0 false
  if wideAcc (kFmt k) then z (z w t) (t + 1) else z w t

/-- Every stored element of an accumulator key. -/
def accAll (k : Key) : List (List Nat) := (List.range (kCount k)).map (elemStored k)

/-- V of an INT64 accumulator element (R51). -/
def accV (v : Nat) : Int := signedOf 48 (v % 2 ^ 48)
def sat48 (v : Int) : Int × Bool := clampInt (-(2 ^ 47 : Nat)) ((2 ^ 47 : Nat) - 1) v

def mmaG (c : Nat) : Nat := if c = 3 then 16 else if c = 4 then 4 else if c = 5 then 1 else 32

/-- One product in the three channels of R50. -/
def addChannels (s : Nat × Nat × Nat) (a b : Int) : Nat × Nat × Nat :=
  let ch := fun (c : Nat) (m : Int) => ((c : Int) + (a % m) * (b % m)).toNat % m.toNat
  (ch s.1 255, ch s.2.1 256, ch s.2.2 257)

/-- What the channels of a window reconstruct to (R50). -/
def crt (s : Nat × Nat × Nat) : Int :=
  let x := (s.1 * 8421376 + s.2.1 * 16711425 + s.2.2 * 8421120) % 16776960
  if 8388480 ≤ x then (x : Int) - 16776960 else x

/-- The sum S of a group's products (R48). -/
def sumProducts : List Num → Num
  | [] => .fin false 0 0
  | p :: r => r.foldl (fun a x => a.add .rne x) p

structure MmaShape where
  cls : Nat
  m   : Nat
  n   : Nat
  k   : Nat
deriving DecidableEq, Repr

def mmaShape (c : Cmd) : MmaShape :=
  { cls := mmaClass (kFmt c.ka), m := kLog c.ka 1, n := kLog c.kb 0, k := kLog c.ka 0 }

/-- K indices of unit `u`. -/
def mmaKs (sh : MmaShape) (u : Nat) : List Nat :=
  (List.range (Nat.min (mmaG sh.cls) (sh.k - u * mmaG sh.cls))).map (u * mmaG sh.cls + ·)

/-- A list of reads that stand one after the other. -/
def takeList (rs : List RSpec) (got : List Got) : Taken (List Got) :=
  match rs[got.length]? with
  | some r => .error r
  | none => .ok (got.take rs.length, got.drop rs.length)

/-- One list of reads after the other. -/
def takeLists : List (List RSpec) → List Got → Taken (List (List Got))
  | [], got => .ok ([], got)
  | rs :: more, got =>
    match takeList rs got with
    | .error e => .error e
    | .ok (x, got) =>
      match takeLists more got with
      | .error e => .error e
      | .ok (l, got) => .ok (x :: l, got)

/-- Rows `is` of a packed A, each from its block, `n` elements from K index `k0` on. -/
def takeRows (k : Key) (k0 n : Nat) : List Nat → List Got → Taken (List (List Got))
  | [], got => .ok ([], got)
  | i :: r, got =>
    let b := i * kRowBlocks k + k0 / 32
    match takePacked k false (fun x => if x = b then (k0 % 32, k0 % 32 + n) else (0, 0)) (b / 32) b got with
    | .error e => .error e
    | .ok (x, got) =>
      match takeRows k k0 n r got with
      | .error e => .error e
      | .ok (l, got) => .ok (x.getD [] :: l, got)

/-- What a unit read, taken apart: rows of A, columns of B, scales of A, scales of B. -/
structure MmaIn where
  a  : List (List Got)
  b  : List (List Got)
  sa : List Got
  sb : List Got
deriving DecidableEq, Repr

/-- The reads of one K-group: A row by row, B column by column, then the scales; a packed A block by block. -/
def takeMma (c : Cmd) (u : Nat) : Taken MmaIn :=
  let sh := mmaShape c
  let ks := mmaKs sh u
  let k0 := u * mmaG sh.cls
  let rows := List.range sh.m
  let cols := List.range sh.n
  let mx := isMx (kFmt c.ka)
  match (if kPacked c.ka then takeRows c.ka k0 ks.length rows c.got
      else takeLists (rows.map (fun i => ks.map (fun k => readElem c.ka [k, i]))) c.got) with
  | .error e => .error e
  | .ok (a, got) =>
    match takeLists (cols.map (fun j => ks.map (fun k => readElem c.kb [k, j])) ++
        (if mx then [rows.map (fun i => readScale c.ka [k0, i]), cols.map (fun j => readScale c.kb [k0, j])] else [])) got with
    | .error e => .error e
    | .ok (l, got) =>
      let s := l.drop sh.n
      .ok ({ a := a, b := l.take sh.n, sa := (s.head?).getD [], sb := (s.tail.head?).getD [] }, got)

/-- The code of element k of a row that was read. -/
def rowCodes (key : Key) (packed : Bool) (j : Nat) (ks : List Nat) (row : List Got) : List Nat :=
  (ks.zip row).map (fun p => if packed then leNat p.2.bytes else codeOf key [p.1, j] p.2)

/-- Whether the window of an INT8S MMA ends with group `u` (R50). -/
def windowEnds (sh : MmaShape) (u : Nat) : Bool := decide ((u + 1) % 16 = 0) || decide (ceilDiv sh.k (mmaG sh.cls) ≤ u + 1)

/-- A window's sum joins V: the new value and whether it saturated (R50). -/
def joinWindow (old : Nat) (s : Nat × Nat × Nat) : Nat × Bool :=
  let (v, st) := sat48 (accV old + crt s)
  (wrapInt 64 v, st)

/-- One array step at element (i, j): the new value, whether it is poison, its status bits, and its channel sums where the
window stays open. -/
def mmaElem (c : Cmd) (u : Nat) (inp : MmaIn) (ks : List Nat) (i j old : Nat) (win : Nat × Nat × Nat) :
    Nat × Bool × Nat × (Nat × Nat × Nat) :=
  let sh := mmaShape c
  let ra := (inp.a[i]?).getD []
  let rb := (inp.b[j]?).getD []
  let ca := rowCodes c.ka (kPacked c.ka) i ks ra
  let cb := rowCodes c.kb false j ks rb
  if sh.cls = 2 then
    let s := (ca.zip cb).foldl (fun s p => addChannels s (int8s p.1).1 (int8s p.2).1) win
    let bad := ra.any (·.poison) || rb.any (·.poison)
    let cl := flagIf (ca.any (· == 0x80) || cb.any (· == 0x80)) stClamp
    if windowEnds sh u then
      let (v, st) := joinWindow old s
      (v, bad, flagIf st stSat + cl, (0, 0, 0))
    else (old, bad, cl, s)
  else
    let s := sumProducts ((ca.zip cb).map (fun p => (fmtVal (kFmt c.ka) p.1).1.mul (fmtVal (kFmt c.kb) p.2).1))
    let xa := (inp.sa[i]?).getD { bytes := [], poison := false }
    let xb := (inp.sb[j]?).getD { bytes := [], poison := false }
    let s := if isMx (kFmt c.ka) then
        match e8m0 (leNat xa.bytes), e8m0 (leNat xb.bytes) with
        | some p, some q => s.scale (p + q)
        | _, _ => .nan
      else s
    let F := if sh.cls = 5 then fp64 else fp32
    (F.ieee .rne ((F.val old).add .rne s), ra.any (·.poison) || rb.any (·.poison) || xa.poison || xb.poison, 0, (0, 0, 0))

/-- What a pass over C has come to: the work, status bits, the channel sums of the elements passed. -/
structure Pass where
  w   : Work
  st  : Nat
  win : List (Nat × Nat × Nat)

/-- One array step over C (R175): the work, its status bits, and the open window of an INT8S MMA. -/
def mmaStep (w : Work) (g : Nat) (c : Cmd) (inp : MmaIn) : Pass :=
  let sh := mmaShape c
  let ks := mmaKs sh c.unit
  let P := (List.range (sh.m * sh.n)).foldl (fun (P : Pass) e =>
    let i := e / sh.n
    let j := e % sh.n
    let s := kStored c.kc [j, i]
    let w := accTouch P.w g c.kc s
    let (old, flag) := accGet w g c.kc s
    let (v, bad, st, win) := mmaElem c c.unit inp ks i j old ((c.win[e]?).getD (0, 0, 0))
    { w := accPut w g c.kc s v (bad || flag), st := P.st ||| st ||| flagIf flag stPoison, win := P.win ++ [win] })
    { w := w, st := 0, win := [] }
  { P with win := if sh.cls = 2 ∧ windowEnds sh c.unit = false then P.win else [] }

/-- An open window ends before a stop (R50, R179). -/
def closeWindow (w : Work) (g : Nat) (c : Cmd) : Work × Nat :=
  let sh := mmaShape c
  (List.range (sh.m * sh.n)).foldl (fun (a : Work × Nat) e =>
    let s := kStored c.kc [e % sh.n, e / sh.n]
    let (old, flag) := accGet a.1 g c.kc s
    let (v, st) := joinWindow old ((c.win[e]?).getD (0, 0, 0))
    (accPut a.1 g c.kc s v flag, a.2 ||| flagIf st stSat)) (w, 0)

/-- The value MOUT writes for an accumulator element (R52, R177), as an exact number; V = 0 counts as +0, so that a negative
scale gives −0. (DESIGN CHOICE, log entry 79.) -/
def moutVal (ka : Key) (scale out : Nat) (v : Nat) : Num :=
  if kFmt ka = 0x03 then
    (if out = 0x01 ∨ out = 0x02 ∨ out = 0x03 then Num.ofInt (accV v) else (Num.ofInt (accV v)).mul (fp32.val scale))
  else if kFmt ka = 0x22 then fp64.val v
  else fp32.val v

/-- One element or block of MOUT: the writes, the status, and the elements cleared under CLR. -/
def moutStep (w : Work) (g : Nat) (c : Cmd) (rm : Rnd) (nanm clr : Bool) (sc : Nat) : Work × List Put × Nat :=
  let l := destStored c.kb c.unit
  let xs := l.map (sameElem c.ka c.kb)
  let w := xs.foldl (fun w s => accTouch w g c.ka s) w
  let vs := xs.map (fun s =>
    let (v, flag) := accGet w g c.ka s
    (moutVal c.ka sc (kFmt c.kb) v, false, flag))
  let (ps, st) := putVals c.kb rm nanm (l.map (fun _ => 0)) l vs
  let w := if clr then xs.foldl (fun w s => accZero w g c.ka s) w else w
  (w, ps, st ||| flagIf (vs.any (·.2.2)) stPoison)

/-! ## What is read and computed, command by command -/

/-- Elements of one row of a key of rank 2 (logical row `r`). -/
def rowStored (k : Key) (r : Nat) : List (List Nat) := (List.range (kLog k 0)).map (fun i => kStored k [i, r])

/-- Scale places of a logical row: those of its elements that open a block, or all where the row crosses blocks. -/
def opensBlock (s : List Nat) : Bool := decide (nth s 0 % 32 = 0)

/-- The row a GATHER or SCATTER index names, if below the table's rows. -/
def rowOf (table : Key) (g : Got) : Option Nat :=
  let v := leNat g.bytes % 2 ^ 32
  if v < kLog table 1 then some v else none

def indexRead (c : Cmd) : RSpec := readElem c.kc [c.unit]

/-- Reads of a moved row: the elements, with the scale before each that opens a block. -/
def rowReads (k : Key) (r : Nat) : List RSpec :=
  ((rowStored k r).map (fun s => if isMx (kFmt k) && opensBlock s then [readScale k s, readElem k s] else [readElem k s])).flatten

/-- The writes of a moved row from what its reads got. -/
def rowPuts (nonce : Nat) (a b : Key) (rb : Nat) : List (List Nat) → List Got → List Put
  | [], _ => []
  | s :: r, g =>
    let i := if kTrans a then nth s 1 else nth s 0
    let d := kStored b [i, rb]
    let sc := fun (v : Nat) (p : Bool) =>
      if isMx (kFmt b) && opensBlock d then
        [putScale b d (if kTrans a || kTrans b then (Config.crossScale (nonce + i)).toNat else v) p] else []
    if isMx (kFmt a) && opensBlock s then
      match g with
      | x :: y :: t => sc (leNat x.bytes) x.poison ++ putElem' b d (codeOf a s y) y.poison :: rowPuts nonce a b rb r t
      | _ => []
    else
      match g with
      | y :: t => sc 0 false ++ putElem' b d (codeOf a s y) y.poison :: rowPuts nonce a b rb r t
      | [] => []

/-- A row of +0 (R189). -/
def zeroRow (b : Key) (rb : Nat) : List Put :=
  ((rowStored b rb).map (fun d => (if isMx (kFmt b) && opensBlock d then [putScale b d 0 false] else []) ++ [putElem' b d 0 false])).flatten

def streamElems (c : Cmd) : Nat := kCount c.ka

/-- Reads of the present unit of a command that reads no packed key, as far as what it has got tells them. -/
def unitReads (c : Cmd) : List RSpec :=
  match c.op with
  | .copy cv _ _ => cvReads c.ka c.kb cv (destStored c.kb c.unit)
  | .pack _ _ => (blockStored c.ka c.unit).map (readElem c.ka)
  | .gather =>
    indexRead c :: (match c.got with
      | i :: _ => (match rowOf c.ka i with
        | some r => rowReads c.ka r
        | none => [])
      | [] => [])
  | .scatter =>
    indexRead c :: (match c.got with
      | i :: _ => if (rowOf c.kb i).isSome then rowReads c.ka c.unit else []
      | [] => [])
  | .coll .. => if c.unit = 0 then (List.range (kCount c.ka)).map (fun e => readElem c.ka (elemStored c.ka e)) else []
  | .form d =>
    if c.unit = 0 then (List.range 16).map (fun i => { sp := .scr, ea := d + 4 * i, n := 4 })
    else if c.unit = 1 then (List.range c.hda).map (fun r => { sp := .dev, ea := c.hdb + 4 * r, n := 4 })
    else []
  | .stream _ false _ _ _ => [readElem c.ka (elemStored c.ka c.unit)]
  | _ => []

/-- The group of UNPACK from what it has got. -/
def takeUnpack (c : Cmd) : Taken (Option (List Got)) :=
  takePacked c.ka true (fun b => (0, blockLen c.ka b)) c.unit (32 * c.unit + (groupBlocks c.ka c.unit).length - 1) c.got

/-- The next read of the present unit. -/
def nextRead (c : Cmd) : Option RSpec :=
  match c.op with
  | .mma _ =>
    match takeMma c c.unit with
    | .error r => some r
    | .ok _ => none
  | .unpack =>
    match takeUnpack c with
    | .error r => some r
    | .ok _ => none
  | _ => (unitReads c)[c.got.length]?

/-- Units of a command's work. -/
def unitCount (c : Cmd) : Nat :=
  match c.op with
  | .mma _ =>
    let sh := mmaShape c
    if sh.m = 0 ∨ sh.n = 0 then 0 else ceilDiv sh.k (mmaG sh.cls)
  | .mzero => 1
  | .mout .. => destUnits c.kb
  | .copy .. => destUnits c.kb
  | .pack .. => kBlocks c.ka
  | .unpack => ceilDiv (kBlocks c.ka) 32
  | .gather | .scatter => kDim c.kc 0
  | .fill _ => kCount c.kb
  | .stream _ _ _ _ _ => streamElems c
  | _ => 2

/-- The tokens a reading stream makes of its element `e` (R59, R221). -/
def streamToks (c : Cmd) (e code : Nat) : List Token :=
  let d := cmdDepth c
  let dims := kDims c.ka
  -- dimensions 0..j are just completed at e: the highest j below the depth
  let doneAt := fun (j : Nat) => decide ((e + 1) % (dims.take (j + 1)).foldl (· * ·) 1 = 0)
  let lv := ((List.range d).filter doneAt).getLast?
  let last := decide (e + 1 = kCount c.ka)
  [{ k := 0, d := BitVec.ofNat 32 code }] ++
    (if last then [{ k := BitVec.ofNat 3 (4 + d), d := 0 }]
     else match lv with
      | some j => [{ k := BitVec.ofNat 3 (4 + j), d := 0 }]
      | none => [])

/-- Compute the present unit from what it read (collective commands: see `Coll`). -/
def unitDo (w : Work) (g : Nat) (c : Cmd) : Work × Cmd :=
  let nxt := { c with unit := c.unit + 1, got := [], opened := false }
  match c.op with
  | .mma _ =>
    match takeMma c c.unit with
    | .error _ => (w, c)
    | .ok (inp, _) =>
      let P := mmaStep w g c inp
      (updEng P.w g (fun e => { e with prog := { e.prog with kgroup := c.unit + 1 } }), { nxt with flags := c.flags ||| P.st, win := P.win })
  | .mzero => ((accAll c.kc).foldl (fun w s => accZero w g c.kc s) w, nxt)
  | .mout rm nanm clr sc =>
    let (w, ps, st) := moutStep w g c rm nanm clr sc.toNat
    (w, { nxt with puts := ps, flags := c.flags ||| st })
  | .copy cv rm nanm =>
    let l := destStored c.kb c.unit
    if cv then
      let r := rmCopy rm.toNat
      let us := l.map (fun s => if r = .sr then drawWord c.s0 c.s1 (elemIndex c.kb s) else 0)
      let (ps, st) := putVals c.kb r nanm us l (cvVals c.ka (l.map (sameElem c.ka c.kb)) c.got)
      (w, { nxt with puts := ps, flags := c.flags ||| st })
    else
      let (n, w) := newNonce w
      (w, { nxt with puts := putMoved n (sameBlocks c.ka c.kb) c.ka c.kb l c.got })
  | .pack prune param =>
    let l := blockStored c.ka c.unit
    let codes := (l.zip c.got).map (fun p => codeOf c.ka p.1 p.2)
    let us := l.map (fun s => drawWord c.s0 c.s1 (elemIndex c.ka s))
    let (keep, sat) := packKeep (kFmt c.ka) prune param us codes
    let clamp := packCompares prune param && decide (kFmt c.ka = 0x01) && codes.any (· == 0x80)
    let bad := c.got.any (·.poison)
    let at_ := c.count
    let meta_ := if c.unit % 32 = 0 then
        [({ sp := keySp c.kb, ea := kMetaBase c.kb + 4 * (c.unit / 32), bytes := natLe 4 at_, poison := false, nib := 3 } : Put)]
      else []
    (w, { nxt with puts := meta_ ++ packPuts c.kb at_ keep bad, count := at_ + blockSize c.kb (keep.filterMap id).length
                   flags := c.flags ||| flagIf sat stSat ||| flagIf clamp stClamp })
  | .unpack =>
    let bs := groupBlocks c.ka c.unit
    let l := (bs.map (blockStored c.ka)).flatten
    match takeUnpack c with
    | .error _ => (w, c)
    | .ok (some got, _) =>
      (w, { nxt with puts := (l.zip got).map (fun p => putElem' c.kb p.1 (leNat p.2.bytes) p.2.poison) })
    | .ok (none, _) => (w, { nxt with puts := l.map (fun s => putElem' c.kb s 0 false), flags := c.flags ||| stFmterr })
  | .gather =>
    let (n, w) := newNonce w
    match c.got with
    | [] => (w, nxt)
    | i :: r =>
      let oor := flagIf (decide ((rowOf c.ka i).isNone) && decide (leNat i.bytes % 2 ^ 32 ≠ 0xFFFFFFFF)) stOor
      let ps := match rowOf c.ka i with
        | some t => rowPuts n c.ka c.kb c.unit (rowStored c.ka t) r
        | none => zeroRow c.kb c.unit
      (w, { nxt with puts := ps.map (fun p => { p with poison := p.poison || i.poison }), flags := c.flags ||| oor, count := c.unit + 1 })
  | .scatter =>
    let (n, w) := newNonce w
    match c.got with
    | [] => (w, nxt)
    | i :: r =>
      match rowOf c.kb i with
      | some t =>
        (w, { nxt with puts := (rowPuts n c.ka c.kb t (rowStored c.ka c.unit) r).map (fun p => { p with poison := p.poison || i.poison })
                       count := c.unit + 1 })
      | none =>
        (w, { nxt with flags := c.flags ||| flagIf (decide (leNat i.bytes % 2 ^ 32 ≠ 0xFFFFFFFF)) stOor, count := c.unit + 1 })
  | .fill v =>
    let s := elemStored c.kb c.unit
    let sc := if isMx (kFmt c.kb) && opensBlock s then [putScale c.kb s (bits v.toNat 15 8) false] else []
    (w, { nxt with puts := sc ++ [putElem' c.kb s (v.toNat % 2 ^ kBits c.kb) false] })
  | .stream _ false _ _ _ =>
    match c.got with
    | [] => (w, nxt)
    | x :: _ => (w, { nxt with toks := c.toks ++ streamToks c c.unit (codeOf c.ka (elemStored c.ka c.unit) x) })
  | _ => (w, nxt)

/-! ## The steps (R294) -/

def allQueues : List Queue := [.mq, .cq0, .cq1, .cq2, .cq3, .xq, .sr, .sw, .ms]

def isStream (c : Cmd) : Bool :=
  match c.op with
  | .stream .. => true
  | _ => false

/-- Whether a command has its turn in its queue: the head; for a stream, every earlier one of its class begun, and none
bound to its element. -/
def hasTurn (c : Ctl) (g : Nat) (q : Queue) (x : Cmd) : Bool :=
  let l := (cmdsOf c g q).takeWhile (fun y => y.id != x.id)
  match x.op with
  | .stream _ _ _ p e =>
    l.all (fun y => !isFence y && y.begun) && (boundCmd c g p e).isNone &&
      streamQs.all (fun r => (cmdsOf c g r).all (fun y => !ofElem p e y || decide (x.id ≤ y.id)))
  | _ => l = []

/-- The slot a buffer-bound key takes, or none while it must wait (R166). -/
def bindKey (c : Ctl) (g : Nat) (k : Key) (write : Bool) : Option Key :=
  if kQb k then
    let b := bufOf c g (kQent k)
    if write then
      (if kQk k + 1 ≤ b.free then some (kSetBase k (b.base + (b.tail + kQk k) % b.count * b.slot)) else none)
    else if kQk k + 1 ≤ b.filled then some (kSetBase k (b.base + (b.head + kQk k) % b.count * b.slot))
    else none
  else some k

/-- Whether a command writes through its first key and its second. -/
def writesA (c : Cmd) : Bool := cmdToMem c
def writesB (c : Cmd) : Bool :=
  match c.op with
  | .mma _ => false
  | _ => true

/-- The command with its slots, once its buffer waits hold. -/
def bindCmd (c : Ctl) (g : Nat) (x : Cmd) : Option Cmd :=
  match bindKey c g x.ka (writesA x), bindKey c g x.kb (writesB x), bindKey c g x.kc false with
  | some a, some b, some k => some { x with ka := a, kb := b, kc := k }
  | _, _, _ => none

/-- R295: no store of the task to the glade's own stores made before the command is still in SQ(t); R297: nor any that a load
before it was served from. -/
def storesDrained (c : Ctl) (g : Nat) (x : Cmd) : Bool :=
  (taskOf c g x.t).fl.sq.all (fun e => decide (x.id < e.id) || (!e.fwd && e.reqs.all (fun r => decide (gladeAt r.addr ≠ some g))))

/-- The element kind a stream needs (R221). -/
def streamKindOk (c : Ctl) (g : Nat) (x : Cmd) : Bool :=
  match x.op with
  | .stream _ m _ p e => decide ((elemOf (planeOf c g p) e).kind = if m then 13 else 12)
  | _ => true

/-- The COPY an MMA waits for is done (R184). -/
def copyDone (c : Ctl) (g : Nat) (x : Cmd) : Bool :=
  match x.after with
  | none => true
  | some id => allQueues.all (fun q => (cmdsOf c g q).all (fun y => y.id != id))

def findCmd (c : Ctl) (g : Nat) (q : Queue) (id : Nat) : Option Cmd := (cmdsOf c g q).find? (fun x => x.id == id && !isFence x)

def setStrmerr (w : Work) (g p : Nat) : Work := setPlane w g p { planeOf w.ctl g p with strmerr := true }

/-- Begin (R294). -/
def engBegin (w : Work) (g : Nat) (q : Queue) (id : Nat) : Work :=
  match findCmd w.ctl g q id with
  | none => w
  | some x =>
    if x.begun || !admits w.ctl g || !hasTurn w.ctl g q x || !storesDrained w.ctl g x || !copyDone w.ctl g x then w
    else
      let (w, ended) := useCtl w g (.queue q :: ([x.ka, x.kb, x.kc].filter kQb).map (fun k => .buf (kQent k)))
      if ended then w else
      match bindCmd w.ctl g x with
      | none => w
      | some y =>
        let y := { y with begun := true, starts := w.ctl.tick }
        let w := updCmd w g q id (fun _ => y)
        match y.op with
        | .mma z =>
          let sh := mmaShape y
          let w := if z && decide (0 < sh.m) && decide (0 < sh.n) then (accAll y.kc).foldl (fun w s => accZero w g y.kc s) w else w
          updEng w g (fun e => { e with prog := { busy := true, kgroup := 0 } })
        | .mzero | .mout .. => updEng w g (fun e => { e with prog := { busy := true, kgroup := 0 } })
        | .stream _ _ _ p _ =>
          if streamKindOk w.ctl g y then
            -- a stream of no elements is its final EOS alone
            (if kCount y.ka = 0 ∧ cmdToMem y = false then
              updCmd w g q id (fun c => { c with toks := [{ k := BitVec.ofNat 3 (4 + cmdDepth c), d := 0 }] }) else w)
          else setStrmerr (updCmd w g q id (fun c => { c with fin := true, aux := 1 })) g p
        | _ => w

/-- Whether a command waits for others between its units (collectives). -/
def isColl (c : Cmd) : Bool :=
  match c.op with
  | .coll .. | .form _ | .reform _ | .release => true
  | _ => false

/-- Whether a command is the copy engine's, which may stop within a unit of its work at the end of a chunk of 4 KiB (R192). -/
def inChunks (c : Cmd) : Bool :=
  match c.op with
  | .copy .. | .pack .. | .unpack | .gather | .scatter | .fill _ => true
  | _ => false

/-- A chunk, step or round of the command is under way: a stop waits for its end (R179, R192, R198). -/
def midChunk (c : Cmd) : Bool :=
  c.begun && (c.flying || !c.got.isEmpty || !c.win.isEmpty || isColl c || (!c.puts.isEmpty && !inChunks c) ||
    (decide (c.off % 8192 ≠ 0) && !isStream c))

/-- The next token of a writing stream goes to memory (R221). -/
def streamWrite (w : Work) (g : Nat) (q : Queue) (c : Cmd) : Work :=
  match c.toks with
  | [] => w
  | t :: r =>
    if t.isEos then
      updCmd w g q c.id (fun c => { c with toks := r, fin := c.fin || decide (cmdDepth c ≤ t.level) })
    else if c.unit < kCount c.ka then
      updCmd w g q c.id (fun c =>
        { c with toks := r, unit := c.unit + 1, puts := [putElem' c.ka (elemStored c.ka c.unit) (t.d.toNat % 2 ^ kBits c.ka) false] })
    else updCmd w g q c.id (fun c => { c with toks := r })

/-- Access (R294): while none of its accesses is on its way, the first pending write, else the next read of the unit, else the
unit's work; a command that stops ends its window first. -/
def engAccess (w : Work) (g : Nat) (q : Queue) (id : Nat) (coll : Work → Cmd → Work) : Work :=
  match findCmd w.ctl g q id with
  | none => w
  | some c =>
    let stopping := !admits w.ctl g
    if !c.begun || c.flying || (stopping && !midChunk c) then w
    else
      match nextPut w g q c with
      | some (p, r) => engPut w g q c p r
      | none =>
        if c.cut && !c.fin then
          -- the last row of a GATHER or SCATTER whose link has failed is done
          updCmd w g q id (fun c => { c with fin := true, flags := c.flags ||| stLink, count := c.unit })
        else if stopping && c.got.isEmpty && !c.win.isEmpty then
          let (w, st) := closeWindow w g c
          updCmd w g q id (fun c => { c with win := [], flags := c.flags ||| st })
        else if c.fin then w
        else if cmdToMem c then streamWrite w g q c
        else if isStream c && (decide (Config.streamDepth ≤ c.toks.length) || decide (streamElems c ≤ c.unit)) then w
        else if !isColl c && decide (unitCount c ≤ c.unit) then w
        else
          match nextRead c with
          | some r => engRead w g q c r.sp r.ea r.n
          | none =>
            if isColl c then coll w c
            else
              let (w, c) := unitDo w g c
              updCmd w g q id (fun _ => c)

/-- Whether every read and write of a command is done. -/
def engDone (c : Cmd) : Bool :=
  c.begun && !c.flying && c.puts.isEmpty &&
    (c.fin || (!isColl c && !cmdToMem c && decide (unitCount c ≤ c.unit) && (!isStream c || c.toks.isEmpty)))

/-- The entry of a bound key moves on (R166). -/
def advanceKey (w : Work) (g : Nat) (k : Key) (write : Bool) : Work :=
  if kQb k && kQadv k then changeBuf w g (kQent k) (fun b => if write then b.give 1 else b.take 1) else w

/-- Complete (R294): entries advance, the status is recorded, the waits are met. The entries advance for an MMA with M = 0 or N = 0
too (R166), which R175 completes before the step that advances them. (DESIGN CHOICE, log entry 90.) -/
def engComplete (w : Work) (g : Nat) (q : Queue) (id : Nat) : Work :=
  match findCmd w.ctl g q id with
  | none => w
  | some c =>
    if !engDone c || ((gladeOf w.ctl g).halted && !midChunk c && !c.fin) then w
    else
      let adv := decide (c.flags &&& (stLink + stTimeout + stStale + stMismatch + stExcluded) = 0) && decide (c.aux = 0)
      let w := if adv then
          let w := advanceKey w g c.ka (writesA c)
          let w := advanceKey w g c.kb (writesB c)
          advanceKey w g c.kc false
        else w
      let w := updQ w g q (fun l => l.filter (fun x => x.id != id))
      let w := match c.op with
        | .mma _ | .mzero | .mout .. => updEng w g (fun e => { e with prog := { busy := false, kgroup := 0 } })
        | .copy .. => updQ w g .mq (fun l => l.map (fun x =>
            if x.after = some id then { x with flags := x.flags ||| (c.flags &&& (stExp + stPoison)) } else x))
        | _ => w
      let w := updTask w g c.t (fun T => { T with fl := { T.fl with recs := T.fl.recs.map (fun r =>
        if r.id = id then { r with done := true, flags := c.flags, count := c.count } else r) } })
      wakeWait w g c.t

/-- ENGINE_COMPLETE (R294). -/
def execEngineComplete (g : Nat) (q : Queue) (id : Nat) (s : State) : Out3 := commit s (fun w => engComplete w g q id)

end Sys2Proof.Machine
end

