-- ==== Sys2Proof/Machine/Coll.lean ====
section
/-! DEFINITION. Collective groups: forming, rounds and the canonical fold, timeouts, liveness rounds, and what arrives
from other packages (R193 to R198, R405, R412). -/
namespace Sys2Proof.Machine

/-! ## Groups -/

def groupOf (c : Ctl) (g slot : Nat) : Option Group := Tab.find (gladeOf c g).ctx.eng.groups slot
def setGroup (w : Work) (g slot : Nat) (G : Group) : Work := updEng w g (fun e => { e with groups := Tab.set e.groups slot G })
def dropGroup (w : Work) (g slot : Nat) : Work := updEng w g (fun e => { e with groups := Tab.del e.groups slot })
def updGroup (w : Work) (g slot : Nat) (f : Group → Group) : Work :=
  match groupOf w.ctl g slot with
  | some G => setGroup w g slot (f G)
  | none => w

/-- Rank table entry (R193). -/
def entStand (e : Nat) : Nat := bits e 26 16
def entPkg (e : Nat) : Nat := bits e 15 8
def entGlade (e : Nat) : Nat := bits e 7 0
def myStand (c : Ctl) : Nat := bits c.links.pkgid.toNat 42 32
def myPkg (c : Ctl) : Nat := bits c.links.pkgid.toNat 31 24
def partOfGlade (c : Ctl) (g : Nat) : Nat := ((gladeOf c g).owner.map (·.part)).getD 0

/-- The glade of this package that rank table entry `e` names, by the cluster map of the launch at `g` (R341). -/
def memberGlade (c : Ctl) (g e : Nat) : Option Nat :=
  ((ownLaunch c g).bind (fun l => Tab.find l.map (entGlade e))).filter (fun d =>
    decide ((gladeOf c d).owner.map (fun o => (o.part, o.launch)) = (gladeOf c g).owner.map (fun o => (o.part, o.launch))))

/-- The slots of glade `d` whose group passes a test. -/
def slotsAt (c : Ctl) (d : Nat) (f : Group → Bool) : List (Nat × Nat) :=
  ((gladeOf c d).ctx.eng.groups.filter (fun x => f x.2)).map (fun x => (d, x.1))

/-- The slots of glade `d` that hold rank `r` of the group of a TAG. -/
def rankSlots (c : Ctl) (d tag r : Nat) : List (Nat × Nat) :=
  slotsAt c d (fun H => decide (H.tag = tag) && decide (H.myrank = r))

/-- The slots of a partition whose group passes a test (R405). -/
def slotsOf (c : Ctl) (p : Nat) (f : Group → Bool) : List (Nat × Nat) :=
  (c.glades.map (fun q =>
    if (q.2.owner.map (·.part)) = some p then (q.2.ctx.eng.groups.filter (fun x => f x.2)).map (fun x => (q.1, x.1)) else [])).flatten

def insertRank (l : List Nat) (r : Nat) : List Nat := insNat l r

/-! ## Receiving (R193 to R197, R412) -/

/-- A command ends with status bits. -/
def finish (w : Work) (g : Nat) (c : Cmd) (flags : Nat) : Work :=
  updCmd w g .xq c.id (fun c => { c with fin := true, got := [], flags := c.flags ||| flags })

/-- The begun command of XQ on a slot. -/
def openCmd (c : Ctl) (g slot : Nat) : Option Cmd :=
  (cmdsOf c g .xq).find? (fun x => x.begun && !x.fin && decide (x.slot = slot))

/-- A member hears that rank `rank` forms the group. -/
def hearForm (w : Work) (l : List (Nat × Nat)) (rank : Nat) : Work :=
  l.foldl (fun w s => updGroup w s.1 s.2 (fun G => { G with formed := insertRank G.formed rank })) w

/-- A member has a contribution. -/
def hearContrib (w : Work) (l : List (Nat × Nat)) (x : Contrib) : Work :=
  l.foldl (fun w s => updGroup w s.1 s.2 (fun G => { G with contribs := G.contribs ++ [x] })) w

/-- A probe of an old rank is heard during the probe phase. -/
def hearProbe (w : Work) (g slot rank : Nat) : Work :=
  updGroup w g slot (fun G =>
    match G.reform with
    | .probe t h n => if rank < G.nranks then { G with reform := .probe t (insertRank h rank) n } else G
    | _ => G)

/-- A report is kept for the decision. (DEDUCED, log entry 65.) -/
def hearReport (w : Work) (g slot rank : Nat) (h : List Nat) : Work :=
  updGroup w g slot (fun G =>
    match G.reform with
    | .probe _ _ _ | .report _ _ => { G with reports := G.reports.filter (fun x => x.1 != rank) ++ [(rank, h)] }
    | _ => G)

def reformCmd (c : Ctl) (g slot : Nat) : Option Cmd :=
  (openCmd c g slot).filter (fun x => match x.op with
    | .reform _ => true
    | _ => false)

/-- A member leaves the group: EXCLUDED, and its slot is empty. -/
def excluded (w : Work) (g slot : Nat) : Work :=
  match reformCmd w.ctl g slot with
  | some c => finish (dropGroup w g slot) g c stExcluded
  | none => w

/-- A member takes the new group (R197): descriptor and rank table are rewritten, and the command completes. -/
def takeResult (w : Work) (g slot : Nat) (members : List Nat) : Work :=
  match groupOf w.ctl g slot, reformCmd w.ctl g slot with
  | some G, some c =>
    if !members.contains G.myrank then excluded w g slot
    else
      let ranks := members.map (fun r => (G.ranks[r]?).getD 0)
      let my := (members.takeWhile (· != G.myrank)).length
      let n := members.length
      let d := match c.op with
        | .reform d => d
        | _ => 0
      let put := fun (sp : Space) (ea v : Nat) => ({ sp := sp, ea := ea, bytes := natLe 4 v, poison := false, nib := 0 } : Put)
      let ps := [put .scr d n, put .scr (d + 4) my] ++
        ((List.range n).zip ranks).map (fun p => put .dev (G.rtab + 4 * p.1) p.2.toNat)
      let w := setGroup w g slot
        { G with nranks := n, myrank := my, ranks := ranks, stale := false, contribs := [], reports := [], reform := .idle
                 formed := List.range n }
      updCmd (finish w g c 0) g .xq c.id (fun c => { c with puts := ps, count := n })
  | _, _ => w

def waitingResult (c : Ctl) (g slot : Nat) : Bool :=
  match groupOf c g slot with
  | some G =>
    match G.reform with
    | .report _ _ | .result _ => true
    | _ => false
  | none => false

/-- Whether slot `H` of a member, of number `k`, stands for the group `G` of slot `j` under another TAG: the same rank table, as
rank `r`, either being formed or in the same slot. (DEDUCED, log entry 30.) -/
def tagDiffers (G H : Group) (j k r : Nat) : Bool :=
  (!H.live || decide (j = k)) && decide (H.myrank = r) && decide (H.ranks = G.ranks) && decide (H.tag ≠ G.tag)

def setClash (w : Work) (l : List (Nat × Nat)) : Work :=
  l.foldl (fun w s => updGroup w s.1 s.2 (fun G => { G with clash := true })) w

/-- What a message does at the slots it names. -/
def collApply (w : Work) (l : List (Nat × Nat)) : CollMsg → Work
  | .form _ _ rank => hearForm w l rank
  | .clash _ _ => setClash w l
  | .contrib _ _ rank h el po => hearContrib w l { rank := rank, hdr := h, elems := el, poison := po }
  | .probe _ _ rank => l.foldl (fun w s => hearProbe w s.1 s.2 rank) w
  | .report _ _ rank heard => l.foldl (fun w s => hearReport w s.1 s.2 rank heard) w
  | .result _ _ members => l.foldl (fun w s => if waitingResult w.ctl s.1 s.2 then takeResult w s.1 s.2 (members.foldl insertRank []) else w) w
  | .tableWrite .. | .tableRead .. => w

/-- TAG and destination rank of a collective message. -/
def collSlot : CollMsg → Option (Nat × Nat)
  | .form tag dest _ | .clash tag dest | .contrib tag dest _ _ _ _ | .probe tag dest _ | .report tag dest _ _ | .result tag dest _ =>
    some (tag, dest)
  | .tableWrite .. | .tableRead .. => none

/-- A message of glade `src` arrives at glade `d` of its launch, and what is answered: a member that forms the group hears of one it
did not know and tells it of itself; one that holds it under another TAG says so (R193). -/
def collArrive (w : Work) (src d : Nat) (m : CollMsg) : Work × Option CollMsg :=
  match collSlot m with
  | none => (w, none)
  | some (tag, dest) =>
    let l := rankSlots w.ctl d tag dest
    let known := l.all (fun s => ((groupOf w.ctl s.1 s.2).map (fun G => match m with
      | .form _ _ rank => G.formed.contains rank
      | _ => true)).getD true)
    match m, l with
    | .form _ _ rank, [] =>
      match rankSlots w.ctl src tag rank with
      | [] => (w, none)
      | (_, j) :: _ =>
        match groupOf w.ctl src j with
        | none => (w, none)
        | some G =>
          match (gladeOf w.ctl d).ctx.eng.groups.filter (fun x => tagDiffers G x.2 j x.1 dest) with
          | [] => (w, none)
          | hs => (setClash w (hs.map (fun x => (d, x.1))), some (.clash tag rank))
    | .form _ _ rank, l => (collApply w l m, if known then none else some (.form tag rank dest))
    | _, l => (collApply w l m, none)

/-! ## Sending (R22, R403, R404) -/

/-- Whether an enabled PEER entry names a package of any stand (R403). -/
def peerAt (c : Ctl) (p stand pkg : Nat) : Bool :=
  (partOf c p).ten.peers.any (fun e => e.2.getLsbD 63 && decide (bits e.2.toNat 31 24 = pkg) && decide (bits e.2.toNat 42 32 = stand))

/-- The first message for a stand reads its entry of the stand map, which is kept until ETHMAP is written (R410). -/
def ethLookup (w : Work) (stand : Nat) : Work :=
  if (Tab.find w.ctl.links.ethcache stand).isSome then w
  else
    let a := w.ctl.links.ethmap.toNat + 32 * stand
    let (w, _) := checkRead w a 17
    let e := if (leNat (readBytes w 0 (a + 16) 1)).testBit 0 then some (BitVec.ofNat 128 (leNat (readBytes w 0 a 16))) else none
    updCtl w (fun c => { c with links := { c.links with ethcache := Tab.set c.links.ethcache stand e } })

/-- A message has come to the end of its way: it arrives at a glade, or leaves the package, where what it does is the other
package's (R405, R409). -/
def collEnd (w : Work) (src : Nat) (home : Home) (m : CollMsg) : Work × Option CollMsg :=
  match home with
  | .glade d => collArrive w src d m
  | .stand s => (if (ethPort w.ctl s).isSome then ethLookup w s else w, none)
  | _ => (w, none)

/-- Whether nothing stands on a message's way and the model does not hold it back (R22; log entry 10). -/
def collClear (c : Ctl) (g : Nat) (home : Home) : Bool :=
  decide (home = .glade g) ||
    (!c.model.defer && !(hopPath c g home).any (fun h => hopReqs c.net h home != []) && !c.net.colls.any (fun x => x.home == home))

/-- A message that something stands before starts at its glade's router. -/
def collQueue (w : Work) (g : Nat) (home : Home) (m : CollMsg) : Work :=
  updNetC w (fun n => { n with colls := n.colls ++ [{ src := g, home := home, hop := .gladeRouter g, msg := m }] })

/-- The answer to a message: to an answer none is given that changes anything. -/
def collAnswer (w : Work) (src d : Nat) (m : Option CollMsg) : Work :=
  match m with
  | none => w
  | some m => if collClear w.ctl d (.glade src) then (collEnd w d (.glade src) m).1 else collQueue w d (.glade src) m

/-- A message starts on its way. -/
def collStart (w : Work) (g : Nat) (home : Home) (m : CollMsg) : Work :=
  if collClear w.ctl g home then
    let (w, a) := collEnd w g home m
    match home with
    | .glade d => collAnswer w g d a
    | _ => w
  else collQueue w g home m

/-- The oldest message at a hop toward a home goes on; past the last hop it is at its end (R22). -/
def collHop (w : Work) (h : Hop) (home : Home) : Work :=
  match w.ctl.net.colls.find? (fun x => x.hop == h && x.home == home) with
  | none => w
  | some x =>
    let drop := fun (w : Work) => updNetC w (fun n => { n with colls := dropFirst (· == x) n.colls })
    let done := fun (w : Work) =>
      let (w, a) := collEnd (drop w) x.src home x.msg
      match home with
      | .glade d => collAnswer w x.src d a
      | _ => w
    match nextHop w.ctl home h with
    | none | some (.gladeIn _) => done w
    | some k => updNetC w (fun n => { n with colls := n.colls.map (fun y => if y = x then { y with hop := k } else y) })

/-- Where rank entry `e` of a group at glade `g` stands: none where its glade holds no context of the launch. -/
def rankHome (c : Ctl) (g : Nat) (e : Nat) : Option Home :=
  if entStand e ≠ myStand c then some (.stand (entStand e))
  else if entPkg e ≠ myPkg c then some (.package (entPkg e))
  else (memberGlade c g e).map .glade

/-- A guard whose record waits for a full ring holds a message that leaves by its egress (R383, R404). -/
def egressHeld (c : Ctl) (g : Nat) (ranks : List (BitVec 32)) : Bool :=
  guardHeld c g (partOfGlade c g) && ranks.any (fun e => ((rankHome c g e.toNat).map (meetsGuard g)).getD false)

/-- Send to one rank: toward another package the message passes the guard, or is dropped and counted (R403, R404). -/
def sendRank (w : Work) (g : Nat) (G : Group) (r : Nat) (m : CollMsg) : Work :=
  let e := ((G.ranks[r]?).getD 0).toNat
  let p := partOfGlade w.ctl g
  match rankHome w.ctl g e with
  | none => w
  | some (.glade d) => collStart w g (.glade d) m
  | some home =>
    if peerAt w.ctl p (entStand e) (entPkg e) then collStart w g home m
    else
      dropMessage w g p (((gladeOf w.ctl g).owner.map (·.launch)).getD 0) (lgladeOf w.ctl g) 0
        (dropWord 1 true (entStand e) (entPkg e) 0 0)

/-- Send to every other rank what `m` gives for it. -/
def sendAll (w : Work) (g : Nat) (G : Group) (m : Nat → CollMsg) : Work :=
  ((List.range G.nranks).filter (· != G.myrank)).foldl (fun w r => sendRank w g G r (m r)) w

/-! ## Folds (R194, R195) -/

/-- One application of ⊕ in a format, rounded by RNE. -/
def foldOp (f : Nat) (op : FoldOp) (a b : Nat) : Nat :=
  let fl := fun (F : FFmt) =>
    let x := F.val a
    let y := F.val b
    F.ieee .rne (match op with
      | .add => x.add .rne y
      | .min => Num.minMax false x y
      | .max => Num.minMax true x y)
  let int := fun (n : Nat) =>
    match op with
    | .add => (a + b) % 2 ^ n
    | .min => if signedOf n b < signedOf n a then b else a
    | .max => if signedOf n a < signedOf n b then b else a
  if f = 0x02 then int 32
  else if f = 0x03 then int 64
  else if f = 0x20 then fl bf16
  else if f = 0x21 then fl fp32
  else fl fp64

/-- One level of the canonical fold: runs of sixteen, left to right. `n` bounds the runs. -/
def foldLevel (f : Nat) (op : FoldOp) : Nat → List Nat → List Nat
  | 0, z => z
  | n + 1, z =>
    match z with
    | [] => []
    | a :: r => ((r.take 15).foldl (foldOp f op) a) :: foldLevel f op n (r.drop 15)

/-- The canonical fold F (R195); five levels serve 524,288 ranks. -/
def canonFold (f : Nat) (op : FoldOp) (z : List Nat) : Nat :=
  let l := fun (z : List Nat) => foldLevel f op z.length z
  ((l (l (l (l (l z))))).head?).getD 0

/-- A member's view of a whole round: contributions in rank order. -/
def roundOf (G : Group) : Option (List Contrib) :=
  let l := (List.range G.nranks).map (fun r => G.contribs.find? (fun x => x.rank == r))
  if l.all (·.isSome) then some (l.filterMap id) else none

/-- The contributions left after a round has used the first of each rank. (DEDUCED, log entry 70.) -/
def useRound (G : Group) : List Contrib :=
  (List.range G.nranks).foldl (fun l r => dropFirst (fun x => x.rank == r) l) G.contribs

/-- What a round gives a member: destination element by element, with its poison mark. -/
def roundResult (G : Group) (h : CollHdr) (cs : List Contrib) : List (Nat × Bool) :=
  let el := fun (x : Contrib) (i : Nat) => (((x.elems[i]?).getD 0).toNat, (x.poison[i]?).getD false)
  let folded := fun (i : Nat) =>
    (canonFold h.fmt h.opr (cs.map (fun x => (el x i).1)), cs.any (fun x => (el x i).2))
  let share := h.len / G.nranks
  match h.kind with
  | 0 => (List.range h.len).map folded
  | 1 => (List.range share).map (fun i => folded (G.myrank * share + i))
  | 2 => (cs.map (fun x => (List.range h.len).map (el x))).flatten
  | _ =>
    match cs.find? (fun x => x.rank == h.root) with
    | some x => (List.range h.len).map (el x)
    | none => []

/-- The round header of a command as its member sees the group (R194). -/
def hdrOf (G : Group) (c : Cmd) (kind : Nat) (op : FoldOp) (root : Nat) : CollHdr :=
  let l := kCount c.ka
  let d := kCount c.kb
  let fits := match kind with
    | 1 => decide (l % G.nranks = 0) && decide (d = l / G.nranks)
    | 2 => decide (d = l * G.nranks)
    | _ => decide (d = l)
  { kind := kind, opr := op, fmt := kFmt c.ka, len := l, root := if kind = 3 then root else 0
    valid := fits && (decide (kind ≠ 3) || decide (root < G.nranks)) }

/-! ## The XQ commands at work -/

/-- What happens at the Begin of an XQ command: the ends that need no work (R193, R194, R196, R197). -/
def collBegin (w : Work) (g : Nat) (c : Cmd) : Work :=
  match c.op with
  | .form _ => if (groupOf w.ctl g c.slot).isSome then finish w g c stMismatch else w
  | .release => finish (dropGroup w g c.slot) g c 0
  | .coll .. =>
    match groupOf w.ctl g c.slot with
    | none => finish w g c stMismatch
    | some G => if G.stale then finish w g c stStale else w
  | .reform _ =>
    match groupOf w.ctl g c.slot with
    | none => finish w g c stMismatch
    | some G => setGroup w g c.slot { G with reform := .probe w.ctl.tick [G.myrank] none, reports := [] }
  | _ => w

/-- ENGINE_BEGIN (R294). -/
def beginAny (w : Work) (g : Nat) (q : Queue) (id : Nat) : Work :=
  let before := (findCmd w.ctl g q id).map (·.begun)
  let w := engBegin w g q id
  match findCmd w.ctl g q id with
  | some c => if c.begun && decide (before = some false) then collBegin w g c else w
  | none => w

def descWord (d : Key) (i : Nat) : Nat := kWord d i

/-- The descriptor has been read (R193). -/
def formDesc (w : Work) (g : Nat) (c : Cmd) : Work :=
  let d : Key := BitVec.ofNat 512 (leNat ((c.got.map (·.bytes)).flatten))
  let n := descWord d 0
  if n = 0 ∨ 524288 < n ∨ n ≤ descWord d 1 ∨ descWord d 3 < 4096 then finish w g c stMismatch
  else updCmd w g .xq c.id (fun c =>
    { c with unit := 1, got := [], kc := d, hda := n, hdb := descWord d 4 + 2 ^ 32 * descWord d 5 })

/-- The rank table has been read: the slot holds the group that is being formed, and every member hears of it. -/
def formTable (w : Work) (g : Nat) (c : Cmd) : Work :=
  let ranks := c.got.map (fun x => BitVec.ofNat 32 (leNat x.bytes))
  let me_ := ((ranks[descWord c.kc 1]?).getD 0).toNat
  if entStand me_ ≠ myStand w.ctl ∨ entPkg me_ ≠ myPkg w.ctl ∨ entGlade me_ ≠ lgladeOf w.ctl g then finish w g c stMismatch
  else
    let G : Group :=
      { live := false, clash := false, reports := [], nranks := c.hda, myrank := descWord c.kc 1, scope := descWord c.kc 2 % 8
        timeout := descWord c.kc 3, rtab := c.hdb, tag := descWord c.kc 6, ranks := ranks, stale := false, contribs := []
        formed := [descWord c.kc 1], reform := .idle }
    let w := setGroup w g c.slot G
    let w := updCmd w g .xq c.id (fun c => { c with unit := 2, got := [] })
    sendAll w g G (fun r => .form G.tag r G.myrank)

/-- The form waits for every member, at most TIMEOUT ticks (log entry 30). -/
def formWait (w : Work) (g : Nat) (c : Cmd) : Work :=
  match groupOf w.ctl g c.slot with
  | none => finish w g c stMismatch
  | some G =>
    if G.clash then finish (dropGroup w g c.slot) g c stMismatch
    else if G.formed.length = G.nranks ∨ G.timeout ≤ sinceTick w.ctl c.starts then
      updCmd (finish (setGroup w g c.slot { G with live := true }) g c 0) g .xq c.id (fun c => { c with count := G.nranks })
    else w

/-- The source has been read: the contribution goes to every member (R194, R195). -/
def collSend (w : Work) (g : Nat) (c : Cmd) (G : Group) (h : CollHdr) : Work :=
  let codes := ((List.range c.got.length).zip c.got).map (fun p => codeOf c.ka (elemStored c.ka p.1) p.2)
  let x : Contrib := { rank := G.myrank, hdr := h, elems := codes.map (BitVec.ofNat 64), poison := c.got.map (·.poison) }
  let w := updGroup w g c.slot (fun G => { G with contribs := G.contribs ++ [x] })
  let w := updCmd w g .xq c.id (fun c => { c with unit := 1, got := [] })
  sendAll w g G (fun r => .contrib G.tag r G.myrank h x.elems x.poison)

/-- Every contribution is here: the destination, or MISMATCH (R194, R195). -/
def collRound (w : Work) (g : Nat) (c : Cmd) (G : Group) (h : CollHdr) : Work :=
  match roundOf G with
  | none => w
  | some cs =>
    let w := setGroup w g c.slot { G with contribs := useRound G }
    if cs.any (fun x => x.hdr != h) || !h.valid then finish w g c stMismatch
    else
      let res := roundResult G h cs
      let ps := ((List.range res.length).zip res).map (fun p => putElem' c.kb (elemStored c.kb p.1) p.2.1 p.2.2)
      let w := finish w g c (flagIf (res.any (·.2)) stPoison)
      updCmd w g .xq c.id (fun c => { c with puts := ps })

/-- The work of an XQ command between its accesses. -/
def collDo (w : Work) (c : Cmd) (g : Nat) : Work :=
  match c.op with
  | .form _ =>
    if c.unit = 0 then formDesc w g c
    else if c.unit = 1 then
      if egressHeld w.ctl g (c.got.map (fun x => BitVec.ofNat 32 (leNat x.bytes))) then w else formTable w g c
    else formWait w g c
  | .coll kind op root =>
    match groupOf w.ctl g c.slot with
    | none => finish w g c stMismatch
    | some G =>
      let h := hdrOf G c kind op root.toNat
      if c.unit = 0 then (if egressHeld w.ctl g G.ranks then w else collSend w g c G h) else collRound w g c G h
  | _ => w

/-- Access of any command (R294). -/
def accessAny (w : Work) (g : Nat) (q : Queue) (id : Nat) : Work := engAccess w g q id (fun w c => collDo w c g)

/-- ENGINE_BEGIN (R294). -/
def execEngineBegin (g : Nat) (q : Queue) (id : Nat) (s : State) : Out3 := commit s (fun w => beginAny w g q id)
/-- ENGINE_ACCESS (R294). -/
def execEngineAccess (g : Nat) (q : Queue) (id : Nat) (s : State) : Out3 := commit s (fun w => accessAny w g q id)

/-! ## Timeouts (R196) -/

/-- The contributions of a timed-out round: those of this package as they stand, and for a member elsewhere that has not been
heard one of free values; none where a member of this package has not contributed. (DESIGN CHOICE, log entry 19.) -/
def lateRound (w : Work) (g nonce : Nat) (G : Group) (h : CollHdr) : Option (List Contrib) :=
  let l := (List.range G.nranks).map (fun r =>
    match G.contribs.find? (fun x => x.rank == r) with
    | some x => some x
    | none =>
      if (memberGlade w.ctl g ((G.ranks[r]?).getD 0).toNat).isSome then none
      else some { rank := r, hdr := h, elems := (List.range h.len).map (fun i => Config.lateFold nonce (r * h.len + i)), poison := [] })
  if l.all (·.isSome) then some (l.filterMap id) else none

/-- What a timed-out round leaves in the destination: each element its prior value or its value of R195. -/
def lateWrites (w : Work) (g nonce : Nat) (G : Group) (h : CollHdr) (c : Cmd) : List Put :=
  match lateRound w g nonce G h with
  | none => []
  | some cs =>
    if cs.any (fun x => x.hdr != h) || !h.valid then []
    else
      let res := roundResult G h cs
      ((List.range res.length).zip res).filterMap (fun p =>
        if Config.timedOut nonce p.1 then some (putElem' c.kb (elemStored c.kb p.1) (p.2.1 % 2 ^ kBits c.kb) p.2.2) else none)

def roundTimeout (w : Work) (g slot : Nat) : Work :=
  match openCmd w.ctl g slot, groupOf w.ctl g slot with
  | some c, some G =>
    match c.op with
    | .coll kind op root =>
      if G.timeout ≤ sinceTick w.ctl c.starts then
        let (n, w) := newNonce w
        let ps := lateWrites w g n G (hdrOf G c kind op root.toNat) c
        let w := setGroup w g slot { G with stale := true, contribs := [] }
        updCmd (finish w g c (stTimeout + flagIf (ps.any (·.poison)) stPoison)) g .xq c.id (fun c => { c with puts := ps })
      else w
    | .form _ => formWait w g c
    | _ => w
  | _, _ => w

/-- COLL_ROUND_TIMEOUT (R196). -/
def execCollRoundTimeout (g slot : Nat) (s : State) : Out3 := commit s (fun w => roundTimeout w g slot)

/-! ## From other packages (R405) -/

/-- A message that matched nothing: counted, without a record. -/
def uncounted (w : Work) (p : Nat) : Work :=
  updPart w p (fun P => { P with ten := { P.ten with gdrops := satInc 48 P.ten.gdrops } })

/-- One flit of table traffic of another package goes, through the extents of its launch, from the die it arrives at, else that of
the launch's first glade, to its home; at an address above the new capacity it comes to nothing and is logged (R434).
(DEDUCED, log entry 71.) -/
def tableFlit (w : Work) (die : Option Nat) (p n va : Nat) (need : Need) (acc : Access) : Work :=
  match launchOf w.ctl p n with
  | none => uncounted w p
  | some l =>
    let g := ((l.map.head?).map (·.2)).getD 0
    match checkLaunch w g l va need with
    | .error (.memrange pa) => logGone w pa n
    | .error _ => uncounted w p
    | .ok x =>
      let q := reroute w.ctl { devReq w g va x acc with t := 16, part := p, launch := n, ext := x.ext }
      hopPush w (.dieSwitch (die.getD (dieOf g))) (homeOf w.ctl q) q

/-- The parts of `n` bytes at `va` that lie in one block of 64 bytes each: an entry of a bridge holds no more (R25). -/
def flitsOf : Nat → Nat → Nat → Nat → List (Nat × Nat)
  | 0, _, _, _ => []
  | fuel + 1, va, off, n =>
    if n = 0 then []
    else
      let k := Nat.min n (64 - (va + off) % 64)
      (off, k) :: flitsOf fuel va (off + k) (n - k)

/-- Table traffic of another package, flit by flit. -/
def tableTraffic (w : Work) (die : Option Nat) (p n va len : Nat) (need : Need) (acc : Nat → Nat → Access) : Work :=
  (flitsOf len va 0 len).foldl (fun w f => tableFlit w die p n (va + f.1) need (acc f.1 f.2)) w

/-- The slot of a partition that holds a message's TAG as its destination rank (R405). -/
def memberOf (c : Ctl) (p tag dest : Nat) : List (Nat × Nat) :=
  (slotsOf c p (fun G => decide (G.tag = tag) && decide (G.myrank = dest))).take 1

/-- A message that arrives for a partition, at die `die` where that is known (R405). -/
def collReceive (w : Work) (die : Option Nat) (p : Nat) (m : CollMsg) : Work :=
  match m with
  | .tableWrite n va bs => tableTraffic w die p n va bs.length .write (fun o k => .write ((bs.drop o).take k))
  | .tableRead n va k => tableTraffic w die p n va k .read (fun _ k => .read k)
  | m =>
    match collSlot m with
    | none => w
    | some (tag, dest) =>
      match memberOf w.ctl p tag dest with
      | [] => uncounted w p
      | l => collApply w l m

/-! ## Liveness rounds (R197, R412) -/

/-- REFORM_PROBE_RECEIVE: one of another package (R405). -/
def execReformProbeReceive (part : Nat) (grp : GroupRank) (rank : Nat) (s : State) : Out3 :=
  commit s (fun w => collReceive w none part (.probe grp.tag grp.dest rank))

/-- A probe goes to every old rank once every TIMEOUT / 16 ticks of the probe phase. -/
def probeSend (w : Work) (g slot : Nat) : Work :=
  match groupOf w.ctl g slot with
  | none => w
  | some G =>
    match G.reform with
    | .probe t h n =>
      let due := match n with
        | none => true
        | some k => decide (G.timeout / 16 ≤ sinceTick w.ctl k)
      if !due || decide (G.timeout ≤ sinceTick w.ctl t) || egressHeld w.ctl g G.ranks then w
      else sendAll (setGroup w g slot { G with reform := .probe t h (some w.ctl.tick) }) g G (fun r => .probe G.tag r G.myrank)
    | _ => w

/-- REFORM_PROBE_SEND. -/
def execReformProbeSend (g slot : Nat) (s : State) : Out3 := commit s (fun w => probeSend w g slot)

/-- REFORM_REPORT_RECEIVE: one of another package (R405). -/
def execReformReportReceive (part : Nat) (grp : GroupRank) (rank : Nat) (heard : List Nat) (s : State) : Out3 :=
  commit s (fun w => collReceive w none part (.report grp.tag grp.dest rank heard))

/-- The end of the probe phase: H goes to the lowest rank heard. -/
def probeEnd (w : Work) (g slot : Nat) : Work :=
  match groupOf w.ctl g slot with
  | none => w
  | some G =>
    match G.reform with
    | .probe t h _ =>
      if sinceTick w.ctl t < G.timeout ∨ egressHeld w.ctl g G.ranks = true then w
      else
        let w := setGroup w g slot { G with reform := .report w.ctl.tick h }
        let c := (h.head?).getD G.myrank
        if c = G.myrank then w
        else sendRank w g G c (.report G.tag c G.myrank h)
    | _ => w

/-- REFORM_PROBE_PHASE_END. -/
def execReformProbePhaseEnd (g slot : Nat) (s : State) : Out3 := commit s (fun w => probeEnd w g slot)

/-- REFORM_RESULT_RECEIVE: one of another package (R405). -/
def execReformResultReceive (part : Nat) (grp : GroupRank) (members : List Nat) (s : State) : Out3 :=
  commit s (fun w => collReceive w none part (.result grp.tag grp.dest members))

/-- The end of the report phase: the coordinator decides, and a majority is sent the result. -/
def reportEnd (w : Work) (g slot : Nat) : Work :=
  match groupOf w.ctl g slot with
  | none => w
  | some G =>
    match G.reform with
    | .report t h =>
      if sinceTick w.ctl t < G.timeout ∨ egressHeld w.ctl g G.ranks = true then w
      else
        let w := setGroup w g slot { G with reform := .result w.ctl.tick }
        if h.head? ≠ some G.myrank then w
        else
          let members := (G.reports.filter (fun x => h.contains x.1 && x.2.contains G.myrank)).foldl (fun l x => insertRank l x.1) [G.myrank]
          if G.nranks < 2 * members.length then
            let w := (members.filter (· != G.myrank)).foldl (fun w r => sendRank w g G r (.result G.tag r members)) w
            takeResult w g slot members
          else w
    | _ => w

/-- REFORM_REPORT_PHASE_END. -/
def execReformReportPhaseEnd (g slot : Nat) (s : State) : Out3 := commit s (fun w => reportEnd w g slot)

def resultTimeout (w : Work) (g slot : Nat) : Work :=
  match groupOf w.ctl g slot with
  | none => w
  | some G =>
    match G.reform with
    | .result t => if G.timeout ≤ sinceTick w.ctl t then excluded w g slot else w
    | _ => w

/-- REFORM_RESULT_TIMEOUT. -/
def execReformResultTimeout (g slot : Nat) (s : State) : Out3 := commit s (fun w => resultTimeout w g slot)

/-- COLL_MESSAGE_RECEIVE (R405). -/
def execCollMessageReceive (part : Nat) (msg : CollMsg) (s : State) : Out3 := commit s (fun w => collReceive w none part msg)

/-- REQUEST_HOP (R285): the head of a hop toward a home, or where no request stands there a VC word or collective message. -/
def execRequestHop (h : Hop) (home : Home) (s : State) : Out3 :=
  commit s (fun w =>
    let word := match home with
      | .glade d => !(flyAt w.ctl h d).isEmpty
      | _ => false
    if hopReqs w.ctl.net h home = [] ∧ word = false then collHop w h home else hopStep w h home)

end Sys2Proof.Machine
end

