-- ==== Sys2Proof/Machine/Sched.lean ====
section
/-! DEFINITION. Launches: records, order, placement, leases before dispatch, loading and starting, completion (R330 to
R353, R366 to R368, R464). The image of a launch is read, and its glades are loaded, in one step of the scheduler. -/
namespace Sys2Proof.Machine

/-! ## The scheduler's own reads (R340, R364) -/

/-- What an access of `n` bytes that the device makes for itself meets (R432 to R436): it waits as a whole while a granule of it
has to. -/
def spanMeets (c : Ctl) (a n : Nat) : Meets :=
  if c.repair.sref = [] ∧ c.repair.phaseAct = false then .clear
  else
    let l := (List.range ((a + n - 1) / 512 - a / 512 + 1)).map (fun i => devMeets c (Nat.max a ((a / 512 + i) * 512)))
    if l.contains .wait then .wait else if l.contains .gone then .gone else .clear

/-- The leaf of a virtual address of partition `p` for launch `n`, its whole path read from PTROOT on: the walk cache serves the
walkers of R371 and R374 only (R372). -/
def schedLeaf (w : Work) (p n va : Nat) : Except XErr Leaf × Work :=
  match walk w none p (ptRoot w.ctl p) va with
  | (.error (.memunc a 3), w) => (.error (.memunc a 3), logGone w a n)
  | r => r

/-- Bytes at a virtual address of a partition for launch `n`; an error where a page has no valid leaf or the read meets
uncorrectable data or poison (R340), or where it has to wait. `fuel` bounds the pages. -/
def readVirt (w : Work) (p n : Nat) : Nat → Nat → Nat → Except XErr (List Byte) × Work
  | 0, _, _ => (.ok [], w)
  | fuel + 1, va, len =>
    if len = 0 then (.ok [], w) else
    let k := Nat.min len (65536 - va % 65536)
    match schedLeaf w p n va with
    | (.error x, w) => (.error x, w)
    | (.ok l, w) =>
      if outOfRange w.ctl (pteTier l.e) (leafPa l va) then (.error (.memrange (leafPa l va)), w) else
      let a := flatOf (pteTier l.e) (leafPa l va)
      match spanMeets w.ctl a k with
      | .wait => (.error .wait, w)
      | .gone => (.error (.memunc a 3), logGone w a n)
      | .clear =>
        let (w, f) := checkRead w a k
        if f.bad then (.error (.memunc a (foundDetail f)), w)
        else
          match readVirt w p n fuel (va + k) (len - k) with
          | (.error x, w) => (.error x, w)
          | (.ok r, w) => (.ok (readBytes w (pteKey l.e) a k ++ r), w)

def readImage (w : Work) (p n va len : Nat) : Except XErr (List Byte) × Work := readVirt w p n (len / 65536 + 2) va len

/-! ## Launch records (R330 to R332) -/

/-- Dword at byte offset `o` of a record. -/
def dw (l : List Nat) (o : Nat) : Nat := (l[o / 8]?).getD 0

/-- The dwords of a record. -/
def dwords : List Byte → List Nat
  | a :: b :: c :: d :: e :: f :: g :: h :: r => leNat [a, b, c, d, e, f, g, h] :: dwords r
  | _ => []

def maskOf (hi lo : Nat) : Nat := 2 ^ (hi + 1) - 2 ^ lo

/-- The bits of the dword at offset `o` that a record may set. -/
def recMask (ndep nranges o : Nat) : Nat :=
  if o = 0 then maskOf 17 0 + maskOf 27 24 + maskOf 38 32 + maskOf 50 48
  else if o = 8 then maskOf 40 32 + maskOf 21 16 + maskOf 11 8 + maskOf 4 0
  else if o < 0x80 then maskOf 63 0
  else if o < 0xA0 then (if (o - 0x80) / 8 < ndep then maskOf 63 0 else 0)
  else if o = 0xA0 then maskOf 63 0
  else if o < 0x100 then 0
  else if o < 0x180 then maskOf 63 62 + maskOf 60 56 + maskOf 51 3
  else if o < 0x580 then
    (match (o - 0x180) % 32 / 8 with
      | 0 => maskOf 2 0 + maskOf 16 8 + maskOf 23 20 + maskOf 48 32
      | 1 => maskOf 51 0
      | 2 => maskOf 63 0
      | _ => 0)
  else if (o - 0x580) / 16 < nranges then (if o % 16 = 0 then maskOf 51 16 else maskOf 34 0)
  else 0

/-- The record of R330 from its dwords. -/
def parseRec (l : List Nat) : LRec :=
  let c := dw l 0
  let sh := dw l 8
  let nr := bits c 38 32
  { tolerant := c.testBit 16, hasdl := c.testBit 17, prio := bits c 27 24, stages := bits sh 40 32, groves := bits sh 21 16
    glades := bits sh 11 8, tasks := bits sh 4 0, shape := w64 sh, deadline := dw l 0x10, live := dw l 0x18, keyva := dw l 0x20
    bufva := dw l 0x28, scrva := dw l 0x30, scrlen := dw l 0x38
    planes := (List.range 4).map (fun p => (dw l (0x40 + 16 * p), dw l (0x48 + 16 * p)))
    deps := (List.range (bits c 50 48)).map (fun i => dw l (0x80 + 8 * i)), cwva := dw l 0xA0
    entries := (List.range 16).map (fun t => w64 (dw l (0x100 + 8 * t)))
    binds := (List.range 32).map (fun v =>
      (w64 (dw l (0x180 + 32 * v)), w64 (dw l (0x188 + 32 * v)), w64 (dw l (0x190 + 32 * v))))
    ranges := (List.range nr).map (fun j =>
      (bits (dw l (0x580 + 16 * j)) 51 16 * 65536, bits (dw l (0x588 + 16 * j)) 31 0, bits (dw l (0x588 + 16 * j)) 34 32)) }

def entStart (e : Word) : Bool := e.getLsbD 63
def entSleep (e : Word) : Bool := e.getLsbD 62
def entVc (e : Word) : Nat := bits e.toNat 60 56
def entPc (e : Word) : Word := w64 (bits e.toNat 51 3 * 8)

/-- The ENTRY of a task slot. -/
def launchEntry (r : LRec) (t : Nat) : Word := (r.entries[t]?).getD 0
def bindRec (r : LRec) (v : Nat) : Nat × Nat × Nat :=
  match r.binds[v]? with
  | some (a, b, d) => (a.toNat, b.toNat, d.toNat)
  | none => (0, 0, 0)

def imageOk (va align n : Nat) : Bool := decide (va % align = 0) && decide (va + n ≤ 2 ^ 52)

/-- Ranges that do not overlap. -/
def rangesApart : List (Nat × Nat × Nat) → Bool
  | [] => true
  | (b, n, _) :: r => r.all (fun q => decide (b + n * 65536 ≤ q.1) || decide (q.1 + q.2.1 * 65536 ≤ b)) && rangesApart r

/-- BIND v of a record, with R331's own limits on the spill region. -/
def bindOk (r : LRec) (v : Nat) : Bool :=
  let (a, b, d) := bindRec r v
  !a.testBit 0 ||
    (decide (bits a 2 1 ≠ 3) && (decide (bits a 2 1 ≠ 2) || decide (bits a 15 8 < gladesOf r)) &&
      (a.testBit 16 || (decide (bits a 23 20 < r.tasks) && entStart (launchEntry r (bits a 23 20)))) &&
      (if b = 0 then decide (d = 0) else decide (b % 8 = 0) && decide (d % 8 = 0) && decide (4096 ≤ d) && decide (b + d ≤ 2 ^ 52)))

def entryOk (r : LRec) (t : Nat) : Bool :=
  let e := launchEntry r t
  if entStart e then
    decide (t < r.tasks) &&
      (!entSleep e ||
        (let a := (bindRec r (entVc e)).1
         a.testBit 0 && !a.testBit 16 && decide (bits a 23 20 = t)))
  else decide (e = 0)

/-- Whether a record is well formed (R332), with `next` the partition's next launch number. (DEDUCED, log entry 39.) -/
def recOk (l : List Nat) (next : Nat) : Bool :=
  let r := parseRec l
  let c := dw l 0
  (List.range 304).all (fun i => decide (dw l (8 * i) &&& recMask (bits c 50 48) (bits c 38 32) (8 * i) = dw l (8 * i))) &&
  decide (bits c 15 0 = 1) && decide (r.prio ≤ 11) &&
  decide (1 ≤ r.stages) && decide (r.stages ≤ 256) && decide (1 ≤ r.groves) && decide (r.groves ≤ 32) &&
  decide (1 ≤ r.glades) && decide (r.glades ≤ 8) && decide (1 ≤ r.tasks) && decide (r.tasks ≤ 16) && decide (gladesOf r ≤ 256) &&
  decide (1 ≤ bits c 38 32) && decide (bits c 38 32 ≤ 64) && decide (bits c 50 48 ≤ 4) &&
  rangesApart r.ranges &&
  r.ranges.all (fun q => decide (q.2.2 ≠ 0) && decide (1 ≤ q.2.1) && decide (q.1 + q.2.1 * 65536 ≤ 2 ^ 52)) &&
  (List.range 32).all (bindOk r) && (List.range 16).all (entryOk r) &&
  r.deps.all (fun d => decide (1 ≤ d) && decide (d < next)) &&
  decide (r.live ≤ Config.scrSize) && decide (r.live % 4096 = 0) && decide (r.scrlen ≤ Config.scrSize) &&
  imageOk r.scrva 1 r.scrlen && imageOk r.keyva 64 (if r.keyva = 0 then 0 else 65536) &&
  imageOk r.bufva 16 (if r.bufva = 0 then 0 else 1024) && imageOk r.cwva 8 (if r.cwva = 0 then 0 else 8) &&
  r.planes.all (fun q => decide (q.2 ≤ 65536) && imageOk q.1 4 (4 * q.2))

/-! ## Order and inheritance (R336, R337) -/

/-- Whether launch `n` of a partition has completed: numbers below NEXT that are not held. -/
def launchDone (P : Part) (n : Nat) : Bool := decide (0 < n) && decide (n < P.sched.next) && (Tab.find P.launches n).isNone

/-- The launch a sleeping task waits for in LWAIT. -/
def lwaitOn (T : Task) : Option Nat :=
  match T.run with
  | .sleeping (.lwait n _) => some n
  | _ => none

/-- Tasks of launch `m`, loaded or saved. -/
def tasksOf (c : Ctl) (p m : Nat) : List Task :=
  ((c.glades.map (fun q => (q.2.ctx.tasks.map (·.2)).filter (fun T =>
    decide (T.sys.priv = 0) && decide (T.sys.part = p) && decide (T.sys.launch = m) && decide (T.run ≠ .free)))).flatten) ++
  (match launchOf c p m with
    | some l => (l.saved.map (fun s => s.2.ctx.tasks.map (·.2))).flatten
    | none => [])

/-- One round of inheritance over the launches of a partition. -/
def inheritOnce (c : Ctl) (p : Nat) (ls : Tab Launch) : Tab Launch :=
  ls.map (fun q =>
    (q.1, { q.2 with eprio := ls.foldl (fun m r =>
      if (r.2.st = .waitdep ∧ r.2.rec_.deps.contains q.1 = true) ∨ (tasksOf c p r.1).any (fun T => lwaitOn T == some q.1) = true
      then Nat.max m r.2.eprio else m) (Nat.max q.2.rec_.prio q.2.eprio) }))

def iterate {α : Type} (f : α → α) : Nat → α → α
  | 0, a => a
  | n + 1, a => iterate f n (f a)

/-- EPRIO recomputed (R336). -/
def setPriorities (w : Work) (p : Nat) : Work :=
  updPart w p (fun P =>
    let l0 : Tab Launch := P.launches.map (fun q => (q.1, { q.2 with eprio := q.2.rec_.prio }))
    { P with launches := iterate (inheritOnce w.ctl p) l0.length l0 })

/-- R337: `a` comes before `b`. -/
def before (a b : Nat × Launch) : Bool :=
  let dl := fun (l : Launch) => if l.rec_.hasdl then l.rec_.deadline else 2 ^ 64
  decide (b.2.eprio < a.2.eprio) ||
    (decide (a.2.eprio = b.2.eprio) && (decide (dl a.2 < dl b.2) || (decide (dl a.2 = dl b.2) && decide (a.1 < b.1))))

def insertBy {α : Type} (f : α → α → Bool) (x : α) : List α → List α
  | [] => [x]
  | y :: r => if f x y then x :: y :: r else y :: insertBy f x r
def sortBy {α : Type} (f : α → α → Bool) (l : List α) : List α := l.foldr (insertBy f) []

/-! ## Placement (R337, R341, R388, R400) -/

/-- Whether a glade came ready (R447). -/
def gladeReady (c : Ctl) (g : Nat) : Bool := ((c.boot.glades.toList[g / 64]?).getD 0).getLsbD (g % 64)

/-- The free glades of a partition, with those of `extra` counted as free. -/
def freeGlades (c : Ctl) (p : Nat) (extra : List Nat) : List Nat :=
  let T := (partOf c p).ten
  (List.range 256).filter (fun g =>
    T.groves.toNat.testBit (groveOf g) && T.pgroves.toNat.testBit (groveOf g) && gladeReady c g &&
      ((gladeOf c g).owner.isNone || extra.contains g))

/-- Logical groves one after the other, each into the lowest physical grove with room. -/
def placeGroves (l : Nat) : Nat → List Nat → Option (List Nat)
  | 0, _ => some []
  | k + 1, free =>
    match (List.range 32).find? (fun v => decide (l ≤ (free.filter (fun g => groveOf g == v)).length)) with
    | none => none
    | some v =>
      let got := (free.filter (fun g => groveOf g == v)).take l
      (placeGroves l k (free.filter (fun g => !got.contains g))).map (got ++ ·)

/-- The physical glades of a launch in LGLADE order, if it fits into glades `free`. -/
def placeIn (r : LRec) (free : List Nat) : Option (List Nat) := placeGroves r.glades (r.stages * r.groves) free

def placement (c : Ctl) (p : Nat) (r : LRec) (extra : List Nat) : Option (List Nat) := placeIn r (freeGlades c p extra)

/-- Save slots that a launch which is being stopped has still to take. -/
def slotsDue (l : Launch) : Nat := if l.st = .running ∧ l.stopping = true then l.map.length - l.saved.length else 0

/-- Save slots that are free, and not for a launch that is being stopped (R388). -/
def freeSlots (P : Part) : Nat := P.trap.ctxlen - P.slots.length - (P.launches.map (fun q => slotsDue q.2)).sum

/-! ## Choosing (R338) -/

/-- Launches that wait for glades, in order. R337 compares RUNNING, PREEMPTED and READY launches: a LEASING one is left out until
its walk is done, and has its place by R337 from then on. (DESIGN CHOICE, log entry 96.) -/
def waiters (P : Part) : List (Nat × Launch) :=
  sortBy before (P.launches.filter (fun q => q.2.fini.isNone && (match q.2.st with
    | .ready | .preempted => true
    | .leasing => q.2.walked
    | _ => false)))

/-- Glades that come free without more: of launches that end, or are being stopped and not rotated. -/
def comingFree (P : Part) : List Nat :=
  ((P.launches.filter (fun q => decide (q.2.st = .ending) || (decide (q.2.st = .running) && q.2.stopping && !q.2.rotate))).map
    (fun q => q.2.map.map (·.2))).flatten

/-- Victims in the order of R338 until the launch fits, besides the glades `more` that come free without them. -/
def victims (c : Ctl) (p : Nat) (r : LRec) (more : List Nat) :
    List (Nat × Launch) → Nat → List (Nat × List Nat) → Option (List (Nat × List Nat))
  | [], _, _ => none
  | (n, l) :: rest, slots, got =>
    let k := if l.stopping then 0 else l.map.length
    if slots < k then victims c p r more rest slots got
    else
      let got := got ++ [(n, l.map.map (·.2))]
      if (placement c p r (more ++ (got.map (·.2)).flatten)).isSome then some got else victims c p r more rest (slots - k) got

/-- Only as many of them as the launch needs: the higher are left out first. (DESIGN CHOICE, log entry 96.) -/
def needed (c : Ctl) (p : Nat) (r : LRec) (more : List Nat) (got : List (Nat × List Nat)) : List Nat :=
  (got.foldr (fun x (keep : List (Nat × List Nat)) =>
    let rest := keep.filter (· != x)
    if (placement c p r (more ++ (rest.map (·.2)).flatten)).isSome then rest else keep) got).map (·.1)

/-- The launches that are stopped for the first waiter: lower ones; else those let in before it; else those of its own EPRIO too
whose quantum is up; else of all these (R338). A launch that is being rotated can be one: it then stays out. (DESIGN CHOICE, log
entry 96.) -/
def preemptFor (c : Ctl) (p : Nat) : Option (List Nat) :=
  let P := partOf c p
  match waiters P with
  | [] => none
  | h :: _ =>
    let more := comingFree P
    if (placement c p h.2.rec_ more).isSome then none
    else
      let lower := fun (l : Launch) => decide (l.eprio < h.2.eprio)
      let filled := fun (l : Launch) => decide (l.backfill = some h.1) && decide (l.eprio ≤ h.2.eprio)
      let spent := fun (l : Launch) => lower l || (decide (l.eprio = h.2.eprio) && l.quantumUp)
      let from_ := fun (f : Launch → Bool) =>
        let pool := P.launches.filter (fun q => decide (q.2.st = .running) && (!q.2.stopping || q.2.rotate) && f q.2)
        (victims c p h.2.rec_ more (sortBy (fun a b => before b a) pool) (freeSlots P) []).map (needed c p h.2.rec_ more)
      (((from_ lower).or (from_ filled)).or (from_ spent)).or (from_ (fun l => spent l || filled l))

/-- The launch that may be dispatched now, with the launch it is let in before: the first waiter where it fits, and where nothing
is to be stopped for it a later one, which takes none of the glades that the first will fit into. -/
def pick (c : Ctl) (p : Nat) : Option (Nat × Option Nat) :=
  let P := partOf c p
  match waiters P with
  | [] => none
  | h :: rest =>
    if (placement c p h.2.rec_ []).isSome then some (h.1, none)
    else if (preemptFor c p).isSome then none
    else
      let soon := freeGlades c p (comingFree P)
      let leaves := fun (gs : List Nat) =>
        (placeIn h.2.rec_ soon).isNone || (placeIn h.2.rec_ (soon.filter (fun g => !gs.contains g))).isSome
      (rest.find? (fun q => ((placement c p q.2.rec_ []).map leaves).getD false)).map (fun q => (q.1, some h.1))

/-- The evaluation of a partition (R338): a READY launch starts LEASING, or launches are stopped. -/
def evaluate (w : Work) (p : Nat) : Work :=
  match pick w.ctl p with
  | some (n, b) =>
    updLaunch w p n (fun l => if l.st = .ready then { l with st := .leasing, walk := (0, 0), leaves := [], backfill := b } else { l with backfill := b })
  | none =>
    match preemptFor w.ctl p with
    | some ns => ns.foldl (fun w n => updLaunch w p n (fun l => { l with stopping := true, rotate := false })) w
    | none => w

/-- SCHEDULER_EVALUATE (R338). -/
def execSchedulerEvaluate (part : Nat) (s : State) : Out3 := commit s (fun w => evaluate w part)

/-- A quantum runs out (R338). -/
def quantumEnd (w : Work) (p n : Nat) : Work :=
  match launchOf w.ctl p n with
  | none => w
  | some l =>
    if l.st = .running ∧ l.quantumUp = false ∧ (partOf w.ctl p).sched.quantum ≤ sinceTick w.ctl l.since then
      evaluate (updLaunch w p n (fun l => { l with quantumUp := true })) p
    else w

/-- QUANTUM_EXPIRE (R338). -/
def execQuantumExpire (part n : Nat) (s : State) : Out3 := commit s (fun w => quantumEnd w part n)

/-! ## The queues that a launch leaves (R347, R351, R374, R408) -/

/-- Keep only some of the requests on their way. -/
def keepReqs (c : Ctl) (keep : Req → Bool) : Ctl :=
  { c with
    net := { c.net with
      hops := (c.net.hops.map (fun q => { q with reqs := q.reqs.filter keep })).filter (fun q => !q.reqs.isEmpty)
      bridges := c.net.bridges.map (fun b => (b.1, { fifo := b.2.fifo.filter keep, replay := b.2.replay.filter keep, held := b.2.held.filter keep })) }
    glades := c.glades.map (fun q => (q.1, { q.2 with
      banks := (q.2.banks.map (fun b => (b.1, b.2.filter keep))).filter (fun b => !b.2.isEmpty)
      rmq := q.2.rmq.filter keep, inbox := q.2.inbox.filter keep })) }

/-- Every request of the package on its way. -/
def allReqs (c : Ctl) : List Req :=
  (c.net.hops.map (·.reqs)).flatten ++ (c.net.bridges.map (fun b => b.2.fifo ++ b.2.replay ++ b.2.held)).flatten ++
  (c.glades.map (fun q => (q.2.banks.map (·.2)).flatten ++ q.2.rmq ++ q.2.inbox)).flatten

def ofLaunch (p n : Nat) (r : Req) : Bool := !r.svc && decide (r.part = p) && decide (r.launch = n)

/-! ## Completion (R349 to R352, R464) -/

/-- The word of R351. -/
def completionWord (l : Launch) (late : Bool) (status cause : Nat) : Nat :=
  2 ^ 63 + b2n late * 2 ^ 62 + l.faults % 2 ^ 16 * 2 ^ 32 + cause % 256 * 256 + status

/-- What LWAIT writes for launch `n` of a partition, if it need not sleep (R226, R352). -/
def lwaitWord (P : Part) (n : Nat) : Option Word :=
  if n = 0 ∨ P.sched.next ≤ n then some allOnes
  else if (Tab.find P.launches n).isSome then none
  else if n + 65536 < P.sched.next then some 0x80000000000000FF
  else some (Tab.getD P.words n 0)

/-- The LWAIT sleepers of a partition test their launch. -/
def wakeLwait (w : Work) (p : Nat) : Work :=
  let P := partOf w.ctl p
  updCtl w (fun c => mapTasks c (fun _ _ T =>
    match T.run with
    | .sleeping (.lwait n d) =>
      if T.sys.part = p then
        (match lwaitWord P n with
          | some v => { T with run := .runnable, regs := T.regs.putX (BitVec.ofNat 5 d) v }
          | none => T)
      else T
    | _ => T))

/-- Dependences that have become met (R335). -/
def meetDeps (w : Work) (p : Nat) : Work :=
  updPart w p (fun P => { P with launches := P.launches.map (fun q =>
    (q.1, if q.2.st = .waitdep ∧ q.2.rec_.deps.all (launchDone P) = true then { q.2 with st := .ready } else q.2)) })

/-- The completion word at CWVA, where its page admits it (R351); none where the write has to wait (R436). -/
def writeCwva (w : Work) (p n va v : Nat) : Option Work :=
  if va = 0 then some w else
  match schedLeaf w p n va with
  | (.error .wait, _) => none
  | (.error _, w) => some w
  | (.ok l, w) =>
    let pa := leafPa l va
    if !pteW l.e || !inKeys w.ctl p (pteKey l.e) || outOfRange w.ctl (pteTier l.e) pa then some w
    else
      match devMeets w.ctl (flatOf (pteTier l.e) pa) with
      | .wait => none
      | .gone => some (logGone w pa n)
      | .clear => some (writeBytes w (pteKey l.e) n (flatOf (pteTier l.e) pa) (natLe 8 v))

/-- A glade that its launch leaves for a time. -/
def leaveGlade (w : Work) (g : Nat) : Work :=
  updGlade w g (fun G => { G with ctx := GladeCtx.empty, owner := none, halted := false, returns := [], pvc := [] })

/-- A glade that its launch leaves for good: the registers of its retired tasks, SENT and RECV stand as they were until the next
launch is placed there. (DESIGN CHOICE, log entry 98.) -/
def freeGlade (w : Work) (g : Nat) : Work :=
  updGlade w g (fun G => { G with
    ctx := { GladeCtx.empty with
      tasks := G.ctx.tasks.filter (fun t => decide (t.2.run = .retired))
      net := { NetCtx.empty with sent := G.ctx.net.sent, recv := G.ctx.net.recv } }
    owner := none, halted := false, returns := [], pvc := [] })

/-- The slots of saved images come free. -/
def freeSaved (w : Work) (p : Nat) (l : Launch) : Work :=
  updPart w p (fun P => { P with slots := P.slots.filter (fun k => !(l.saved.map (fun s => s.2.slot)).contains k) })

/-- COMPLETE (R335, R351): the word is written, sleepers wake, dependences are met, leases and glades come free. Where the write
at CWVA has to wait, so does the completion. -/
def complete (w : Work) (p n status cause : Nat) : Work :=
  match launchOf w.ctl p n with
  | none => w
  | some l =>
    let late := l.rec_.hasdl && decide (l.rec_.deadline < w.ctl.tick)
    let v := completionWord l late status cause
    match writeCwva w p n l.rec_.cwva v with
    | none => updLaunch w p n (fun l => { l with fini := some (status, cause) })
    | some w =>
      let w := updPart w p (fun P => { P with words := Tab.set P.words n (w64 v), launches := Tab.del P.launches n })
      let w := meetDeps (wakeLwait w p) p
      let gs := (l.map.map (·.2)).filter (fun g => decide ((gladeOf w.ctl g).owner.map (fun o => (o.part, o.launch)) = some (p, n)))
      let w := gs.foldl freeGlade w
      let w := updCtl w (fun c => { c with glades := c.glades.map (fun q =>
        (q.1, { q.2 with mons := q.2.mons.map (fun m => (m.1, m.2.filter (fun x => !gs.contains x.g))) })) })
      let w := updCtl w (fun c => keepReqs c (fun r => !ofLaunch p n r))
      let w := updNetC w (fun x => { x with fly := x.fly.filter (fun f => !(f.part == p && f.launch == n && (l.map.map (·.2)).contains f.dst)) })
      setPriorities (freeSaved w p l) p

/-- Whether a glade of a launch is idle (R349): `targets` are the launch's glades, `cr` the credits of each. -/
def gladeIdle (c : Ctl) (targets : List Nat) (cr g : Nat) : Bool :=
  let G := gladeOf c g
  G.ctx.tasks.all (fun t => (decide (t.2.run = .retired) && !leaving c g t.1) || decide (t.2.run = .free)) &&
  allQueues.all (fun q => (cmdsOf c g q).isEmpty) && G.ctx.eng.fences.isEmpty &&
  (List.range 4).all (fun p =>
    let P := planeOf c g p
    decide (P.st = .empty) || P.done || planeIdle c g p) &&
  G.rmq.isEmpty && G.inbox.isEmpty && targets.all (fun t => decide (creditsOf c g t = cr))

/-- Credits of each target at launch start (R312). -/
def creditStart (n : Nat) : Nat := Nat.min 64 (Nat.max 2 (512 / n))

/-- A record of a task of launch `n` still waits for its ring: the task keeps its slot (R383). -/
def recordsWait (c : Ctl) (p n : Nat) : Bool :=
  c.net.events.any (fun e => (e.own.map (·.1)) == some p && decide (e.d0.toNat / 2 ^ 32 = n))

/-- Whether every store of a launch's tasks, the retired ones too, has been performed, as the release at package scope of R351
needs. -/
def storesDone (c : Ctl) (gs : List Nat) : Bool := gs.all (fun g => (gladeOf c g).ctx.tasks.all (fun t => t.2.fl.outs.isEmpty))

/-- SENT and RECV of a launch's glades. -/
def vcTotals (c : Ctl) (gs : List Nat) : Nat × Nat :=
  ((gs.map (fun g => (netOf c g).sent)).sum, (gs.map (fun g => (netOf c g).recv)).sum)

/-- Whether a wave of a launch would find every glade idle, no record of it waiting for its ring, and equal totals, and, where it
is the second such wave, the stores performed. -/
def waveReady (c : Ctl) (p n : Nat) (l : Launch) : Bool :=
  let gs := l.map.map (·.2)
  let s := vcTotals c gs
  gs.all (gladeIdle c gs (creditStart gs.length)) && !recordsWait c p n && decide (s.1 = s.2) &&
    (decide (l.wave ≠ some s) || storesDone c gs)

/-- One wave (R350), and the completion that a second equal one brings, once every store is performed (R351). A record that still
waits for its ring holds the launch (R383). -/
def wave (w : Work) (p n : Nat) : Work :=
  match launchOf w.ctl p n with
  | none => w
  | some l =>
    let gs := l.map.map (·.2)
    let set := fun (x : Option (Nat × Nat)) => updLaunch w p n (fun l => { l with wave := x })
    if l.st ≠ .running ∨ l.map.length ≠ gladesOf l.rec_ then w
    else if !(gs.all (gladeIdle w.ctl gs (creditStart gs.length))) || recordsWait w.ctl p n then set none
    else
      let s := vcTotals w.ctl gs
      if s.1 ≠ s.2 then set none
      else if l.wave = some s then (if storesDone w.ctl gs then complete w p n 0 l.cause else w)
      else set (some s)

/-- COMPLETION_WAVE (R350). -/
def execCompletionWave (part n : Nat) (s : State) : Out3 := commit s (fun w => wave w part n)

/-! ## Leases before dispatch (R366 to R368) -/

/-- The spans a launch leases: base, pages, PERM, whether a spill region, range index; spill regions after the ranges. -/
structure LSpan where
  va    : Nat
  pages : Nat
  perm  : Nat
  hw    : Bool
  idx   : Nat
deriving DecidableEq, Repr

def spansOf (r : LRec) : List LSpan :=
  ((List.range r.ranges.length).zip r.ranges).map (fun q => { va := q.2.1, pages := q.2.2.1, perm := q.2.2.2, hw := false, idx := q.1 }) ++
  (List.range 32).filterMap (fun v =>
    let (a, b, d) := bindRec r v
    if a.testBit 0 && decide (b ≠ 0) then
      some { va := b / 65536 * 65536, pages := (b + d + 65535) / 65536 - b / 65536, perm := 3, hw := true, idx := 63 }
    else none)

/-- The entry a page of a span has in R365's layout, from the leaf that covers it. -/
def pieceOf (l : Leaf) (va : Nat) : Word :=
  w64 (pteKey l.e * 2 ^ 52 + leafPa l va / 65536 % 2 ^ 36 * 65536 + l.e % 256 / 4 * 4 + 1)

/-- The reason of R366 that a page with a valid leaf fails with. -/
def leafReason (c : Ctl) (p perm va : Nat) (l : Leaf) : Option Nat :=
  if (perm.testBit 1 && !pteW l.e) || (perm.testBit 2 && !pteX l.e) then some 2
  else if (decide (pteTier l.e = 0) && !inKeys c p (pteKey l.e)) || (decide (pteTier l.e = 1) && decide (pteKey l.e ≠ 0)) then some 3
  else if (decide (pteTier l.e = 1) && !c.links.up.contains 18) || outOfRange c (pteTier l.e) (leafPa l va) then some 4
  else none

/-- Runs of pages that are contiguous and alike: first page and length. -/
def runsOf (tier0 : List Nat) : List (Nat × Nat) :=
  let join := fun (a b : Nat) => decide (pteAddr a + 65536 = pteAddr b) && decide (pteKey a = pteKey b) &&
    decide (bits a 3 2 = bits b 3 2) && decide (pteTier a = pteTier b)
  let rec go : List Nat → Nat → Option (Nat × Nat × Nat) → List (Nat × Nat)
    | [], _, none => []
    | [], _, some (s, n, _) => [(s, n)]
    | e :: r, i, none => go r (i + 1) (some (i, 1, e))
    | e :: r, i, some (s, n, last) => if join last e then go r (i + 1) (some (s, n + 1, e)) else (s, n) :: go r (i + 1) (some (i, 1, e))
  go tier0 0 none

/-- A direct extent over a run. -/
def directExt (sp : LSpan) (ls : List Nat) (run : Nat × Nat) : Extent :=
  let e := (ls[run.1]?).getD 0
  { va := sp.va + run.1 * 65536, pages := run.2, pa := pteAddr e, indexed := false, revoked := false, hw := sp.hw
    perm := sp.perm, keyid := pteKey e, tier := pteTier e }

/-- Page vectors in use in a partition: address and bytes, rising. -/
def usedVectors (P : Part) (more : List Extent) : List (Nat × Nat) :=
  sortBy (fun a b => decide (a.1 < b.1))
    (((P.launches.map (fun q => q.2.exts)).flatten ++ more).filterMap (fun e => if e.indexed then some (e.pa, 8 * e.pages) else none))

/-- The lowest room of `n` bytes in the page-vector pool. (DESIGN CHOICE, log entry 40.) -/
def vectorRoom (P : Part) (more : List Extent) (n : Nat) : Option Nat :=
  let base := P.sched.pvbase.toNat
  let top := base + P.sched.pvlen.toNat * 65536
  let a := (usedVectors P more).foldl (fun a u => if a + n ≤ u.1 then a else Nat.max a (u.1 + u.2)) base
  if a + n ≤ top then some a else none

/-- Write a page vector (R368), as a structure of the device under key ID 0; an entry at a vacated address is discarded (R434). -/
def writeVector (w : Work) (n a : Nat) (ls : List Nat) : Work :=
  ((List.range ls.length).zip ls).foldl (fun w q =>
    if devMeets w.ctl (a + 8 * q.1) = .gone then logGone w (a + 8 * q.1) n
    else writeBytes w 0 n (a + 8 * q.1) (natLe 8 q.2)) w

/-- Indexed extents over a span, 65,536 pages each; `fuel` bounds them. An error is the CAUSE where the pool is exhausted, none
where a vector's place has to wait (R436).
(DESIGN CHOICE, log entry 40.) -/
def indexedExts (w : Work) (p n : Nat) (sp : LSpan) : Nat → Nat → List Nat → List Extent → Except (Option Nat) (List Extent) × Work
  | 0, _, _, acc => (.ok acc, w)
  | fuel + 1, i, ls, acc =>
    if ls = [] then (.ok acc, w) else
    let k := Nat.min 65536 ls.length
    match vectorRoom (partOf w.ctl p) acc (8 * k) with
    | none => (.error (some 0x21), w)
    | some a =>
      if spanMeets w.ctl a (8 * k) = .wait then (.error none, w) else
      let w := writeVector w n a (ls.take k)
      indexedExts w p n sp fuel (i + k) (ls.drop k)
        (acc ++ [{ va := sp.va + i * 65536, pages := k, pa := a, indexed := true, revoked := false, hw := sp.hw, perm := sp.perm, keyid := 0, tier := 0 }])

/-- The extent table of a launch (R368), or the CAUSE of R464; none of either where it has to wait. -/
def buildExts (w : Work) (p n : Nat) : List (LSpan × List Nat) → List Extent → Except (Option Nat) (List Extent) × Work
  | [], acc => (.ok acc, w)
  | (sp, ls) :: rest, acc =>
    let runs := runsOf ls
    if runs.length + acc.length + rest.length ≤ 256 then
      buildExts w p n rest (acc ++ runs.map (directExt sp ls))
    else if 256 < acc.length + ceilDiv ls.length 65536 then (.error (some 0x20), w)
    else
      match indexedExts w p n sp (ls.length / 65536 + 1) 0 ls acc with
      | (.error x, w) => (.error x, w)
      | (.ok acc, w) => buildExts w p n rest acc

/-- A lease fault (R367): the registers, and its record. -/
def leaseFault (w : Work) (p n range va reason : Nat) : Work :=
  let w := updPart w p (fun P => { P with sched := { P.sched with
    lfault := w64 (2 ^ 63 + (reason - 1) % 4 * 2 ^ 48 + range % 64 * 2 ^ 40 + n % 2 ^ 32), lfva := w64 va } })
  event w (some p) (evHead n 0xFF 0 0 3) 0 (w64 va) (w64 reason)

def faultPending (P : Part) : Bool := P.sched.lfault.getLsbD 63

/-- The kind 3 record of a launch still waits for its ring: its walk stays where it is (R383). -/
def faultWaits (c : Ctl) (p n : Nat) : Bool :=
  c.net.events.any (fun e => e.ring == some p && decide (e.d0.toNat % 256 = 3) && decide (e.d0.toNat / 2 ^ 32 = n))

/-- One page of a launch's lease walk; after the last, its extents (R366 to R368). -/
def leaseStep (w : Work) (p n : Nat) : Work :=
  match launchOf w.ctl p n with
  | none => w
  | some l =>
    if l.st ≠ .leasing ∨ l.walked = true ∨ l.fini.isSome = true ∨ faultPending (partOf w.ctl p) = true then w
    else
      let spans := spansOf l.rec_
      match spans[l.walk.1]? with
      | none =>
        (match buildExts w p n (spans.zip (l.leaves.map (fun x => x.reverse.map (·.toNat)))) [] with
          | (.ok es, w) => updLaunch w p n (fun l => { l with exts := es, walked := true, leaves := [] })
          | (.error none, w) => w
          | (.error (some c), w) => complete w p n 4 c)
      | some sp =>
        let va := sp.va + l.walk.2 * 65536
        match schedLeaf w p n va with
        | (.error .wait, w) => w
        | (.error _, w) => leaseFault w p n sp.idx va 1
        | (.ok lf, w) =>
          match leafReason w.ctl p sp.perm va lf with
          | some r => leaseFault w p n sp.idx va r
          | none =>
            match walkerSet w schedCache p (ptRoot w.ctl p) (some p) va 4 2 with
            | (.wait, w) => w
            | (_, w) =>
              updLaunch w p n (fun l =>
                let have_ := (l.leaves[l.walk.1]?).getD []
                { l with leaves := l.leaves.take l.walk.1 ++ [pieceOf lf va :: have_]
                         walk := if l.walk.2 + 1 < sp.pages then (l.walk.1, l.walk.2 + 1) else (l.walk.1 + 1, 0) })

/-- LEASE_WALK (R366). -/
def execLeaseWalk (part n : Nat) (s : State) : Out3 := commit s (fun w => leaseStep w part n)

/-- A write of LRESUME (R367): the walk goes on at the page, its path read anew. (DEDUCED, log entry 37: not while the fault's
record still waits.) -/
def lresume (w : Work) (p : Nat) (v : Word) : Work :=
  let P := partOf w.ctl p
  if faultPending P && !faultWaits w.ctl p (bits P.sched.lfault.toNat 31 0) then
    let n := bits P.sched.lfault.toNat 31 0
    let w := updPart w p (fun P => { P with sched := { P.sched with lfault := P.sched.lfault &&& ~~~(1#64 <<< 63) } })
    if v.getLsbD 0 then
      (match launchOf w.ctl p n with
        | some l => if l.st = .leasing then complete w p n 4 5 else w
        | none => w)
    else w
  else w

/-- LRESUME_WRITE (R367). -/
def execLresumeWrite (part : Nat) (v : BitVec 64) (s : State) : Out3 := commit s (fun w => lresume w part v)

/-! ## Loading and starting (R309, R312, R315, R319, R343, R344) -/

/-- Forget every mark of a stretch that is set whole. -/
def clearMarks (w : Work) (lo n : Nat) : Work :=
  let out := fun (u : Nat) => !(decide (lo ≤ u) && decide (u < lo + n))
  updCtl w (fun c => { c with marks := { c.marks with
    poison := c.marks.poison.filter out, latent := c.marks.latent.filter out, soft := c.marks.soft.filter out } })

def zeroStore (w : Work) (lo n : Nat) : Work := clearMarks (w.clear lo n) lo n

/-- CRD (R99, R334). -/
def crdOf (r : LRec) (lg t : Nat) : Nat :=
  let k := r.groves * r.glades
  lg * 2 ^ 32 + lg / k * 2 ^ 24 + lg / r.glades % r.groves * 2 ^ 16 + lg % r.glades * 2 ^ 8 + t

/-- A started task (R344). -/
def startTask (r : LRec) (p n lg t : Nat) : Task :=
  let e := launchEntry r t
  let crd := w64 (crdOf r lg t)
  { Task.none with
    pc := entPc e
    regs := { Regs.zero with rng0 := 0x9E3779B97F4A7C15 ^^^ crd, rng1 := 0xBF58476D1CE4E5B9 }
    sys := { Sys.zero with crd := crd, shape := r.shape, part := p, launch := n }
    run := if entSleep e then .sleeping (.waitvc (1#32 <<< entVc e) none) else .runnable }

/-- A buffer-table entry as an image gives it, unchecked; what its SPACE and its ring then come to, `slotPlace` says (R153).
(DESIGN CHOICE, log entry 77.) -/
def bufOfImage (v : Nat) : Buf :=
  { base := bits v 21 0, space := bits v 23 22, slot := bits v 40 24 * 64, count := bits v 53 41
    head := bits v 75 64, tail := bits v 87 76, filled := bits v 100 88 }

/-- Chunks of `k` bytes as numbers. -/
def chunks (k : Nat) : Nat → List Byte → List Nat
  | 0, _ => []
  | n + 1, l => if l = [] then [] else leNat (l.take k) :: chunks k n (l.drop k)

/-- A table of the nonzero ones. -/
def tabOf {α : Type} (f : Nat → α) (l : List Nat) : Tab α :=
  (((List.range l.length).zip l).filter (fun q => decide (q.2 ≠ 0))).map (fun q => (q.1, f q.2))

/-- What a launch's images hold: keyring, buffer table, scratchpad, plane streams (R340). -/
structure Loaded where
  keys   : Tab Key
  bufs   : Tab Buf
  scr    : List Byte
  planes : List (List Nat)
deriving DecidableEq, Repr

/-- The images of a list of addresses and lengths, in order; the first that is unreadable or has to wait ends it. -/
def readImages (w : Work) (p n : Nat) : List (Nat × Nat) → Except XErr (List (List Byte)) × Work
  | [] => (.ok [], w)
  | (va, len) :: r =>
    match readImage w p n va len with
    | (.error x, w) => (.error x, w)
    | (.ok a, w) =>
      match readImages w p n r with
      | (.error x, w) => (.error x, w)
      | (.ok l, w) => (.ok (a :: l), w)

/-- The images of launch `n`, or why they are not had (R340). -/
def loadImages (w : Work) (p n : Nat) (r : LRec) : Except XErr Loaded × Work :=
  match readImages w p n
      ([(r.keyva, if r.keyva = 0 then 0 else 65536), (r.bufva, if r.bufva = 0 then 0 else 1024), (r.scrva, r.scrlen)] ++
        r.planes.map (fun q => (q.1, 4 * q.2))) with
  | (.error x, w) => (.error x, w)
  | (.ok l, w) =>
    (.ok { keys := tabOf (fun v => BitVec.ofNat 512 v) (chunks 64 1024 ((l[0]?).getD []))
           bufs := tabOf bufOfImage (chunks 16 64 ((l[1]?).getD [])), scr := (l[2]?).getD []
           planes := (l.drop 3).map (fun x => chunks 4 65536 x) }, w)

/-- Steps 1 to 3 of R343 on one glade. -/
def prepareGlade (w : Work) (p n : Nat) (r : LRec) (im : Loaded) (gs : List Nat) (lg g : Nat) : Work :=
  let w := putBytes (zeroStore w (scrAt g 0) Config.scrSize) (scrAt g 0) im.scr
  let w := zeroStore (clearMarks w (fltAt g 0) Config.fltSize) (accAt g 0 0 0) (2 ^ 19)
  let tasks : Tab Task := ((List.range 16).filter (fun t => entStart (launchEntry r t))).map (fun t => (t, startTask r p n lg t))
  updGlade w g (fun G => { G with
    owner := some { part := p, launch := n, lglade := lg }
    halted := false, pvc := [], returns := [], ctlBad := [], ctlSoft := []
    ctx := { GladeCtx.empty with
      tasks := tasks
      eng := { EngCtx.empty with keys := im.keys, bufs := im.bufs }
      net := { NetCtx.empty with credits := gs.foldl (fun t d => Tab.set t d (creditStart gs.length)) [] } } })

/-- Step 4 of R343 on one glade: the planes, and the reason of R237 where one fails. -/
def configureGlade (w : Work) (im : Loaded) (g : Nat) : Work × Nat :=
  ((List.range 4).zip im.planes).foldl (fun (a : Work × Nat) q =>
    if q.2 = [] ∨ a.2 ≠ 0 then a
    else
      let (w, r) := applyAll a.1 g q.2
      if r ≠ 0 then (w, r % 256)
      else
        let P := planeOf w.ctl g q.1
        (if P.st = .halted then setPlane w g q.1 { P with st := .eligible } else w, 0)) (w, 0)

def mapOf (gs : List Nat) : Tab Nat := (List.range gs.length).zip gs

/-- A dispatch is a point at which the partition's other RUNNING launches may rotate (R342). (DEDUCED, log entry 28.) -/
def mayRotate (w : Work) (p n : Nat) : Work :=
  updPart w p (fun P => { P with launches := P.launches.map (fun q =>
    (q.1, if q.1 ≠ n ∧ q.2.st = .running then { q.2 with yielded := true } else q.2)) })

/-- Dispatch of a leased launch (R341, R343). -/
def dispatch (w : Work) (p n : Nat) : Work :=
  match launchOf w.ctl p n, pick w.ctl p with
  | some l, some (m, b) =>
    if m ≠ n ∨ l.st ≠ .leasing ∨ l.walked = false then w
    else
      match placement w.ctl p l.rec_ [] with
      | none => w
      | some gs =>
        match loadImages w p n l.rec_ with
        | (.error .wait, w) => w
        | (.error _, w) => complete w p n 4 0x22
        | (.ok im, w) =>
          let w := updLaunch w p n (fun l =>
            { l with map := mapOf gs, since := w.ctl.tick, quantumUp := false, yielded := false, backfill := b, dirty := [] })
          let w := ((List.range gs.length).zip gs).foldl (fun w q => prepareGlade w p n l.rec_ im gs q.1 q.2) w
          let (w, bad) := gs.foldl (fun (a : Work × Nat) g => if a.2 ≠ 0 then a else configureGlade a.1 im g) (w, 0)
          if bad ≠ 0 then complete (gs.foldl freeGlade w) p n 3 bad
          else mayRotate (updLaunch w p n (fun l => { l with st := .running })) p n
  | _, _ => w

/-- LAUNCH_DISPATCH (R337, R343). -/
def execLaunchDispatch (part n : Nat) (s : State) : Out3 := commit s (fun w => dispatch w part n)

/-! ## Ending early (R347, R348) -/

/-- LTERM (R348). -/
def terminate (w : Work) (p n : Nat) : Work :=
  match launchOf w.ctl p n with
  | none => w
  | some l =>
    match l.st with
    | .running => endLaunch w p n 2 l.cause
    | .ending | .complete => w
    | _ =>
      if l.fini.isSome then w else
      let w := if faultPending (partOf w.ctl p) && decide (bits (partOf w.ctl p).sched.lfault.toNat 31 0 = n) then
          updPart w p (fun P => { P with sched := { P.sched with lfault := P.sched.lfault &&& ~~~(1#64 <<< 63) } })
        else w
      complete w p n 2 l.cause

/-- LTERM_WRITE (R348). -/
def execLtermWrite (part : Nat) (v : BitVec 64) (s : State) : Out3 := commit s (fun w => terminate w part (bits v.toNat 31 0))

/-- WALKER_SET_BIT (R371). -/
def execWalkerSetBit (part va : Nat) (dirty : Bool) (s : State) : Out3 :=
  commit s (fun w => setLeafBit w schedCache part va (if dirty then 5 else 4))

/-- A page-vector miss of a glade (R369): the entry enters its cache of 256, if its read meets no error or poison and need not
wait (R424, R434, R436). -/
def vectorMiss (w : Work) (g va : Nat) : Work :=
  match (ownLaunch w.ctl g).bind (fun l => (findExtent l false va).or (findExtent l true va)) with
  | some (_, e) =>
    let a := e.pa + 8 * ((va - e.va) / 65536)
    if !e.indexed || (gladeOf w.ctl g).pvc.any (fun c => c.1 == a) then w
    else
      match pteRead w a with
      | (.error _, w) => w
      | (.ok v, w) => updGlade w g (fun G => { G with pvc := ((a, w64 v) :: G.pvc).take 256 })
  | none => w

/-- PAGE_VECTOR_MISS (R369). -/
def execPageVectorMiss (g va : Nat) (s : State) : Out3 := commit s (fun w => vectorMiss w g va)

/-! ## LAUNCH and LWAIT (R226, R332) -/

/-- A partition's launches not complete, and its glades that hold none (R353). -/
def pendingOf (P : Part) : Nat := P.launches.length

/-- The answer of LAUNCH for a record (R332). -/
def launchAnswer (P : Part) (priv : Nat) (l : List Nat) : Except Nat LRec :=
  let r := parseRec l
  if !recOk l P.sched.next then .error 2
  else if P.sched.quotaGlades < gladesOf r ∨ (priv = 0 ∧ P.sched.quotaLevel < r.prio) then .error 1
  else if P.sched.quotaDepth ≤ pendingOf P then .error 3
  else if 0xFFFFFFFE < P.sched.next then .error 4
  else .ok r

def Launch.fresh (r : LRec) : Launch :=
  { st := .waitdep, rec_ := r, eprio := r.prio, exts := [], walk := (0, 0), leaves := [], walked := false, map := [], faults := 0
    cause := 0, endWith := 0, dirty := [], since := 0, rotated := none, rotate := false, yielded := false, quantumUp := false
    backfill := none, wave := none, saved := [], stopping := false }

/-- Accept a record as the partition's next launch. -/
def acceptLaunch (w : Work) (p : Nat) (r : LRec) : Nat × Work :=
  let n := (partOf w.ctl p).sched.next
  let w := updPart w p (fun P => { P with
    launches := Tab.set P.launches n (Launch.fresh r), sched := { P.sched with next := n + 1 } })
  (n, setPriorities (meetDeps w p) p)

end Sys2Proof.Machine
end

