-- ==== Sys2Proof/Machine/Stop.lean ====
section
/-! DEFINITION. Stopping a glade, its context out and back, rotation, and the end of a launch that ends early (R130, R304,
R313, R342, R347, R384 to R388). A save and a restore of a glade are one step each. -/
namespace Sys2Proof.Machine

/-! ## The stop (R384) -/

/-- Whether an access may be withdrawn: an unperformed load or atomic after which nothing has issued (R130).
(DEDUCED, log entry 25.) -/
def withdrawable (o : Out) : Bool := !o.store && o.last

/-- An instruction that will issue again: the STEP it was to be followed by comes after it then (R384, R391). -/
def unstep (T : Task) : Task :=
  if T.pend.any (fun c => decide (c.code = 0x10)) then { T with pend := none, oneStep := T.oneStep || !T.dbg.step } else T

/-- Withdraw an access of a task: its requests leave every queue, messages not dispatched give their credits back, and the
PC is at the instruction again. -/
def withdraw (w : Work) (g t : Nat) (o : Out) : Work :=
  let mine := fun (r : Req) => decide (r.id = o.id) && decide (r.g = g) && decide (r.t = t)
  let waiting := (w.ctl.net.hops.map (·.reqs)).flatten ++ (w.ctl.glades.map (fun q => q.2.rmq ++ q.2.inbox)).flatten
  let w := (waiting.filter (fun r => mine r && decide (r.sp = .rscr))).foldl (fun w r =>
    match whereIs r.addr with
    | .scr d _ => addCredits w g d 1
    | _ => w) w
  let w := updCtl w (fun c => keepReqs c (fun r => !mine r))
  updTask w g t (fun T =>
    { unstep T with pc := o.pc, fl := { T.fl with outs := T.fl.outs.filter (fun x => x.id != o.id) } })

/-- Step 1 of R384: no further instruction issues, and what has not been performed is withdrawn. -/
def stopGlade (w : Work) (g : Nat) : Work :=
  match (gladeOf w.ctl g).owner, ownLaunch w.ctl g with
  | some _, some l =>
    if !l.stopping || (gladeOf w.ctl g).halted then w
    else
      let w := updGlade w g (fun G => { G with halted := true })
      ((gladeOf w.ctl g).ctx.tasks.map (·.1)).foldl (fun w t =>
        ((taskOf w.ctl g t).fl.outs.filter withdrawable).foldl (fun w o => withdraw w g t o) w) w
  | _, _ => w

/-- GLADE_STOP_REQUEST (R384). -/
def execGladeStopRequest (g : Nat) (s : State) : Out3 := commit s (fun w => stopGlade w g)

/-- Whether the only requests left of an access stand in a lease-hold store (R375). -/
def onlyHeld (c : Ctl) (id : Nat) : Bool :=
  let held := (c.net.bridges.map (fun b => b.2.held)).flatten.filter (fun r => decide (r.id = id))
  !held.isEmpty && decide (((allReqs c).filter (fun r => decide (r.id = id))).length = held.length)

/-- A cause that comes once the sleep, the wait or the hold of its task is over, which a stop carries along (R384 to R386). -/
def pendCarried (T : Task) : Bool :=
  T.wait.isSome || T.held.isSome || (match T.run with
    | .sleeping _ => true
    | _ => false)

/-- Whether a glade has reached its stop points (R384): commands of a launch that ends on a revoked extent do not hold it. -/
def atStop (c : Ctl) (g : Nat) : Bool :=
  let G := gladeOf c g
  let stuck := match ownLaunch c g with
    | some l => decide (l.st = .ending) && l.exts.any (·.revoked)
    | none => false
  G.halted &&
  G.ctx.tasks.all (fun q =>
    (q.2.pend.isNone || pendCarried q.2) && (decide (q.2.run ≠ .retired) || q.2.fl.bars.isEmpty) && q.2.fl.sq.isEmpty && q.2.fl.outs.all (fun o => o.store && onlyHeld c o.id)) &&
  allQueues.all (fun q => (cmdsOf c g q).all (fun x => isFence x || !midChunk x || stuck)) &&
  (cmdsOf c g .xq).all (fun x => isFence x || !x.begun) &&
  (G.banks.all (fun b => b.2.isEmpty)) && G.rmq.isEmpty && G.inbox.isEmpty

/-- Whether every glade of a launch has. -/
def launchAtStop (c : Ctl) (l : Launch) : Bool := l.map.all (fun m => atStop c m.2)

/-! ## The image (R387, R388) -/

/-- The cells of a stretch of locations, by offset. -/
def cellsIn (w : Work) (lo n : Nat) : List (Nat × Byte) :=
  ((applyLog w.log w.base).filter (fun c => decide (lo ≤ c.1) && decide (c.1 < lo + n))).map (fun c => (c.1 - lo, c.2))

def putCells (w : Work) (lo : Nat) (l : List (Nat × Byte)) : Work := l.foldl (fun w c => w.put (lo + c.1) c.2) w

/-- A task as it is saved, of age 0 (R86): a WAITMON sleeper stands at its WAITMON again (R205). -/
def savedTask (T : Task) : Task :=
  let T := { T with age := 0, fl := { T.fl with promises := [] } }
  match T.run with
  | .sleeping (.waitmon ..) => { unstep T with run := .runnable, pc := T.pc - 8 }
  | _ => T

/-- The tiles live at this tick (R315). -/
def liveTiles (c : Ctl) (g : Nat) : List Nat := ((gladeOf c g).ctx.births.map (·.1)).filter (fun t => !expired c g t)

/-- The address of a save slot. -/
def slotAddr (c : Ctl) (p k : Nat) : Nat := (partOf c p).trap.ctxbase.toNat + k * Config.slotBytes

/-- Bytes of a saved image of a launch (R387). -/
def imageSize (l : Launch) (im : Image) : Nat := 896 * 1024 + l.rec_.live + im.ctx.births.length * 4096

/-- A save or restore met uncorrectable data: the launch ends with status 1 and CAUSE 0x0B (R388). -/
def imageBad (w : Work) (p n : Nat) : Work :=
  updLaunch w p n (fun l => { l with st := .ending, endWith := 1, cause := 0x0B, stopping := true, rotate := false })

/-- Every credit on its way back to a glade arrives. -/
def flushCredits (w : Work) (gs : List Nat) (g : Nat) : Work := gs.foldl (fun w t => creditReceive w g t) w

/-- What a save reads of a glade: scratchpad, live tiles, accumulators with their flags, control arrays; and whether it met
uncorrectable data (R387, R388, R424, R465). -/
def readForSave (w : Work) (g live : Nat) (tiles : List Nat) : Work × Bool :=
  let (w, f) := checkRead w (scrAt g 0) live
  let (w, bad) := tiles.foldl (fun (a : Work × Bool) t =>
    let (w, f) := checkRead a.1 (fltAt g (t * 4096)) 4096
    (w, a.2 || f.bad)) (w, f.bad)
  let (w, f) := checkRead w (accAt g 0 0 0) (2 ^ 19)
  let (w, ended) := useCtl w g ((gladeOf w.ctl g).ctlBad ++ (gladeOf w.ctl g).ctlSoft)
  (w, bad || decide (f = .found) || ended)

/-- Save one glade into slot `k` (R387, R388), in one step; CTXLAST.TICKS, what the save took, is a free value (log
entry 23). The launch keeps the glade until all are saved (R335). -/
def saveGlade (w : Work) (p n lg g k : Nat) : Work :=
  match launchOf w.ctl p n with
  | none => w
  | some l =>
    let tiles := liveTiles w.ctl g
    let (w, bad) := readForSave w g l.rec_.live tiles
    if bad then imageBad w p n
    else
      let gs := l.map.map (·.2)
      let w := endWaits (flushCredits w gs g) g (fun _ => true)
      let w := updCtl w (fun c => { c with glades := c.glades.map (fun q =>
        (q.1, { q.2 with mons := q.2.mons.map (fun m => (m.1, m.2.filter (fun x => x.g != g))) })) })
      let x := (gladeOf w.ctl g).ctx
      let im : Image :=
        { ctx := { x with tasks := x.tasks.map (fun q => (q.1, savedTask q.2)), births := x.births.filter (fun b => tiles.contains b.1) }
          cells := cellsIn w (scrAt g 0) l.rec_.live
          acc := cellsIn w (accAt g 0 0 0) (2 ^ 19)
          accPoison := (w.ctl.marks.poison.filter (fun u => decide (accAt g 0 0 0 ≤ u) && decide (u < accAt g 0 0 0 + 2 ^ 19))).map (· - accAt g 0 0 0)
          tiles := (tiles.map (fun t => (cellsIn w (fltAt g (t * 4096)) 4096).map (fun c => (t * 4096 + c.1, c.2)))).flatten
          slot := k }
      let a := slotAddr w.ctl p k
      let size := imageSize l im
      let w := if spanMeets w.ctl a size = .gone then logGone w a n else w
      let w := clearMarks w a size
      let w := updCtl w (fun c => { c with marks := { c.marks with
        spans := { lo := a / 64, hi := (a + size) / 64, key := .image } :: c.marks.spans } })
      let w := updPart w p (fun P => { P with
        slots := k :: P.slots, trap := { P.trap with ctxlast := Config.saveTicks w.ctl.model.nonce g ++ BitVec.ofNat 32 (size / 1024) } })
      updLaunch w p n (fun l => { l with saved := Tab.set l.saved lg im })

/-- The lowest free save slots of a partition. -/
def openSlots (P : Part) : List Nat := (List.range P.trap.ctxlen).filter (fun k => !P.slots.contains k)

/-! ## Restore (R76, R309, R315, R388) -/

/-- A location of an old placement at the new one. -/
def movedTo (m : List (Nat × Nat)) (a : Nat) : Nat :=
  match whereIs a with
  | .scr g off =>
    (match m.find? (fun q => q.1 == g) with
      | some q => scrAt q.2 off
      | none => a)
  | _ => a

def movedGlade (m : List (Nat × Nat)) (g : Nat) : Nat := ((m.find? (fun q => q.1 == g)).map (·.2)).getD g

/-- A saved task at its new place: barriers by their new locations; a store that was performed while it was out is done. -/
def restoredTask (c : Ctl) (m : List (Nat × Nat)) (T : Task) : Task :=
  { T with
    run := match T.run with
      | .sleeping (.bar a ph d) => .sleeping (.bar (movedTo m a) ph d)
      | r => r
    fl := { T.fl with
      bars := T.fl.bars.map (fun e => { e with addr := movedTo m e.addr })
      outs := T.fl.outs.filter (fun o => (allReqs c).any (fun r => decide (r.id = o.id))) } }

/-- A BAR sleeper tests PHASE against its token (R209). -/
def retestBar (w : Work) (g t : Nat) : Work :=
  match (taskOf w.ctl g t).run with
  | .sleeping (.bar a ph d) =>
    let v := w.nat a 4
    if (barOf v).phase ≠ ph then putX (updTask w g t (fun T => { T with run := .runnable })) g t d (w64 v) else w
  | _ => w

/-- A restored plane: one whose image holds a token of an unassigned kind, or more than two in an arc, is in ERROR with reason 6
until it is rewritten (R76, R237, R252). -/
def restoredPlane (P : Plane) : Plane :=
  if P.arcs.any (fun a => decide (2 < a.2.toks.length) || a.2.toks.any (fun t => t.1.k = 2 || t.1.k = 3)) then { P with st := .error, err := 6 }
  else P

/-- Write one saved glade back to physical glade `g`; its first beat is a decision point (R256). -/
def restoreGlade (w : Work) (p n lg g : Nat) (m : List (Nat × Nat)) (im : Image) : Work :=
  let w := putCells (zeroStore w (scrAt g 0) Config.scrSize) (scrAt g 0) im.cells
  let w := putCells (zeroStore w (accAt g 0 0 0) (2 ^ 19)) (accAt g 0 0 0) im.acc
  let w := im.accPoison.foldl (fun w u => setPoison w (accAt g 0 0 0 + u)) w
  let w := im.ctx.births.foldl (fun w b =>
    let w := clearMarks (w.clear (fltAt g (b.1 * 4096)) 4096) (fltAt g (b.1 * 4096)) 4096
    putCells w (fltAt g 0) (im.tiles.filter (fun c => decide (c.1 / 4096 = b.1)))) w
  updGlade w g (fun G => { G with
    owner := some { part := p, launch := n, lglade := lg }
    halted := false, pvc := [], returns := [], ctlBad := [], ctlSoft := []
    ctx := { im.ctx with
      tasks := im.ctx.tasks.map (fun q => (q.1, restoredTask w.ctl m q.2))
      net := { im.ctx.net with
        credits := im.ctx.net.credits.map (fun q => (movedGlade m q.1, q.2))
        planes := im.ctx.net.planes.map restoredPlane, redecide := true } } })

/-- Whether a saved image has to wait for a stack in self-refresh or a unit under copy (R432, R436). -/
def imagesWait (c : Ctl) (p : Nat) (l : Launch) : Bool :=
  l.saved.any (fun s => decide (spanMeets c (slotAddr c p s.2.slot) (imageSize l s.2) = .wait))

/-- Whether the saved images read well (R388, R434, R465). -/
def imagesRead (w : Work) (p n : Nat) (l : Launch) : Work × Bool :=
  l.saved.foldl (fun (a : Work × Bool) s =>
    let at_ := slotAddr a.1.ctl p s.2.slot
    if spanMeets a.1.ctl at_ (imageSize l s.2) = .gone then (logGone a.1 at_ n, false)
    else
      let (w, f) := checkRead a.1 at_ (imageSize l s.2)
      (w, a.2 && !f.bad)) (w, true)

/-- A debugger's halt that met the stop takes effect (R385, R391). -/
def haltNow (w : Work) (g t : Nat) : Work :=
  let w := taskEvent w g t none 7 0 (taskOf w.ctl g t).pc 0 0
  updTask w g t (fun T =>
    { T with halt := false, held := match T.held with
        | some h => some { h with dbg := true }
        | none => some { cause := plainCause T.pc, sup := false, dbg := true } })

def haltsMet (w : Work) (g : Nat) : Work :=
  ((gladeOf w.ctl g).ctx.tasks.filter (fun q => q.2.halt)).foldl (fun w q => haltNow w g q.1) w

/-- Restore a launch onto glades `gs` (R341, R388). -/
def restoreOn (w : Work) (p n : Nat) (l : Launch) (gs : List Nat) (b : Option Nat) : Work :=
  let m : List (Nat × Nat) := l.map.filterMap (fun q => (gs[q.1]?).map (fun g => (q.2, g)))
  let (w, ok) := imagesRead w p n l
  let w := l.saved.foldl (fun w s =>
    match gs[s.1]? with
    | some g => restoreGlade w p n s.1 g m s.2
    | none => w) w
  -- what is on its way between the launch's glades, and what is held for its tasks, knows the new places
  let w := updNetC w (fun x => { x with
    fly := x.fly.map (fun f =>
      if f.part = p ∧ f.launch = n then { f with src := movedGlade m f.src, dst := if f.redir then f.dst else movedGlade m f.dst } else f)
    bridges := x.bridges.map (fun q => (q.1, { q.2 with held := q.2.held.map (fun r => if ofLaunch p n r then { r with g := movedGlade m r.g } else r) })) })
  let w := freeSaved w p l
  let w := updLaunch w p n (fun l =>
    { l with st := .running, map := mapOf gs, saved := [], since := w.ctl.tick, quantumUp := false, yielded := false
             stopping := false, rotate := false, backfill := b })
  let w := gs.foldl (fun w g => ((gladeOf w.ctl g).ctx.tasks.map (·.1)).foldl (fun w t => retestBar w g t) w) w
  let w := wakeLwait w p
  let w := gs.foldl haltsMet w
  -- the fault of a task that was retired while it was out counts by the launch's rule (R347)
  let w := if !l.rec_.tolerant && decide (0 < l.faults) then endLaunch w p n 1 l.cause else w
  if ok then w else imageBad w p n

/-- CONTEXT_RESTORE (R388). -/
def restore (w : Work) (p n : Nat) : Work :=
  match launchOf w.ctl p n, pick w.ctl p with
  | some l, some (m, b) =>
    if m ≠ n ∨ l.st ≠ .preempted ∨ imagesWait w.ctl p l = true then w
    else
      match placement w.ctl p l.rec_ [] with
      | some gs => restoreOn w p n l gs b
      | none => w
  | _, _ => w

/-- CONTEXT_RESTORE (R388). -/
def execContextRestore (part n : Nat) (s : State) : Out3 := commit s (fun w => restore w part n)

/-- What supervisor and debugger did to the tasks, watchpoints and holds of a saved glade before its launch went out (R74, R381,
R385). -/
def lastLook (c : Ctl) (l : Launch) : Tab Image :=
  l.saved.map (fun q =>
    match Tab.find l.map q.1 with
    | some g =>
      let x := (gladeOf c g).ctx
      (q.1, { q.2 with ctx := { q.2.ctx with
        tasks := x.tasks.map (fun t => (t.1, savedTask t.2)), wps := x.wps, hists := x.hists, net := x.net } })
    | none => q)

/-- The save of glade `g` once its launch is at rest; the last one makes the launch PREEMPTED, and a rotation restores it at
once (R342). -/
def save (w : Work) (g : Nat) : Work :=
  match (gladeOf w.ctl g).owner, ownLaunch w.ctl g with
  | some o, some l =>
    let resting := l.map.all (fun m => atStop w.ctl m.2 || (Tab.find l.saved m.1).isSome)
    if l.st ≠ .running ∨ l.stopping = false ∨ resting = false then w
    else
      match openSlots (partOf w.ctl o.part) with
      | [] => w
      | k :: _ =>
        if spanMeets w.ctl (slotAddr w.ctl o.part k) Config.slotBytes = .wait then w else
        let w := saveGlade w o.part o.launch o.lglade g k
        match launchOf w.ctl o.part o.launch with
        | none => w
        | some l =>
          if l.saved.length < l.map.length ∨ l.st ≠ .running then w
          else
            let w := updLaunch w o.part o.launch (fun l => { l with st := .preempted, stopping := false, saved := lastLook w.ctl l })
            let w := (l.map.map (·.2)).foldl leaveGlade w
            match launchOf w.ctl o.part o.launch, placement w.ctl o.part l.rec_ [] with
            | some l, some gs => if l.rotate && !imagesWait w.ctl o.part l then restoreOn w o.part o.launch l gs l.backfill else w
            | _, _ => w
  | _, _ => w

/-- CONTEXT_SAVE (R388). -/
def execContextSave (g : Nat) (s : State) : Out3 := commit s (fun w => save w g)

/-- A rotation begins at a yield point or dispatch of this tick (R342), at most once in 4,000,000 ticks, where save slots are
free for it (R388).
(DEDUCED, log entry 28.) -/
def rotate (w : Work) (p n : Nat) : Work :=
  match launchOf w.ctl p n with
  | none => w
  | some l =>
    let late := match l.rotated with
      | some t => decide (4000000 ≤ sinceTick w.ctl t)
      | none => true
    if l.st = .running ∧ l.stopping = false ∧ l.yielded = true ∧ late = true ∧ l.map.length ≤ freeSlots (partOf w.ctl p) then
      updLaunch w p n (fun l => { l with stopping := true, rotate := true, rotated := some w.ctl.tick })
    else w

/-- LAUNCH_ROTATION (R342). -/
def execLaunchRotation (part n : Nat) (s : State) : Out3 := commit s (fun w => rotate w part n)

/-! ## The end of ENDING (R347) -/

/-- Whether a launch that ends has still tasks that leave their barriers or wait for their records (R209, R383). -/
def lastLeave (c : Ctl) (p n : Nat) (l : Launch) : Bool :=
  recordsWait c p n || l.map.any (fun m => (gladeOf c m.2).ctx.tasks.any (fun q => !q.2.fl.bars.isEmpty))

/-- Whether such a launch has nothing left for the scheduler but to wait for that: its tasks have retired. -/
def endingWaits (c : Ctl) (p n : Nat) (l : Launch) : Bool :=
  lastLeave c p n l && l.map.all (fun m => (gladeOf c m.2).ctx.tasks.all (fun q => decide (q.2.run = .retired ∨ q.2.run = .free)))

/-- Every glade has stopped: what is left of its work is discarded, every task retires, and once they have left their barriers and
no record of theirs waits, the launch completes (R209, R347, R383). -/
def endingDone (w : Work) (p n : Nat) : Work :=
  match launchOf w.ctl p n with
  | none => w
  | some l =>
    if l.st ≠ .ending ∨ launchAtStop w.ctl l = false then w
    else
      let w := l.map.foldl (fun w m =>
        ((gladeOf w.ctl m.2).ctx.tasks.filter (fun q => decide (q.2.run ≠ .retired) && decide (q.2.sys.launch = n))).foldl
          (fun w q => retire w m.2 q.1) w) w
      if lastLeave w.ctl p n l then setPriorities w p
      else complete w p n l.endWith l.cause

/-- LAUNCH_ENDING_DONE (R347). -/
def execLaunchEndingDone (part n : Nat) (s : State) : Out3 := commit s (fun w => endingDone w part n)

/-! ## The scheduler's service (R339) -/

/-- What the scheduler would do for a launch now. -/
inductive Service where
  | walk | dispatch | restore | save (g : Nat) | ending | wave
  | finish (status cause : Nat)
deriving DecidableEq, Repr

/-- The request of launch `n` of partition `p`, if it has one: a service that would bring it on. A wave is one where it would
report every glade idle. (DESIGN CHOICE, log entry 35.) -/
def requestOf (c : Ctl) (p n : Nat) (l : Launch) : Option Service :=
  match l.fini, l.st with
  | some (s, x), _ => some (.finish s x)
  | none, .leasing =>
    if l.walked then (if ((pick c p).map (·.1)) = some n then some .dispatch else none)
    else if faultPending (partOf c p) then none else some .walk
  | none, .preempted => if ((pick c p).map (·.1)) = some n ∧ imagesWait c p l = false then some .restore else none
  | none, .running =>
    if l.stopping && l.map.all (fun m => atStop c m.2 || (Tab.find l.saved m.1).isSome) then
      ((l.map.find? (fun m => (Tab.find l.saved m.1).isNone)).map (fun m => .save m.2))
    else if waveReady c p n l then some .wave
    else none
  | none, .ending => if launchAtStop c l && !endingWaits c p n l then some .ending else none
  | none, _ => none

/-- Every pending request: partition, launch, EPRIO, service; within a partition in the order of R337, so that a launch
is not overtaken by a later one while its leases are taken. -/
def requests (c : Ctl) : List (Nat × Nat × Nat × Service) :=
  (c.parts.map (fun q => (sortBy before q.2.launches).filterMap (fun r => (requestOf c q.1 r.1 r.2).map (fun s => (q.1, r.1, r.2.eprio, s))))).flatten

/-- Requests of a level that the scheduler has served a partition in the present round of that level (R339). -/
def servedAt (P : Part) (level : Nat) : Nat := Tab.getD P.sched.served level 0

/-- The request that is served next: the highest EPRIO, then the weighted round over partitions in ascending order.
(DEDUCED, log entry 35.) -/
def nextRequest (c : Ctl) : Option (Nat × Nat × Nat × Service) :=
  let rs := requests c
  let top := rs.foldl (fun m r => Nat.max m r.2.2.1) 0
  let at_ := rs.filter (fun r => decide (r.2.2.1 = top))
  let open_ := at_.filter (fun r => decide (servedAt (partOf c r.1) top < (partOf c r.1).sched.weight))
  let first := match open_ with
    | [] => at_.head?
    | x :: _ => some x
  first

/-- Count the service of partition `p` in the round of its level: lower partitions have had their turn, and a finished round
starts again. -/
def countService (w : Work) (p level : Nat) : Work :=
  updCtl w (fun c =>
    let ended := decide ((partOf c p).sched.weight ≤ servedAt (partOf c p) level)
    { c with parts := c.parts.map (fun q =>
        let s := if ended then 0 else servedAt q.2 level
        let s := if q.1 = p then s + 1 else if q.1 < p then q.2.sched.weight else s
        (q.1, { q.2 with sched := { q.2.sched with served := Tab.set q.2.sched.served level s } })) })

/-- One service of the scheduler. -/
def serve (w : Work) : Work :=
  match nextRequest w.ctl with
  | none => w
  | some (p, n, level, s) =>
    let w := countService w p level
    match s with
    | .walk => leaseStep w p n
    | .dispatch => dispatch w p n
    | .restore => restore w p n
    | .save g => save w g
    | .ending => endingDone w p n
    | .wave => wave w p n
    | .finish x y => complete w p n x y

end Sys2Proof.Machine
end

