-- ==== Sys2Proof/Machine/Leases.lean ====
section
/-! DEFINITION. Lease operations and INVPG (R227, R372 to R377). Each completes in one step. -/
namespace Sys2Proof.Machine

/-- The partition a privileged instruction acts on: PSEL's for P2, else the task's own (R353, R373). -/
def actPart (w : Work) : Nat := if (me w).sys.priv = 2 then w.ctl.psel else (me w).sys.part

/-- The launch and extent an operation names, or its code 1 or 2 (R373). -/
def leaseTarget (c : Ctl) (p n i : Nat) : Except Nat (Launch × Extent) :=
  match launchOf c p n with
  | none => .error 1
  | some l =>
    if l.st ≠ .running ∧ l.st ≠ .preempted then .error 1
    else
      match l.exts[i]? with
      | none => .error 2
      | some e => .ok (l, e)

def setExtent (w : Work) (p n i : Nat) (e : Extent) : Work :=
  updLaunch w p n (fun l => { l with exts := setAt l.exts i e })

/-- The held requests of an extent, in arrival order. -/
def heldOf (c : Ctl) (p n i : Nat) (e : Extent) : List Req :=
  ((c.net.bridges.map (fun b => b.2.held)).flatten).filter (fun r =>
    ofLaunch p n r && decide (r.ext = some i) && decide (e.va ≤ r.va) && decide (r.va < e.va + e.pages * 65536))

def dropHeld (w : Work) (ids : Req → Bool) : Work :=
  updNetC w (fun n => { n with bridges := n.bridges.map (fun b => (b.1, { b.2 with held := b.2.held.filter (fun r => !ids r) })) })

/-- Whether an access through an extent has passed a bridge and is performed in part: a REVOKE waits for it (R374). -/
def revokeWaits (c : Ctl) (p n i : Nat) : Bool :=
  (routed c).any (fun r => ofLaunch p n r && decide (r.ext = some i) && !r.svc && partDone c r)

/-- REVOKE (R374): from now on every bridge holds the extent's requests; those past a bridge are performed already.
(DESIGN CHOICE, log entry 24.) -/
def leaseRevoke (w : Work) (p n i : Nat) : Option Nat × Work :=
  match leaseTarget w.ctl p n i with
  | .error c => (some c, w)
  | .ok (_, e) => if e.revoked then (some 3, w) else (some 0, setExtent w p n i { e with revoked := true })

/-- The leaves of an extent's pages now, through the scheduler's walk cache (R372, R374), or the first page that fails R366 with its
reason; none where a walk has to wait (R436). -/
def walkSpan (w : Work) (p perm : Nat) : Nat → Nat → Except (Option (Nat × Nat)) (List Word) × Work
  | 0, _ => (.ok [], w)
  | k + 1, va =>
    match walk w (some schedCache) p (ptRoot w.ctl p) va with
    | (.error .wait, w) => (.error none, w)
    | (.error _, w) => (.error (some (1, va)), w)
    | (.ok lf, w) =>
      match leafReason w.ctl p perm va lf with
      | some r => (.error (some (r, va)), w)
      | none =>
        match walkSpan w p perm k (va + 65536) with
        | (.ok l, w) => (.ok (pieceOf lf va :: l), w)
        | (.error e, w) => (.error e, w)

/-- What GET makes of a revoked extent from the leaves of its pages (R374): direct where they are contiguous, else indexed, its page
vector at the address given; none where the pages are too many or the pool has no room. -/
def regrant (P : Part) (e : Extent) (ls : List Nat) : Option (Extent × Option Nat) :=
  if (runsOf ls).length = 1 then
    let v := (ls[0]?).getD 0
    some ({ e with pa := pteAddr v, indexed := false, revoked := false, keyid := pteKey v, tier := pteTier v }, none)
  else if e.indexed then some ({ e with revoked := false }, some e.pa)
  else if 65536 < e.pages then none
  else (vectorRoom P [] (8 * e.pages)).map (fun a =>
    ({ e with pa := a, indexed := true, revoked := false, keyid := 0, tier := 0 }, some a))

/-- Apply `f` to every device request of the package, in SQ(t), on its way or at a bridge; one in SQ(t) has no route yet. -/
def mapReqs (c : Ctl) (f : Req → Req) : Ctl :=
  let l := fun (rs : List Req) => rs.map f
  let sq := fun (T : Task) => { T with fl := { T.fl with sq := T.fl.sq.map (fun e => { e with reqs := e.reqs.map (fun r => { f r with resent := r.resent }) }) } }
  mapTasks { c with net := { c.net with
    hops := c.net.hops.map (fun q => { q with reqs := l q.reqs })
    bridges := c.net.bridges.map (fun b => (b.1, { fifo := l b.2.fifo, replay := l b.2.replay, held := l b.2.held })) } }
    (fun _ _ T => if T.fl.sq = [] then T else sq T)

/-- Every request of the re-granted extent takes its new address: it is then sent again on that route (R303, R374, R376). -/
def newAddress (w : Work) (p n i : Nat) (e : Extent) (r : Req) : Req :=
  if ofLaunch p n r && decide (r.ext = some i) && decide (e.va ≤ r.va) && decide (r.va < e.va + e.pages * 65536) then
    let (pa, key, tier) := extentPa w r.g e r.va
    if flatOf tier pa = r.addr then { r with key := key } else { r with addr := flatOf tier pa, key := key, resent := true }
  else r

/-- GET (R374): the requests it releases leave their hold stores one by one (`holdStep`). No code where it has to wait for a stack
in self-refresh or a unit under copy. (DESIGN CHOICE, log entry 24.) -/
def leaseGet (w : Work) (p n i : Nat) : Option Nat × Work :=
  match leaseTarget w.ctl p n i with
  | .error c => (some c, w)
  | .ok (l, e) =>
    if !e.revoked then (some 3, w)
    else
      match walkSpan w p e.perm e.pages e.va with
      | (.error none, w) => (none, w)
      | (.error (some (r, va)), w) =>
        (some (4 + r * 256), updPart w p (fun P => { P with sched := { P.sched with lfva := w64 va } }))
      | (.ok ls, w) =>
        let ls := ls.map (·.toNat)
        match regrant (partOf w.ctl p) e ls with
        | none => (some 5, w)
        | some (x, vec) =>
          if (vec.map (fun a => decide (spanMeets w.ctl a (8 * e.pages) = .wait))).getD false then (none, w) else
          let w := match vec with
            | some a => writeVector w n a ls
            | none => w
          let w := (List.range e.pages).foldl (fun w k => setLeafBit w schedCache p (e.va + k * 65536) 4) w
          let w := setExtent w p n i x
          let own := fun (d : Nat) =>
            if d < 2 ^ 40 then decide (e.va / 65536 ≤ d) && decide (d < e.va / 65536 + e.pages)
            else decide (e.va < (d - 2 ^ 40 + 1) * 2 ^ 28) && decide ((d - 2 ^ 40) * 2 ^ 28 < e.va + e.pages * 65536)
          let w := updLaunch w p n (fun l => { l with dirty := l.dirty.filter (fun d => !own d) })
          let w := l.map.foldl (fun w m => updGlade w m.2 (fun G => { G with pvc := [] })) w
          (some 0, updCtl w (fun c => mapReqs c (newAddress w p n i x)))

/-- RELEASE (R374): the launch ends with status 4 and CAUSE 0x05, its held requests are discarded.
(DEDUCED, log entry 26.) -/
def leaseRelease (w : Work) (p n i : Nat) : Option Nat × Work :=
  match leaseTarget w.ctl p n i with
  | .error c => (some c, w)
  | .ok (l, e) =>
    if !e.revoked then (some 3, w)
    else
      let rs := heldOf w.ctl p n i e
      let w := dropHeld w (fun r => rs.contains r)
      let w := (rs.filter (fun r => decide (r.t < 16))).foldl (fun w r => updTask w r.g r.t (fun T =>
        { T with fl := { T.fl with outs := T.fl.outs.filter (fun o => o.id != r.id) } })) w
      (some 0, if l.st = .running then endLaunch w p n 4 5 else complete w p n 4 5)

/-- The common form of a lease instruction: PRIV, then the code to x[D]; not ready while there is none. -/
def leaseWith (m : Marks) (d a b : XReg) (word : Word) (op : Work → Nat → Nat → Nat → Option Nat × Work) (w : Work) : Work :=
  if (me w).sys.priv = 0 then trapPriv w m word 0
  else
    let n := (rx w a).toNat
    let i := (rx w b).toNat
    match op w (actPart w) n i with
    | (none, w) => notReady m w
    | (some c, w) => next m (wx w m d (w64 c))

/-- LEASE.GET (R374). -/
def execLeaseGet (m : Marks) (d a b : XReg) (s : State) : Out3 :=
  commit s (leaseWith m d a b (wordOf (.leaseGet m d a b)) leaseGet)
/-- LEASE.REVOKE (R374): not ready while an access that has passed a bridge is not performed whole. -/
def execLeaseRevoke (m : Marks) (d a b : XReg) (s : State) : Out3 :=
  commit s (fun w =>
    if (me w).sys.priv ≠ 0 ∧ revokeWaits w.ctl (actPart w) (rx w a).toNat (rx w b).toNat = true then notReady m w
    else leaseWith m d a b (wordOf (.leaseRevoke m d a b)) leaseRevoke w)
/-- LEASE.RELEASE (R374). -/
def execLeaseRelease (m : Marks) (d a b : XReg) (s : State) : Out3 :=
  commit s (leaseWith m d a b (wordOf (.leaseRelease m d a b)) leaseRelease)

/-- INVPG (R227, R372): every cached entry of the partition that covers the page is dropped. -/
def execInvpg (m : Marks) (a b : XReg) (big : Bool) (s : State) : Out3 :=
  commit s (fun w =>
    if (me w).sys.priv = 0 then trapPriv w m (wordOf (.invpg m a b big)) 0
    else next m (dropCaches w (rx w b).toNat (rx w a).toNat (if big then 28 else 16)))

end Sys2Proof.Machine
end

