-- ==== Sys2Proof/Machine/Debug.lean ====
section
/-! DEFINITION. Event rings, held tasks, the debugger, arc holds, counters and monitors (R74, R224, R229, R238, R380 to
R383, R389 to R396). -/
namespace Sys2Proof.Machine

/-! ## Event rings (R382, R383) -/

/-- The first record of a ring is written once its tick is over, TAIL counts it, the bell is stored. It waits for a stack in
self-refresh or a unit under copy, and at a vacated address its bytes are discarded (R432 to R436). -/
def eventWrite (w : Work) (r : Option Nat) : Work :=
  match w.ctl.net.events.find? (fun e => decide (e.ring = r)) with
  | none => w
  | some e =>
    if ringFull w.ctl r ∨ w.ctl.tick = e.tick then w
    else
      let t := (ringTail w.ctl r).toNat
      let a := (ringBase w.ctl r).toNat + 32 * (t % 2 ^ ringLog w.ctl r)
      if devMeets w.ctl a = .wait then w else
      let gone := decide (devMeets w.ctl a = .gone)
      let w := updNetC w (fun n => { n with events := dropFirst (fun e => decide (e.ring = r)) n.events })
      let w := if gone then logGone w a (e.d0.toNat / 2 ^ 32)
        else writeBytes w 0 0 a (natLe 8 e.d0.toNat ++ natLe 8 e.d1.toNat ++ natLe 8 e.d2.toNat ++ natLe 8 e.d3.toNat)
      let w := setTail w r (w64 ((t + 1) % 2 ^ 32))
      ringBell w (ringBellOf w.ctl r) ((t + 1) % 2 ^ 32)

/-- EVENT_RECORD_WRITE (R382). -/
def execEventRecordWrite (ring : Option Nat) (s : State) : Out3 := commit s (fun w => eventWrite w ring)

/-! ## Selected tasks (R389, R397) -/

/-- LAUNCH, TASK and LGLADE of TSEL and DBGSEL. -/
def selLaunch (v : Word) : Nat := bits v.toNat 31 0
def selTask (v : Word) : Nat := bits v.toNat 35 32
def selGlade (v : Word) : Nat := bits v.toNat 47 40

/-- The place of a selected task: loaded on a physical glade, or in a saved image. -/
inductive Sel where
  | loaded (g t : Nat)
  | saved (p n lg t : Nat)
deriving DecidableEq, Repr

/-- The selected task, if the launch is RUNNING (or PREEMPTED, where `out` admits it) and the slot is a started task. -/
def findSel (c : Ctl) (p : Nat) (v : Word) (out : Bool) : Option (Sel × Task) :=
  let n := selLaunch v
  let t := selTask v
  match launchOf c p n with
  | none => none
  | some l =>
    match l.st with
    | .running =>
      (match Tab.find l.map (selGlade v) with
        | none => none
        | some g =>
          if (gladeOf c g).owner = some { part := p, launch := n, lglade := selGlade v } then
            (Tab.find (gladeOf c g).ctx.tasks t).map (fun T => (Sel.loaded g t, T))
          else none)
    | .preempted =>
      if out then
        (Tab.find l.saved (selGlade v)).bind (fun s => (Tab.find s.ctx.tasks t).map (fun T => (Sel.saved p n (selGlade v) t, T)))
      else none
    | _ => none

def updSel (w : Work) (s : Sel) (f : Task → Task) : Work :=
  match s with
  | .loaded g t => updTask w g t f
  | .saved p n lg t =>
    updLaunch w p n (fun l => { l with saved := l.saved.map (fun q =>
      if q.1 = lg then
        (q.1, { q.2 with ctx := { q.2.ctx with tasks := q.2.ctx.tasks.map (fun x => if x.1 = t then (x.1, f x.2) else x) } })
      else q) })

/-- The reason of a sleep in the order of R77. -/
def sleepNo : Sleep → Nat
  | .waitvc .. => 0
  | .sleepuntil .. => 1
  | .qwait .. => 2
  | .waitmon .. => 3
  | .bar .. => 4
  | .cpwait .. => 5
  | .mwait .. => 6
  | .collwait .. => 7
  | .lwait .. => 8

/-- Whether a selected task that retires has still to leave its barriers or its ports (R209, R217). -/
def selLeaving (c : Ctl) : Sel × Task → Bool
  | (.loaded g t, _) => leaving c g t
  | (.saved .., T) => !T.fl.bars.isEmpty

/-- The record of a selected task's last trap or hold still waits for its ring: the task stays as it is (R383). -/
def selWaits (c : Ctl) : Sel × Task → Bool
  | (.loaded g t, T) => recordWaits c T.sys.launch (ownOf c g t)
  | (.saved p n lg t, _) => recordWaits c n (p, lg, t)

/-- TSTAT and DBGSTAT of a task; its retirement is recorded once it has left. -/
def taskStat (c : Ctl) (q : Sel × Task) : Word :=
  let T := q.2
  let run := match T.run with
    | .sleeping s => 2 ^ 56 + sleepNo s * 2 ^ 48
    | .retired => if selLeaving c q then 0 else 2 ^ 57
    | _ => 0
  let held := match T.held with
    | some h => b2n h.sup * 2 ^ 62 + b2n h.dbg * 2 ^ 61 + h.cause.code % 256 * 2 ^ 40
    | none => 0
  w64 (2 ^ 63 + run + held)

/-! ## TCMD (R381, R397) -/

/-- A hold ends for the supervisor or the debugger; a task that neither holds goes on, its next instruction unchecked
against breakpoints. -/
def letGo (T : Task) (sup dbg : Bool) : Task :=
  match T.held with
  | none => T
  | some h =>
    let h := { h with sup := h.sup && !sup, dbg := h.dbg && !dbg }
    if h.sup || h.dbg then { T with held := some h } else { T with held := none, skipBp := true }

/-- TCMD 1: a task held by R380 is released; while its record waits it stays held (R383). (DEDUCED, log entry 37.) -/
def tcmdResume (w : Work) (p : Nat) : Work :=
  match findSel w.ctl p (partOf w.ctl p).trap.tsel true with
  | some q => if selWaits w.ctl q then w else updSel w q.1 (fun T => letGo T true false)
  | none => w

/-- A task held by R380 retires as by a fatal trap of its held cause; while its record waits it stays held (R383). -/
def retireHeld (w : Work) (p : Nat) : Work :=
  match (findSel w.ctl p (partOf w.ctl p).trap.tsel true).filter (fun q => !selWaits w.ctl q) with
  | some (.loaded g t, T) =>
    (match T.held.filter (·.sup) with
      | some h => retireFatal w g t h.cause 1
      | none => w)
  | some (.saved q n lg t, T) =>
    (match T.held.filter (·.sup) with
      | some h =>
        let w := eventOf w (some q) (some (q, lg, t)) (evHead n lg t h.cause.code 1) h.cause.epc h.cause.eaddr h.cause.eval
        let w := updSel w (.saved q n lg t) (fun T =>
          { T with run := .retired, held := none, pend := none, wait := none, oneStep := false, halt := false
                   regs := { T.regs with q := Vector.replicate 16 none }, fl := { T.fl with recs := [], promises := [], guards := [] } })
        launchFault w q n (lg * 16 + t) h.cause.code
      | none => w)
  | none => w

/-- TCMD 2; a task that is out drops its barriers after the restore. The end of an LWAIT sleep changes the levels (R336).
(DEDUCED, log entry 27.) -/
def tcmdRetire (w : Work) (p : Nat) : Work := setPriorities (retireHeld w p) p

/-- TCMD_RESUME (R397). -/
def execTcmdResume (part : Nat) (s : State) : Out3 := commit s (fun w => tcmdResume w part)
/-- TCMD_RETIRE (R397). -/
def execTcmdRetire (part : Nat) (s : State) : Out3 := commit s (fun w => tcmdRetire w part)

/-! ## DBGCMD (R391) -/

def dbgPart (c : Ctl) : Nat := bits c.dbg.sel.toNat 60 56
/-- The task DBGSEL names. -/
def dbgTask (c : Ctl) : Option (Sel × Task) := findSel c (dbgPart c) c.dbg.sel false

/-- DBGCMD 1: the task is held for the debugger, with a record of kind 7 and cause 0; during a stop at the restore (R385). -/
def dbgHalt (w : Work) : Work :=
  match dbgTask w.ctl with
  | some (s, T) =>
    if T.run = .retired ∨ (T.held.map (·.dbg)) = some true then w
    else
      match s with
      | .loaded g t =>
        if (ownLaunch w.ctl g).any (·.stopping) then updTask w g t (fun T => { T with halt := true }) else haltNow w g t
      | s => updSel w s (fun T => { T with halt := true })
  | none => w

/-- DBGCMD 2: a task held for the debugger is released; while its record waits it stays held (R383). -/
def dbgResume (w : Work) : Work :=
  match dbgTask w.ctl with
  | some q => if selWaits w.ctl q then w else updSel w q.1 (fun T => { letGo T false true with halt := false })
  | none => w

/-- DBGCMD 3: released for one instruction; a sleeper raises STEP once its sleep ends, never in a handler (R380). -/
def dbgStep (w : Work) : Work :=
  match dbgTask w.ctl with
  | some (s, T) =>
    if T.dbg.attach && ((T.held.map (·.dbg)).getD false) && !selWaits w.ctl (s, T) then
      updSel w s (fun T =>
        let T := letGo T false true
        match T.run with
        | .sleeping _ =>
          if T.sys.inh || T.pend.isSome then T
          else { T with pend := some { code := 0x10, epc := T.pc, eaddr := 0, eval := 0, detail := 0, bundle := false } }
        | _ => { T with oneStep := true })
    else w
  | none => w

/-- DBG_HALT (R391). -/
def execDbgHalt (s : State) : Out3 := commit s dbgHalt
/-- DBG_RESUME (R391). -/
def execDbgResume (s : State) : Out3 := commit s dbgResume
/-- DBG_STEP (R391). -/
def execDbgStep (s : State) : Out3 := commit s dbgStep

/-! ## Arc holds (R74, R229, R238) -/

/-- The numbered arcs of a plane, as its last successful validation left them: element and port (R238). -/
def arcPorts (P : Plane) : List (Nat × Nat) := P.nums.map (fun k => (k / 9, k % 9))

/-- HOLD on an arc or a VC's inbound buffer: the answer of R229. -/
def arcHold (w : Work) (g arc : Nat) (on : Bool) : Nat × Work :=
  if arc.testBit 12 then
    let v := arc % 32
    (0, setVcBuf w g v { vcBuf w.ctl g v with hold := on })
  else
    let p := arc % 4
    let P := planeOf w.ctl g p
    match (arcPorts P)[bits arc 11 2]? with
    | none => (1, w)
    | some (e, j) => (0, setPlane w g p { P with arcs := Tab.set P.arcs (arcKey e j) { arcOf P e j with hold := on } })

def holdWith (m : Marks) (d a b : XReg) (word : Word) (on : Bool) (w : Work) : Work :=
  if (me w).sys.priv < 2 then trapPriv w m word 0
  else
    let (r, w) := arcHold w ((rx w a).toNat % 256) ((rx w b).toNat % 8192) on
    let w := if on then w else wakeVcAll w ((rx w a).toNat % 256)
    next m (wx w m d (w64 r))

/-- HOLD.SET (R229). -/
def execHoldSet (m : Marks) (d a b : XReg) (s : State) : Out3 := commit s (holdWith m d a b (wordOf (.holdSet m d a b)) true)
/-- HOLD.REL (R229). -/
def execHoldRel (m : Marks) (d a b : XReg) (s : State) : Out3 := commit s (holdWith m d a b (wordOf (.holdRel m d a b)) false)

/-! ## Counters (R395) -/

def updDbg (w : Work) (f : Dbg → Dbg) : Work := updMe w (fun T => { T with dbg := f T.dbg })

/-- A load or other access still to write its result holds PCTR.RD. -/
def resultsOut (w : Work) : Bool := !(me w).fl.outs.isEmpty

/-- PCTR.RD (R395); a number above 7 gives all ones (R229). -/
def execPctrRd (m : Marks) (d a : XReg) (s : State) : Out3 :=
  commit s (fun w =>
    let n := (rx w a).toNat
    if 7 < n then next m (wx w m d allOnes)
    else if resultsOut w then notReady m w
    else next m (wx w m d (((me w).dbg.ctr.toList[n]?).getD 0)))

/-- PCTR.SEL: an unassigned event leaves the selection unchanged; otherwise the counter is zeroed with it. -/
def execPctrSel (m : Marks) (a b : XReg) (s : State) : Out3 :=
  commit s (fun w =>
    let n := (rx w a).toNat
    let e := (rx w b).toNat % 256
    next m (if 7 < n ∨ 10 < e then w
      else updDbg w (fun D => { D with ctrEvent := D.ctrEvent.setIfInBounds n (BitVec.ofNat 8 e), ctr := D.ctr.setIfInBounds n 0 })))

/-- PCTR.CLR. -/
def execPctrClr (m : Marks) (a : XReg) (s : State) : Out3 :=
  commit s (fun w =>
    let n := (rx w a).toNat
    next m (if 7 < n then w else updDbg w (fun D => { D with ctr := D.ctr.setIfInBounds n 0 })))

/-! ## Monitors (R396) -/

def histOf (c : Ctl) (g n : Nat) : Hist := Tab.getD (gladeOf c g).ctx.hists n Hist.empty
def setHist (w : Work) (g n : Nat) (h : Hist) : Work := updCtx w g (fun x => { x with hists := Tab.set x.hists n h })

/-- Item `k` of a monitor (R229). -/
def histItem (h : Hist) (k : Nat) : Word :=
  if k < 16 then w64 (Tab.getD h.bins k 0)
  else if k = 16 then h.min
  else if k = 17 then w64 h.max
  else if k = 18 then w64 h.count
  else allOnes

/-- The sources of R396. -/
def histSource (n : Nat) : Bool :=
  (decide (1 ≤ n) && decide (n ≤ 0xA)) || (decide (0x10 ≤ n) && decide (n ≤ 0x1B))

/-- HIST.RD. -/
def execHistRd (m : Marks) (d a b : XReg) (s : State) : Out3 :=
  commit s (fun w =>
    let n := (rx w a).toNat
    next m (wx w m d (if 15 < n then allOnes else histItem (histOf w.ctl (curG w) n) (rx w b).toNat)))

/-- HIST.ARM: an unassigned source or a SHIFT above 40 leaves the monitor unchanged. -/
def execHistArm (m : Marks) (a b c : XReg) (s : State) : Out3 :=
  commit s (fun w =>
    let n := (rx w a).toNat
    let src := (rx w b).toNat
    let sh := (rx w c).toNat
    next m (if 15 < n ∨ 40 < sh ∨ histSource src = false then w
      else setHist w (curG w) n { Hist.empty with src := src, shift := sh }))

/-- HIST.CLR. -/
def execHistClr (m : Marks) (a : XReg) (s : State) : Out3 :=
  commit s (fun w =>
    let n := (rx w a).toNat
    next m (if 15 < n then w
      else
        let h := histOf w.ctl (curG w) n
        setHist w (curG w) n { Hist.empty with src := h.src, shift := h.shift }))

end Sys2Proof.Machine
end

