-- ==== Sys2Proof/Machine/Tenancy.lean ====
section
/-! DEFINITION. Partitions, mailboxes and links (R399 to R414). -/
namespace Sys2Proof.Machine

def updTen (w : Work) (p : Nat) (f : PartTen → PartTen) : Work := updPart w p (fun P => { P with ten := f P.ten })

/-! ## Groves and keys (R400, R401) -/

/-- Partitions that own something now: those listed. -/
def partNos (c : Ctl) : List Nat := c.parts.map (·.1)

/-- Whether a partition other than `p` still has a grove. -/
def grovesElsewhere (c : Ctl) (p gr : Nat) : Bool :=
  (partNos c).any (fun q => decide (q ≠ p) && (partOf c q).ten.groves.toNat.testBit gr)

/-- Groves that PGROVES names and no other partition has become the partition's. -/
def takeGroves (w : Work) (p : Nat) : Work :=
  let want := (partOf w.ctl p).ten.pgroves.toNat
  let got := (List.range 32).filter (fun gr => want.testBit gr && !grovesElsewhere w.ctl p gr)
  updTen w p (fun t => { t with groves := got.foldl (fun v gr => v ||| (1#64 <<< gr)) t.groves })

/-- A grove that PGROVES no longer names leaves once no launch holds a glade of it; one that waits for it takes it (R400). -/
def dropGrove (w : Work) (p gr : Nat) : Work :=
  let t := (partOf w.ctl p).ten
  let busy := (List.range 8).any (fun k =>
    match (gladeOf w.ctl (8 * gr + k)).owner with
    | some o => decide (o.part = p)
    | none => false)
  if !t.groves.toNat.testBit gr || t.pgroves.toNat.testBit gr || busy || decide (32 ≤ gr) then w
  else
    let w := updTen w p (fun t => { t with groves := t.groves &&& ~~~(1#64 <<< gr) })
    (partNos w.ctl).foldl takeGroves w

/-- A write of PGROVES (R400). (DEDUCED, log entry 46.) -/
def writePgroves (w : Work) (p : Nat) (v : Word) : Work :=
  let w := takeGroves (updTen w p (fun t => { t with pgroves := w64 (v.toNat % 2 ^ 32) })) p
  (List.range 32).foldl (fun w gr => dropGrove w p gr) w

/-- PGROVES_WRITE (R400). -/
def execPgrovesWrite (part : Nat) (v : BitVec 64) (s : State) : Out3 := commit s (fun w => writePgroves w part v)
/-- GROVE_REMOVAL_EFFECT (R400). -/
def execGroveRemovalEffect (part grove : Nat) (s : State) : Out3 := commit s (fun w => dropGrove w part grove)

/-- A write of PKEYS, ignored where the range holds key ID 0 or runs past 4,095 (R401). -/
def writePkeys (w : Work) (p : Nat) (v : Word) : Work :=
  let b := bits v.toNat 43 32
  let n := bits v.toNat 12 0
  if (b = 0 ∧ 0 < n) ∨ 4096 < b + n then w
  else updTen w p (fun t => { t with pkeys := w64 (b * 2 ^ 32 + n) })

/-- PKEYS_WRITE (R401). -/
def execPkeysWrite (part : Nat) (v : BitVec 64) (s : State) : Out3 := commit s (fun w => writePkeys w part v)

/-! ## VXDEST (R402) -/

def vxKey (t : PartTen) : Nat := bits t.vxsel.toNat 31 0 * 32 + bits t.vxsel.toNat 36 32

/-- A write of VXDEST for the launch and VC that VXSEL names. -/
def writeVxdest (w : Work) (p : Nat) (v : Word) : Work :=
  updTen w p (fun t => { t with vxdest := Tab.set t.vxdest (vxKey t) (v &&& 0x8000000000001FFF) })

/-- VXDEST_WRITE (R402). -/
def execVxdestWrite (part : Nat) (v : BitVec 64) (s : State) : Out3 := commit s (fun w => writeVxdest w part v)

/-! ## Mailboxes (R407) -/

/-- A host write into the mailbox page of partition `p`: RINGBASE and RINGLOG are shown in MBRING and MBLEN, DOORBELL sets MBTAIL and
rings the bell; each word may be written alone. (DESIGN CHOICE, log entry 67.) -/
def mailWrite (w : Work) (p : Nat) (tail : Option (BitVec 32)) (ringBase : Option Word) (ringLog : Option (BitVec 5)) : Work :=
  let w := match ringBase with
    | some v => updTen w p (fun t => { t with mbring := w64 (v.toNat / 4096 * 4096) })
    | none => w
  let w := match ringLog with
    | some v => updTen w p (fun t => { t with mblen := v.setWidth 64 })
    | none => w
  match tail with
  | some v =>
    let w := updTen w p (fun t => { t with mbtail := v.setWidth 64 })
    ringBell w (partOf w.ctl p).ten.mbbell v.toNat
  | none => w

/-- MAILBOX_DOORBELL (R407). -/
def execMailboxDoorbell (part : Nat) (tail : Option (BitVec 32)) (ringBase : Option (BitVec 64)) (ringLog : Option (BitVec 5))
    (s : State) : Out3 :=
  commit s (fun w => mailWrite w part tail ringBase ringLog)

/-- A write of MBRESP: RESPTAIL; the vector it raises is the host's (R407). -/
def writeMbresp (w : Work) (p : Nat) (v : Word) : Work := updTen w p (fun t => { t with mbresp := w64 (v.toNat % 2 ^ 32) })

/-- MBRESP_WRITE (R407). -/
def execMbrespWrite (part : Nat) (v : BitVec 64) (s : State) : Out3 := commit s (fun w => writeMbresp w part v)

/-! ## Links (R408) -/

/-- The error-log channel of a LINKSEL port (R427). -/
def linkChan (port : Nat) : Nat := if port < 16 then 16 + port else if port < 18 then 16 + port else if port = 18 then 34 else 16 + port

/-- The port a hop or bridge stands on. -/
def portOfHop : Hop → Option Nat
  | .canopy p | .eth p => some p
  | .villum d e => some (villumPort d e)
  | _ => none

/-- The ports that the way of glade `g` to a home crosses: adapters, the Canopy port, the host port. -/
def portsTo (c : Ctl) (g : Nat) (home : Home) : List Nat :=
  (hopPath c g home).filterMap portOfHop ++ (if home = .host then [18] else [])

/-- Whether a byte of a key lies behind a port: granule by granule of its footprint, as its homes may differ. -/
def keyBehind (w : Work) (g va port : Nat) (k : Key) : Bool :=
  (kFoot k).any (fun r => (List.range ((r.1 % 512 + r.2 + 511) / 512)).any (fun i =>
    match engPlace w g va (keySp k) (Nat.max r.1 (r.1 / 512 * 512 + 512 * i)) 1 .read with
    | (.at_ x, _) => (portsTo w.ctl g (homeOf w.ctl (reroute w.ctl (devReq w g 0 x (.read 1))))).contains port
    | _ => false))

/-- Whether a begun GATHER or SCATTER has a port on its route (R190). -/
def rowsBehind (w : Work) (g port : Nat) (c : Cmd) : Bool :=
  isRows c && c.begun && !c.fin && [c.ka, c.kb, c.kc].any (keyBehind w g c.vaPart port)

/-- A GATHER or SCATTER whose route has failed (R190): a row of which an element is written, or on its way, is completed and is the
command's last; otherwise it completes now, COUNT the rows done. -/
def cutCmd (c : Ctl) (g : Nat) (q : Queue) (x : Cmd) : Cmd :=
  let writing := (allReqs c).any (fun r => decide (r.eng = some q) && decide (r.id = x.id) && decide (r.g = g) && !isRead r)
  if writing || x.opened then { x with cut := true }
  else { x with fin := true, flags := x.flags ||| stLink, count := rowsDone x true, puts := [], got := [] }

/-- Every such command on the failed route. (DEDUCED, log entry 75.) -/
def cutRows (w : Work) (port : Nat) : Work :=
  w.ctl.glades.foldl (fun w q =>
    [Queue.cq0, .cq1, .cq2, .cq3].foldl (fun w k =>
      ((cmdsOf w.ctl q.1 k).filter (rowsBehind w q.1 port)).foldl (fun w c => updCmd w q.1 k c.id (cutCmd w.ctl q.1 k)) w) w) w

/-- A port or adapter fails (R408): what is queued for it or in flight through it is discarded, the event is logged, and
later traffic takes the remaining routes. -/
def failLink (w : Work) (port : Nat) : Work :=
  if !w.ctl.links.up.contains port then w
  else
    let w := cutRows w port
    let queued := (w.ctl.net.hops.filter (fun q => portOfHop q.hop = some port)).map (·.reqs) |>.flatten
    let B := bridgeOf w.ctl (if port = 18 then 12 else 16 + port)
    let gone := queued ++ (if port < 16 ∨ port = 18 then B.fifo ++ B.replay ++ B.held else [])
    let w := updCtl w (fun c => keepReqs c (fun r => !gone.contains r))
    let w := updNetC w (fun n => { n with
      fly := n.fly.filter (fun f => decide (f.hop.bind portOfHop ≠ some port))
      colls := n.colls.filter (fun f => decide (portOfHop f.hop ≠ some port)) })
    let w := updCtl w (fun c => { c with links := { c.links with up := c.links.up.filter (· != port), seen := c.links.seen.filter (· != port) } })
    let w := gone.foldl performLost w
    logEvent w (linkChan port) 4 0 port false

/-- The route from an Ethernet port to a stand fails (R409): what is queued for it there is discarded, and the event is logged; the
port stays live. -/
def failRoute (w : Work) (port stand : Nat) : Work :=
  if port < 16 ∨ 17 < port ∨ w.ctl.links.up.contains port = false then w
  else
    logEvent (updNetC w (fun n => { n with colls := n.colls.filter (fun f => !(f.hop == .eth port && f.home == .stand stand)) }))
      (linkChan port) 4 0 port false

/-- LINK_FAILURE (R408, R409): of a port or adapter, or of the route from an Ethernet port to a stand. -/
def execLinkFailure (link : FailedLink) (s : State) : Out3 :=
  commit s (fun w => match link with
    | .port n => failLink w n
    | .route n k => failRoute w n k)

/-- Whether a port or adapter came ready (R447). -/
def portReady (c : Ctl) (port : Nat) : Bool :=
  if port < 19 then c.boot.ports.testBit port else c.boot.villum.testBit (port - 19)

/-- A failed port or adapter is live again. -/
def recoverLink (w : Work) (port : Nat) : Work :=
  if portReady w.ctl port then
    updCtl w (fun c => { c with links := { c.links with up := insNat c.links.up port, seen := insNat c.links.seen port } })
  else w

/-- PORT_RECOVERY (R408). -/
def execPortRecovery (port : Nat) (s : State) : Out3 := commit s (fun w => recoverLink w port)

/-- A live port runs with so many live lanes from now on, after recovering so many flits by retransmission, which ERRS counts (R408,
R414). -/
def loseLanes (w : Work) (port lanes flits : Nat) : Work :=
  if w.ctl.links.up.contains port then
    updCtl w (fun c => { c with links := { c.links with
      lanes := Tab.set c.links.lanes port lanes
      errs := Tab.set c.links.errs port (Nat.min (2 ^ 32 - 1) (Tab.getD c.links.errs port 0 + flits)) } })
  else w

/-- LIVE_LANE_LOSS (R408). -/
def execLiveLaneLoss (port : Nat) (loss : LaneLoss) (s : State) : Out3 := commit s (fun w => loseLanes w port loss.lanes loss.flits)

/-- Rate of a port with every lane, in Gb/s (R12, R23); at the host port sixteen lanes of 64 GT/s. (DEDUCED, log entry 20.) -/
def fullRate (port : Nat) : Nat :=
  if port < 16 then 1600 else if port < 18 then 800 else if port = 18 then 16 * 64 else 48000

/-- Lanes of a port: sixteen at the host port (R23). -/
def fullLanes (port : Nat) : Nat := if port = 18 then 16 else Config.fullLanes port

/-- LINKSTAT of the port LINKSEL names: its Reset column in the tick in which the port came ready, from then on what it is.
(DEDUCED, log entry 3.) -/
def linkStat (c : Ctl) : Word :=
  let port := c.links.linksel.toNat % 32
  if 23 ≤ port then 0
  else if c.links.up.contains port && !c.links.seen.contains port then 0
  else
    let full := fullLanes port
    let live := Nat.min full (Tab.getD c.links.lanes port full)
    w64 (b2n (c.links.up.contains port) * 2 ^ 63 + b2n (decide (live < full)) * 2 ^ 62 + live % 256 * 2 ^ 48 +
      (if full = 0 then 0 else fullRate port * live / full) % 65536 * 2 ^ 32 + Tab.getD c.links.errs port 0 % 2 ^ 32)

/-! ## Ethernet (R409, R410) -/

/-- A frame is accepted only on the port whose addresses and UDP port it names, in the version of IP that ETHCFG.V6 selects; any other
is discarded. -/
def ethReceive (w : Work) (port : Nat) (fr : EthFrame) : Work :=
  let l := w.ctl.links
  let i := port - 16
  let mac := ((l.ethmac.toList[i]?).getD 0).toNat % 2 ^ 48
  let ip := ((l.ethip0.toList[i]?).getD 0).toNat + ((l.ethip1.toList[i]?).getD 0).toNat * 2 ^ 64
  if port < 16 ∨ 17 < port ∨ l.up.contains port = false ∨ fr.mac.toNat ≠ mac ∨ fr.ip.toNat ≠ ip ∨ fr.udp.toNat ≠ l.ethcfg.toNat % 65536 ∨
      fr.v6 ≠ l.ethcfg.getLsbD 16 then w
  else collReceive w (some (ethDie port)) fr.part fr.msg

/-- ETH_FRAME_RECEIVE (R410). -/
def execEthFrameReceive (port : Nat) (fr : EthFrame) (s : State) : Out3 := commit s (fun w => ethReceive w port fr)

/-- A write of ETHMAP discards the entries kept (R410). -/
def writeEthmap (w : Work) (v : Word) : Work :=
  updCtl w (fun c => { c with links := { c.links with ethmap := w64 (bits v.toNat 51 12 * 4096), ethcache := [] } })

/-- ETHMAP_WRITE (R410). -/
def execEthmapWrite (v : BitVec 64) (s : State) : Out3 := commit s (fun w => writeEthmap w v)

end Sys2Proof.Machine
end

