-- ==== Sys2Proof/Machine/Repair.lean ====
section
/-! DEFINITION. The error log's registers, stack retirement and thermal self-refresh (R427 to R437). -/
namespace Sys2Proof.Machine

def updRepair (w : Work) (f : Repair → Repair) : Work := updCtl w (fun c => { c with repair := f c.repair })
def updElog (w : Work) (f : ELog → ELog) : Work := updCtl w (fun c => { c with elog := f c.elog })

/-- ELOGPOP: the head record goes (R429). -/
def popLog (w : Work) : Work := updElog w (fun e => { e with recs := e.recs.drop 1 })
/-- A write of EFIRST clears it (R437). -/
def clearFirst (w : Work) : Work := updElog w (fun e => { e with first := 0 })

/-- ELOGPOP (R429). -/
def execElogpop (s : State) : Out3 := commit s popLog
/-- EFIRST_CLEAR (R437). -/
def execEfirstClear (s : State) : Out3 := commit s clearFirst

/-- The answer of RETIRE.BEGIN (R431). -/
def retireCode (c : Ctl) (k : Nat) : Nat :=
  if c.repair.phaseAct then 1
  else if 11 < k ∨ c.repair.live.testBit k = false then 2
  else if liveCount c = 1 then 3
  else 0

/-- The start of a retirement (R431). -/
def startRetire (w : Work) (k : Nat) : Work :=
  let n := liveCount w.ctl - 1
  let w := updRepair w (fun r =>
    { r with phase := (r.phase + 1) % 2 ^ 32, phaseAct := true, frontier := n * 49152, rstate := true, rstack := k, copying := none })
  logEvent w 48 9 (n * Config.stackBytes) k false

/-- RETIRE.BEGIN (R431). -/
def execRetireBegin (m : Marks) (d a : XReg) (s : State) : Out3 :=
  commit s (fun w =>
    if (me w).sys.priv < 2 then trapPriv w m (wordOf (.retireBegin m d a)) 0
    else
      let k := (rx w a).toNat
      let c := retireCode w.ctl k
      let w := if c = 0 then startRetire w k else w
      next m (wx w m d (w64 c)))

/-- Whether requests of unit `u` stand in bridges, or what is left of an access that has been performed in part, which is performed
whole under one mapping (R432, R460). -/
def unitQueued (c : Ctl) (u : Nat) : Bool :=
  c.net.bridges.any (fun b => decide (b.1 < 12) && b.2.fifo.any (fun r => decide (r.addr % 2 ^ 44 / 2 ^ 20 = u))) ||
    (routed c).any (fun r => ownDev c r.addr && decide (r.addr % 2 ^ 44 / 2 ^ 20 = u) && partDone c r)

/-- The staging read meets the errors of a unit: unreadable blocks become poison with a record of type 3 (R432, R465). -/
def stageUnit (w : Work) (u : Nat) : Work :=
  let lo := pkgNo w.ctl * 2 ^ 44 + u * 2 ^ 20
  let here := fun (l : List Nat) => l.filter (fun x => decide (lo ≤ x) && decide (x < lo + 2 ^ 20))
  let w := (here w.ctl.marks.soft).foldl (fun w x => updCtl w (fun c => countSoft c x)) w
  (here w.ctl.marks.latent).foldl (fun w x =>
    let w := updCtl w (fun c => { c with marks :=
      { c.marks with latent := c.marks.latent.filter (· != x), poison := insNat c.marks.poison x } })
    logEvent w 48 3 (x % 2 ^ 44) w.ctl.repair.rstack false) w

/-- The retirement is complete: the new capacity, in one step (R432). -/
def endRetire (w : Work) : Work :=
  let k := w.ctl.repair.rstack
  let live := liveAfter w.ctl
  let w := updRepair w (fun r => { r with live := live, phaseAct := false, rstate := false, sref := r.sref.filter (· != k) })
  logEvent w 48 10 (capacity w.ctl) k false

/-- One move of the retirement engine (R432): first the mark UNDER-COPY on the next unit, once nothing of it stands in a
bridge; then the copy and the new FRONTIER, by which the replay queues release what they hold (`replayStep`). It waits at a stack in
self-refresh (R436). (DESIGN CHOICE, log entry 67.) -/
def copyUnit (w : Work) : Work :=
  let r := w.ctl.repair
  if !r.phaseAct || (liveList r.live).any (fun k => r.sref.contains k) then w
  else if r.frontier = 0 then endRetire w
  else
    let u := r.frontier - 1
    match r.copying with
    | none => if unitQueued w.ctl u then w else updRepair w (fun r => { r with copying := some u })
    | some _ =>
      let w := stageUnit w u
      let w := updRepair w (fun r => { r with frontier := u, copying := none })
      if u = 0 then endRetire w else w

/-- RETIRE_UNIT_COPY (R432). -/
def execRetireUnitCopy (s : State) : Out3 := commit s copyUnit

/-- Another package's new capacity (R434). -/
def execCapacityMessageReceive (pkg cap : Nat) (s : State) : Out3 :=
  commit s (fun w => updRepair w (fun r => { r with peerCap := Tab.set r.peerCap pkg cap }))

/-- A stack enters self-refresh (R436). -/
def enterSref (w : Work) (k : Nat) : Work :=
  if w.ctl.repair.live.testBit k && !w.ctl.repair.sref.contains k then
    logEvent (updRepair w (fun r => { r with sref := insNat r.sref k })) k 7 0 k false
  else w
/-- It leaves self-refresh; what its bridge holds goes on in order. -/
def leaveSref (w : Work) (k : Nat) : Work :=
  if w.ctl.repair.sref.contains k then
    logEvent (updRepair w (fun r => { r with sref := r.sref.filter (· != k) })) k 8 0 k false
  else w

/-- SREF_ENTER (R436). -/
def execSrefEnter (k : Nat) (s : State) : Out3 := commit s (fun w => enterSref w k)
/-- SREF_EXIT (R436). -/
def execSrefExit (k : Nat) (s : State) : Out3 := commit s (fun w => leaveSref w k)

/-- STKSTAT of the stack STKSEL names (R437). -/
def stkStat (c : Ctl) : Word :=
  let k := c.repair.stksel
  if 11 < k then 0
  else w64 (b2n (c.repair.live.testBit k) * 2 ^ 63 + b2n (c.repair.sref.contains k) * 2 ^ 62 +
    b2n (c.repair.rstate && decide (c.repair.rstack = k)) * 2 ^ 61 + Tab.getD c.repair.corr k 0 % 2 ^ 48)

/-- Dword `i` of the head record of the log (R429). -/
def headRec (c : Ctl) (i : Nat) : Word :=
  match c.elog.recs.head? with
  | none => 0
  | some r => if i = 0 then r.d0 else if i = 1 then r.d1 else if i = 2 then r.d2 else r.d3

end Sys2Proof.Machine
end

