-- ==== Sys2Proof/Machine/PowerCtl.lean ====
section
/-! DEFINITION. Rails, droop, the timebase references, temperature and power (R438 to R446). Throttle levels change only
how many ticks work takes: they are kept and shown, and slow nothing here. -/
namespace Sys2Proof.Machine

def updPower (w : Work) (f : PowerCtl → PowerCtl) : Work := updCtl w (fun c => { c with power := f c.power })
def updRail (w : Work) (g : Nat) (f : Power → Power) : Work := updGlade w g (fun G => { G with power := f G.power })
def railOf (c : Ctl) (g : Nat) : Power := (gladeOf c g).power

/-! ## Rails (R438 to R440) -/

/-- A write of RAILREQ.LOW for a compute glade (R439). -/
def railRequest (w : Work) (g : Nat) (low : Bool) : Work :=
  if isMgmt g then w
  else updRail w g (fun p =>
    if low then { p with lowReq := true }
    else { p with lowReq := false, changing := if p.low || decide (p.changing = some true) then some false else p.changing })

/-- Ticks for which a glade is still barred from LOW, as 64-bit counts (R1, R426). -/
def barLeft (now : Nat) (p : Power) : Nat :=
  let left := (p.barTo + 2 ^ 64 - now) % 2 ^ 64
  if left ≤ Config.railWindow then left else 0

/-- A window ends: CELAST is its count (R439). -/
def shiftCe (G : Glade) : Glade := { G with power := { G.power with ceLast := G.power.ceCur, ceCur := 0 } }

/-- TICK has come into a new window: the counts move on, and its boundary is evaluated at the end of this tick, after the errors and
the writes of RAILREQ in it (R440). -/
def enterWindow (w : Work) : Work :=
  let k := w.ctl.tick / Config.railWindow
  if k = w.ctl.power.win then w
  else
    updPower (updCtl w (fun c => { c with glades := c.glades.map (fun q => (q.1, shiftCe q.2)) }))
      (fun p => { p with win := k, due := true })

/-- The evaluation of a glade at a window boundary (R439). -/
def railBoundary (w : Work) (g : Nat) : Work :=
  if isMgmt g then w
  else
    let thr := w.ctl.power.cethr
    let now := w.ctl.tick
    updRail w g (fun p =>
      if !p.lowReq then p
      else if barLeft now p = 0 ∧ p.ceLast < thr then
        { p with denied := false, changing := if p.low then p.changing else some true }
      else { p with denied := true, changing := if p.low || decide (p.changing = some true) then some false else p.changing })

/-- The evaluation of every glade, where a boundary is due. -/
def evalRails (w : Work) : Work :=
  if w.ctl.power.due then
    updPower ((w.ctl.glades.map (·.1)).foldl railBoundary w) (fun p => { p with due := false })
  else w

/-- A droop trip takes effect (R441). -/
def Power.trip (p : Power) : Power := { p with droop := Nat.max 2 p.droop, trips := satInc 48 p.trips, tripPend := false }

/-- A rail change ends (R438), and a trip that met it takes effect (R442). (DESIGN CHOICE, log entry 97.) -/
def railDone (w : Work) (g : Nat) : Work :=
  updRail w g (fun p =>
    match p.changing with
    | some b =>
      let p := { p with low := b, changing := none }
      if p.tripPend then p.trip else p
    | none => p)

/-- RAILREQ_WRITE (R439). -/
def execRailreqWrite (g : Nat) (v : BitVec 64) (s : State) : Out3 := commit s (fun w => railRequest w g (v.getLsbD 0))
/-- RAIL_WINDOW_BOUNDARY (R439): a glade is evaluated in the tick in which a window starts; what the rest of the tick brings is
evaluated at its end. -/
def execRailWindowBoundary (g : Nat) (s : State) : Out3 :=
  commit s (fun w => if w.ctl.power.due then railBoundary w g else w)
/-- RAIL_CHANGE_DONE (R438). -/
def execRailChangeDone (g : Nat) (s : State) : Out3 := commit s (fun w => railDone w g)

/-- RAILSTAT (R446). -/
def railStat (c : Ctl) (g : Nat) : Word :=
  let p := railOf c g
  let left := barLeft c.tick p
  w64 (b2n p.low * 2 ^ 63 + b2n (decide (0 < left)) * 2 ^ 62 + b2n p.denied * 2 ^ 61 + left % 2 ^ 21 * 2 ^ 32 +
    p.ceLast % 65536 * 65536 + p.ceCur % 65536)

/-! ## Droop (R441) -/

/-- The supply falls below the trip level: at once, or after the rail change it meets (R442). -/
def execDroopTrip (g : Nat) (s : State) : Out3 :=
  commit s (fun w => updRail w g (fun p => if p.changing.isSome then { p with tripPend := true } else p.trip))
/-- It is still below after 64 further beats. -/
def execDroopEscalate (g : Nat) (s : State) : Out3 :=
  commit s (fun w => updRail w g (fun p => { p with droop := if 2 ≤ p.droop then 3 else p.droop }))
/-- It has been above for 256 beats. -/
def execDroopRelease (g : Nat) (s : State) : Out3 := commit s (fun w => updRail w g (fun p => { p with droop := p.droop - 1 }))

/-! ## The timebase references (R443, R448) -/

/-- The primary's edges stop: the count advances by `adv` and the spare takes over. A window that starts within starts here. -/
def failover (w : Work) (adv : Nat) : Work :=
  if w.ctl.power.spare || !w.ctl.power.spareOk then w
  else
    let w := if adv = 0 then w else evalRails (logFlush w)
    enterWindow (updPower (updCtl w (fun c => { c with tick := (c.tick + adv) % 2 ^ 64 }))
      (fun p => { p with spare := true, failovers := satInc 32 p.failovers }))

/-- Every reference has failed: the package is ready no more, every glade stops (R448). (DEDUCED, log entry 33.) -/
def loseReferences (w : Work) : Work :=
  updCtl (updPower w (fun p => { p with lostRef := true, spareOk := false }))
    (fun c => { c with glades := c.glades.map (fun q => (q.1, { q.2 with halted := true })) })

/-- REFERENCE_FAILOVER (R443). -/
def execReferenceFailover (adv : Fin 3) (s : State) : Out3 := commit s (fun w => failover w adv.val)
/-- REFERENCE_LOSS (R448). -/
def execReferenceLoss (s : State) : Out3 := commit s loseReferences

/-! ## Temperature and power (R317, R444, R445) -/

/-- Fleet-wide expiry on die `d` at this tick (R317). -/
def expireDie (w : Work) (d : Nat) : Work :=
  let t := w.ctl.tick
  let w := updCtl w (fun c => { c with glades := c.glades.map (fun q =>
    if q.1 < 256 ∧ dieOf q.1 = d then (q.1, { q.2 with ctx := { q.2.ctx with births := [] } }) else q) })
  let w := updPower w (fun p => { p with fxtick := p.fxtick.setIfInBounds d t })
  logEvent w (40 + d) 6 0 t false

/-- One reading of a die's junction temperature (R444). -/
def thermal (w : Work) (d tj : Nat) : Work :=
  if 4 ≤ d then w
  else
    let w := updPower w (fun p => { p with tj := p.tj.setIfInBounds d tj })
    let thr := w.ctl.power.tthr
    let lv := (w.ctl.power.thermal.toList[d]?).getD 0
    let set := fun (w : Work) (v : Nat) => updPower w (fun p => { p with thermal := p.thermal.setIfInBounds d v })
    if 95 ≤ tj then set (expireDie w d) 3
    else if tj + 5 < thr then set w (lv - 1)
    else if thr ≤ tj then set w (Nat.min 3 (lv + 1))
    else w

/-- THERMAL_READING (R444). -/
def execThermalReading (d tj : Nat) (s : State) : Out3 := commit s (fun w => thermal w d tj)

/-- A 10 µs average of the module's power (R445). -/
def powerAvg (w : Work) (watts : Nat) : Work :=
  updPower w (fun p =>
    let p := { p with pwrnow := watts % 65536 }
    if p.plimit < watts then { p with power := Nat.min 3 (p.power + 1) }
    else if watts * 100 < 95 * p.plimit then { p with power := p.power - 1 }
    else p)

/-- POWER_AVERAGE (R445). -/
def execPowerAverage (watts : Nat) (s : State) : Out3 := commit s (fun w => powerAvg w watts)

/-- THRSTAT (R446). -/
def thrStat (p : PowerCtl) : Word :=
  w64 ((List.range 4).foldl (fun v d => v + ((p.thermal.toList[d]?).getD 0 % 4 + p.power % 4 * 4) * 2 ^ (4 * d)) 0)

end Sys2Proof.Machine
end

