-- ==== Sys2Proof/Machine/Boot.lean ====
section
/-! DEFINITION. Power-on, the firmware image, management-glade tasks, attestation and memory keys (R447 to R457). -/
namespace Sys2Proof.Machine

def updBoot (w : Work) (f : Boot → Boot) : Work := updCtl w (fun c => { c with boot := f c.boot })
def updSec (w : Work) (f : Secure → Secure) : Work := updCtl w (fun c => { c with sec := f c.sec })

/-! ## Power-on and self-tests (R447, R448) -/

/-- READY4.PKG (R448). -/
def pkgReady (c : Ctl) : Bool :=
  decide (c.boot.refs ≠ 0) && c.boot.ports.testBit 18 && decide (c.boot.mgmt ≠ 0) && decide (c.boot.hbms ≠ 0) && !c.power.lostRef

/-- Power-on: every register at its reset value, every function still to pass its test, every key fresh, every store of
the device empty (log entries 1 and 3). The free values go on. -/
def powerOn (w : Work) : Work :=
  let c := w.ctl
  let r := Ctl.reset
  let w := { w with ctl :=
    { r with
      boot := { r.boot with glades := Vector.replicate 4 0, mgmt := 0, hbms := 0, ports := 0, villum := 0, refs := 0
                            idValid := Config.idValid c.model.nonce }
      repair := { r.repair with live := 0 }
      links := { r.links with up := [] }
      power := { r.power with spareOk := false }
      sec := { r.sec with fresh := c.sec.fresh + 4096
                          keys := (List.range 4096).map (fun k => (k, KeyVal.fresh (c.sec.fresh + k))) }
      model := { r.model with agenda := c.model.agenda, nextId := c.model.nextId, nonce := c.model.nonce + 1 } } }
  (w.clear (pkgNo c * 2 ^ 44) (2 ^ 44)).clear scrBase (2 ^ 57)

/-- POWER_ON (R447). -/
def execPowerOn (s : State) : Out3 := commit s powerOn

def bitOr (v k : Nat) : Nat := if v.testBit k then v else v + 2 ^ k

/-- A function passes its self-test: its bit, and its use from this step on (R447). -/
def selfTest (w : Work) : DevFn → Work
  | .glade n => updBoot w (fun b => { b with glades := b.glades.setIfInBounds (n / 64) (((b.glades.toList[n / 64]?).getD 0) ||| (1#64 <<< (n % 64))) })
  | .mgmt d => if d < 4 then updBoot w (fun b => { b with mgmt := bitOr b.mgmt d }) else w
  | .stack k =>
    if k < 12 then updRepair (updBoot w (fun b => { b with hbms := bitOr b.hbms k })) (fun r => { r with live := bitOr r.live k }) else w
  | .port p =>
    if p < 19 then
      updCtl (updBoot w (fun b => { b with ports := bitOr b.ports p })) (fun c => { c with links := { c.links with up := insNat c.links.up p } })
    else w
  | .villum i =>
    if i < 4 then
      updCtl (updBoot w (fun b => { b with villum := bitOr b.villum i })) (fun c => { c with links := { c.links with up := insNat c.links.up (19 + i) } })
    else w
  | .ref i =>
    if i < 2 then updPower (updBoot w (fun b => { b with refs := bitOr b.refs i })) (fun p => if i = 1 then { p with spareOk := true } else p) else w

/-- SELF_TEST_PASS (R447). -/
def execSelfTestPass (fn : DevFn) (s : State) : Out3 := commit s (fun w => selfTest w fn)

/-! ## Management-glade tasks (R453) -/

/-- The start state of a management-glade task (R344, R453): CRD 0, so the generator starts at its two constants. -/
def mgmtTask (priv part : Nat) (pc : Word) : Task :=
  { Task.none with
    pc := pc, run := .runnable
    regs := { Regs.zero with rng0 := 0x9E3779B97F4A7C15, rng1 := 0xBF58476D1CE4E5B9 }
    sys := { Sys.zero with priv := priv, part := if priv = 1 then part else 0 } }

/-- A slot that holds a task: not retired, or one whose retirement is still to be recorded (R209, R383). -/
def slotBusy (c : Ctl) (g t : Nat) : Bool :=
  let T := taskOf c g t
  decide (T.run ≠ .free) && (decide (T.run ≠ .retired) || leaving c g t || recordWaits c T.sys.launch (ownOf c g t))

/-- Put a fresh task into a slot of a management glade. -/
def startMgmt (w : Work) (d t priv part : Nat) (pc : Word) : Work :=
  updTask w (mgmtOf d) t (fun _ => mgmtTask priv part pc)

def svDie (c : Ctl) : Nat := bits c.sec.svsel.toNat 33 32
def svTask (c : Ctl) : Nat := bits c.sec.svsel.toNat 3 0
def svPart (c : Ctl) : Nat := bits c.sec.svsel.toNat 12 8

def svResult (w : Work) (n : Nat) : Work := updSec w (fun x => { x with svRes := n })

/-- SVCMD 1 and 2. -/
def svStart (w : Work) (priv : Nat) : Work :=
  let d := svDie w.ctl
  if !w.ctl.boot.mgmt.testBit d then svResult w 2
  else if slotBusy w.ctl (mgmtOf d) (svTask w.ctl) then svResult w 1
  else svResult (startMgmt w d (svTask w.ctl) priv (svPart w.ctl) w.ctl.sec.svpc) 0

/-- SVCMD 3: the task drops its barriers and retires. (DEDUCED, log entry 44.) -/
def svRetire (w : Work) : Work :=
  let g := mgmtOf (svDie w.ctl)
  let run := (taskOf w.ctl g (svTask w.ctl)).run
  if run ≠ .free ∧ run ≠ .retired then svResult (retire w g (svTask w.ctl)) 0 else svResult w 3

/-- SVCMD_START_SUPERVISOR (R453). -/
def execSvcmdStartSupervisor (s : State) : Out3 := commit s (fun w => svStart w 1)
/-- SVCMD_START_MONITOR (R453). -/
def execSvcmdStartMonitor (s : State) : Out3 := commit s (fun w => svStart w 2)
/-- SVCMD_RETIRE (R453). -/
def execSvcmdRetire (s : State) : Out3 := commit s svRetire

/-- A write of MPTROOT drops what is cached of the monitor's tree (R453). (DEDUCED, log entry 42.) -/
def writeMptroot (w : Work) (v : Word) : Work :=
  let w := updSec w (fun x => { x with mptroot := w64 (bits v.toNat 51 16 * 65536) })
  updCtl w (fun c => { c with glades := c.glades.map (fun q => (q.1,
    { q.2 with tlb := q.2.tlb.filter (fun x => x.part.isSome), wcache := q.2.wcache.filter (fun x => x.1 != monTree) })) })

/-- MPTROOT_WRITE (R453). -/
def execMptrootWrite (v : BitVec 64) (s : State) : Out3 := commit s (fun w => writeMptroot w v)

/-! ## The firmware image (R449 to R452) -/

/-- A host write into the boot window, ignored once CODE is 2; a write of 1 to BOOTGO starts the sequence on what BOOTADDR and BOOTLEN
are then, unless CODE is 1 (R450, R451). -/
def bootWrite (w : Work) (words : BootWords) (go : Option Word) : Work :=
  if w.ctl.boot.code = 2 ∨ w.ctl.boot.ports.testBit 18 = false then w
  else
    updBoot w (fun b =>
      let b := match words.addr with
        | some v => { b with bootaddr := w64 (v.toNat / 4096 * 4096) }
        | none => b
      let b := match words.len with
        | some v => { b with bootlen := v.toNat }
        | none => b
      match go with
      | none => b
      | some v => if v.getLsbD 0 && decide (b.code ≠ 1) then { b with code := 1, load := (b.bootaddr, b.bootlen) } else b)

/-- BOOTGO, and the words written before it (R450). -/
def execBootgo (words : BootWords) (go : Option (BitVec 64)) (s : State) : Out3 := commit s (fun w => bootWrite w words go)

def sliceNat (l : List Byte) (o n : Nat) : Nat := leNat ((l.drop o).take n)

/-- The largest image, 64 MiB (R449). (DEDUCED, log entry 43.) -/
def maxImage : Nat := 64 * 2 ^ 20

/-- The first failing check of R449 and R452: 3 header or length, 4 public key, 5 signature; 2 where all pass. -/
def imageCode (len : Nat) (l : List Byte) : Nat :=
  let plen := sliceNat l 8 8
  let entry := sliceNat l 16 8
  let body := l.take (64 + plen)
  if len ≤ 64 ∨ maxImage < len ∨ sliceNat l 0 4 ≠ 0x4D5A5452 ∨ plen % 8 ≠ 0 ∨ entry % 8 ≠ 0 ∨ plen ≤ entry ∨
      len ≠ 64 + plen + 7856 ∨ sliceNat l 56 8 ≠ 0 then 3
  else if Config.sha256 ((l.drop 24).take 32) ≠ Config.romKeyHash then 4
  else if Config.slhVerify ((l.drop 24).take 32) body (l.drop (64 + plen)) = false then 5
  else 2

/-- Bytes of host memory from an address of the host. -/
def hostBytes (w : Work) (a n : Nat) : List Byte :=
  if a + n ≤ 2 ^ 52 then w.bytes (hostAt a) n
  else (List.range n).map (fun i => if a + i < 2 ^ 52 then w.get (hostAt (a + i)) else Config.hostByte (a + i))

/-- The end of loading and verifying (R451): the image stands at local physical address 0 under key ID 0, and every ready management
glade checks the copy it reads there; where every check passes and the glades agree, the digest, the SVN and the monitor's tasks.
(DESIGN CHOICE, log entry 16.) -/
def verifyDone (w : Work) : Work :=
  let b := w.ctl.boot
  if b.code ≠ 1 ∨ b.mgmt = 0 then w
  else
    let (n, w) := newNonce w
    if Config.hostReadFails n then updBoot w (fun b => { b with code := 6 }) else
    let len := b.load.2
    let at_ := pkgNo w.ctl * 2 ^ 44
    let w := writeBytes w 0 0 at_ (hostBytes w b.load.1.toNat len)
    let l := readBytes w 0 at_ len
    let codes := ((List.range 4).filter (fun d => b.mgmt.testBit d)).map (fun _ => imageCode len l)
    let code := (codes.find? (· ≠ 2)).getD (if Config.gladesAgree n then 2 else 7)
    if code ≠ 2 then updBoot w (fun b => { b with code := code })
    else
      let h := (Config.sha256 (l.take (64 + sliceNat l 8 8))).toNat
      let w := updBoot w (fun b => { b with
        code := 2, svn := sliceNat l 4 4
        meas := #v[w64 h, w64 (h / 2 ^ 64), w64 (h / 2 ^ 128), w64 (h / 2 ^ 192)] })
      ((List.range 4).filter (fun d => b.mgmt.testBit d)).foldl
        (fun w d => startMgmt w d 0 2 0 (w64 (64 + sliceNat l 16 8))) w

/-- BOOT_VERIFY_DONE (R451). -/
def execBootVerifyDone (s : State) : Out3 := commit s verifyDone

/-- BOOTSTAT. -/
def bootStat (b : Boot) : Word := w64 (b.svn % 2 ^ 32 * 2 ^ 32 + b.code)

/-- What a host read of the boot window returns at an offset: STATUS, and nothing once CODE is 2 (R450). -/
def bootRead (b : Boot) (off : Nat) : Word := if off = 0xF18 ∧ b.code ≠ 2 then bootStat b else 0

/-! ## Partition measurements (R452, R457) -/

/-- A write of PMLOCK; 0 also zeroes PMEAS. -/
def writePmlock (w : Work) (v : Word) : Work :=
  updPart w w.ctl.boot.pmsel (fun P =>
    if v.getLsbD 0 then { P with pmlock := true } else { P with pmlock := false, pmeas := Vector.replicate 4 0 })

/-- PMLOCK_WRITE (R452). -/
def execPmlockWrite (v : BitVec 64) (s : State) : Out3 := commit s (fun w => writePmlock w v)

/-- Writes of PMEAS are ignored while LOCK is 1. -/
def writePmeas (w : Work) (k : Nat) (v : Word) : Work :=
  updPart w w.ctl.boot.pmsel (fun P => if P.pmlock then P else { P with pmeas := P.pmeas.setIfInBounds k v })

/-! ## Attestation (R454, R455) -/

/-- READY k (R457). -/
def readyWord (c : Ctl) (k : Nat) : Word :=
  if k < 4 then (c.boot.glades.toList[k]?).getD 0
  else if k = 4 then
    w64 (b2n (pkgReady c) * 2 ^ 63 + c.boot.refs % 4 * 2 ^ 48 + c.boot.mgmt % 16 * 2 ^ 40 + c.boot.villum % 16 * 2 ^ 35 +
      c.boot.ports % 2 ^ 19 * 2 ^ 16 + c.boot.hbms % 4096)
  else 0

/-- The fields of a report that are signed, as they stand (R455). -/
def reportBody (c : Ctl) (p : Nat) : List Byte :=
  let P := partOf c p
  natLe 4 0x415A5452 ++ natLe 4 c.boot.svn ++ natLe 8 c.sec.nonce0.toNat ++ natLe 8 c.sec.nonce1.toNat ++
  (c.boot.meas.toList.map (fun v => natLe 8 v.toNat)).flatten ++ (P.pmeas.toList.map (fun v => natLe 8 v.toNat)).flatten ++
  natLe 1 p ++ natLe 1 (b2n P.pmlock) ++ natLe 6 0 ++ ((List.range 5).map (fun k => natLe 8 (readyWord c k).toNat)).flatten

/-- A write of ATTCMD with GO: the fields are captured; ignored while a report is in progress. -/
def attGo (w : Work) (v : Word) : Work :=
  if v.getLsbD 63 = false ∨ w.ctl.sec.attBusy.isSome = true then w
  else updSec w (fun x => { x with attBusy := some (reportBody w.ctl (v.toNat % 32)), attDone := false })

/-- ATTCMD_GO (R455). -/
def execAttcmdGo (v : BitVec 64) (s : State) : Out3 := commit s (fun w => attGo w v)

/-- The report is written and DONE set, or RESULT says why not (R454, R455, R457). (DEDUCED, log entry 45.) -/
def attDone (w : Work) : Work :=
  match w.ctl.sec.attBusy with
  | none => w
  | some l =>
    let w := updSec w (fun x => { x with attBusy := none })
    let a := w.ctl.sec.attaddr.toNat
    if !w.ctl.boot.idValid then updSec w (fun x => { x with attRes := 2 })
    else if capacity w.ctl < a + 7992 then updSec w (fun x => { x with attRes := 1 })
    else
      let w := writeBytes w 0 0 (pkgNo w.ctl * 2 ^ 44 + a) (l ++ (List.range 7856).map (Config.slhSign l))
      updSec w (fun x => { x with attRes := 0, attDone := true })

/-- ATTEST_REPORT_DONE (R455). -/
def execAttestReportDone (s : State) : Out3 := commit s attDone

/-- ATTSTAT. -/
def attStat (x : Secure) : Word := w64 (b2n x.attBusy.isSome * 2 ^ 63 + b2n x.attDone * 2 ^ 62 + x.attRes)

/-! ## Memory keys (R456, R457) -/

/-- KDATA: the word WORD names, which then goes on modulo 8. -/
def writeKdata (w : Work) (v : Word) : Work :=
  updSec w (fun x =>
    let k := x.ksel.toNat % 8
    { x with kdata := x.kdata.setIfInBounds k v, ksel := w64 (x.ksel.toNat / 8 * 8 + (k + 1) % 8) })

/-- KDATA_WRITE (R457). -/
def execKdataWrite (v : BitVec 64) (s : State) : Out3 := commit s (fun w => writeKdata w v)

def kselId (x : Secure) : Nat := bits x.ksel.toNat 27 16

/-- KCMD: refused for key ID 0, ignored while busy; the key changes when the command completes. -/
def keyCommand (w : Work) (v : KeyVal) : Work :=
  let x := w.ctl.sec
  if x.kBusy.isSome then w
  else if kselId x = 0 then updSec w (fun x => { x with kRes := 1 })
  else updSec w (fun x => { x with kBusy := some (kselId x, v) })

/-- The key KDATA holds: data key in words 0 to 3, tweak key in words 4 to 7. -/
def kdataKey (x : Secure) : KeyVal :=
  .installed (BitVec.ofNat 512 ((List.range 8).foldl (fun v i => v + ((x.kdata.toList[i]?).getD 0).toNat * 2 ^ (64 * i)) 0))

/-- KCMD 1. (DEDUCED, log entry 41.) -/
def keyInstall (w : Work) : Work := keyCommand w (kdataKey w.ctl.sec)
/-- KCMD 2. -/
def keyRandom (w : Work) : Work :=
  if w.ctl.sec.kBusy.isSome ∨ kselId w.ctl.sec = 0 then keyCommand w (.fresh w.ctl.sec.fresh)
  else updSec (keyCommand w (.fresh w.ctl.sec.fresh)) (fun x => { x with fresh := x.fresh + 1 })

/-- A key command completes: the new key, and KDATA zeroed after an installation. -/
def keyDone (w : Work) : Work :=
  match w.ctl.sec.kBusy with
  | none => w
  | some (k, v) =>
    updSec w (fun x => { x with
      keys := Tab.set x.keys k v, kBusy := none, kRes := 0
      kdata := match v with
        | .installed _ => Vector.replicate 8 0
        | _ => x.kdata })

/-- KCMD_INSTALL (R456). -/
def execKcmdInstall (s : State) : Out3 := commit s keyInstall
/-- KCMD_RANDOM (R456). -/
def execKcmdRandom (s : State) : Out3 := commit s keyRandom
/-- KCMD_DONE (R456). -/
def execKcmdDone (s : State) : Out3 := commit s keyDone

/-- KSTAT. -/
def keyStat (x : Secure) : Word := w64 (b2n x.kBusy.isSome * 2 ^ 63 + x.kRes)

end Sys2Proof.Machine
end

