-- ==== Sys2Proof/Machine/Control.lean ====
section
/-! DEFINITION. Branches, jumps and hardware loops (R114 to R122). -/
namespace Sys2Proof.Machine

/-- A conditional branch on two registers (R115). -/
def branchOn (m : Marks) (a b : XReg) (off : BitVec 32) (p : Word → Word → Bool) (w : Work) : Work :=
  if p (rx w a) (rx w b) then goto m (branchTo (me w).pc off) w else next m w

/-- BEQ (R115). -/
def execBeq (m : Marks) (a b : XReg) (off : BitVec 32) (s : State) : Out3 :=
  commit s (branchOn m a b off (fun x y => decide (x = y)))
/-- BNE (R115). -/
def execBne (m : Marks) (a b : XReg) (off : BitVec 32) (s : State) : Out3 :=
  commit s (branchOn m a b off (fun x y => decide (x ≠ y)))
/-- BLT (R115). -/
def execBlt (m : Marks) (a b : XReg) (off : BitVec 32) (s : State) : Out3 :=
  commit s (branchOn m a b off (fun x y => x.slt y))
/-- BGE (R115). -/
def execBge (m : Marks) (a b : XReg) (off : BitVec 32) (s : State) : Out3 :=
  commit s (branchOn m a b off (fun x y => !(x.slt y)))
/-- BLTU (R115). -/
def execBltu (m : Marks) (a b : XReg) (off : BitVec 32) (s : State) : Out3 :=
  commit s (branchOn m a b off (fun x y => x.ult y))
/-- BGEU (R115). -/
def execBgeu (m : Marks) (a b : XReg) (off : BitVec 32) (s : State) : Out3 :=
  commit s (branchOn m a b off (fun x y => !(x.ult y)))

/-- Whether a load that can set FE is still to be performed (R84, R116). -/
def fePending (T : Task) : Bool := T.fl.outs.any (·.fe)

/-- BFE and BNFE (R116): the test waits for earlier loads, clears FE, and branches on what it held. -/
def branchFe (m : Marks) (off : BitVec 32) (want : Bool) (w : Work) : Work :=
  if fePending (me w) then notReady m w
  else
    let taken := decide ((me w).sys.fe = want)
    let pc := (me w).pc
    let w := updMySys w (fun s => { s with fe := false })
    if taken then goto m (branchTo pc off) w else next m w

/-- BFE (R116). -/
def execBfe (m : Marks) (off : BitVec 32) (s : State) : Out3 := commit s (branchFe m off true)
/-- BNFE (R116). -/
def execBnfe (m : Marks) (off : BitVec 32) (s : State) : Out3 := commit s (branchFe m off false)

/-- J (R117). -/
def execJ (m : Marks) (off : BitVec 32) (s : State) : Out3 := commit s (fun w => goto m (branchTo (me w).pc off) w)
/-- JAL (R117). -/
def execJal (m : Marks) (off : BitVec 32) (s : State) : Out3 :=
  commit s (fun w => goto m (branchTo (me w).pc off) (wx w m 31 ((me w).pc + 8)))
/-- JR (R118): a target that is no multiple of 8 raises MISALIGN. -/
def execJr (m : Marks) (a : XReg) (off : BitVec 32) (s : State) : Out3 :=
  commit s (fun w =>
    let t := branchTo (rx w a) off
    if t.toNat % 8 ≠ 0 then trapMisalign w m t 8 1 else goto m t w)

/-- LOOP (R119). -/
def execLoop (m : Marks) (a : XReg) (off : BitVec 32) (s : State) : Out3 :=
  commit s (fun w =>
    let n := rx w a
    let T := me w
    if 4 ≤ T.regs.loops.length then trapOwn w m 0x14 0 n 0
    else if n = 0 then goto m (branchTo T.pc off + 8) w
    else next m (updMyRegs w (fun r => { r with loops := n :: r.loops })))

/-- ENDL (R120). -/
def execEndl (m : Marks) (off : BitVec 32) (s : State) : Out3 :=
  commit s (fun w =>
    let T := me w
    match T.regs.loops with
    | [] => next m w
    | c :: rest =>
      if c.toNat ≤ 1 then next m (updMyRegs w (fun r => { r with loops := rest }))
      else goto m (branchTo T.pc off) (updMyRegs w (fun r => { r with loops := (c - 1) :: rest })))

end Sys2Proof.Machine
end

