-- ==== Sys2Proof/Machine/Spr.lean ====
section
/-! DEFINITION. The special registers (R94 to R100, R225, R230, R329, R353, R379, R397, R398, R414, R437, R446, R457): what a
read returns and what a write does, by number. Reserved bits read zero and writes of them have no effect (R6). -/
namespace Sys2Proof.Machine

/-- Some bits of a written value. -/
def keep (v : Word) (mask : Nat) : Word := v &&& w64 mask
/-- Bits [51:12] and [51:16], the layout of a bell register. -/
def mask12 : Nat := 2 ^ 52 - 2 ^ 12
def mask16 : Nat := 2 ^ 52 - 2 ^ 16
def maskBell : Nat := 2 ^ 63 + 3 * 2 ^ 32 + (2 ^ 21 - 4)
/-- LAUNCH, TASK and LGLADE of TSEL; DBGSEL adds PART. -/
def maskTsel : Nat := 255 * 2 ^ 40 + 15 * 2 ^ 32 + (2 ^ 32 - 1)
def maskDsel : Nat := maskTsel + 31 * 2 ^ 56

/-! ## Privileges (R94, R353, R397, R398, R414) -/

/-- The privilege a read needs. -/
def readPriv (n : Nat) : Nat :=
  if n < 0x140 then 0
  else if 0x188 ≤ n ∧ n ≤ 0x18C then 2
  else if n < 0x280 then 1
  else 2

/-- The registers whose write their chapter raises to P2. -/
def writeRaised : List Nat :=
  [0x108, 0x109, 0x10A, 0x10B, 0x188, 0x189, 0x18A, 0x18B, 0x18C, 0x190, 0x191, 0x192,
   0x1C0, 0x1C1, 0x1C5, 0x1E1, 0x1F0, 0x1F1, 0x1F3, 0x1F4, 0x1F5, 0x1F6, 0x1F7]

/-- The privilege a write needs. -/
def writePriv (n : Nat) : Nat :=
  if n < 0x100 then 0
  else if writeRaised.contains n then 2
  else if n < 0x200 then 1
  else 2

/-! ## Task state, 0x000 to 0x07F (R95 to R100, R230) -/

def statusWord (s : Sys) : Word :=
  w64 (s.priv * 256 + b2n s.inh * 128 + b2n s.clamp * 4 + b2n s.sat * 2 + b2n s.fe)

/-- A register of a task's own state. -/
def taskRead (tick : Nat) (T : Task) (n : Nat) : Word :=
  match n with
  | 0x000 => statusWord T.sys
  | 0x010 => T.sys.epc
  | 0x011 => T.sys.ecause
  | 0x012 => T.sys.eaddr
  | 0x013 => T.sys.eval
  | 0x014 => T.sys.tvec
  | 0x015 => T.sys.estat
  | 0x020 => T.sys.crd
  | 0x021 => T.sys.shape
  | 0x022 => w64 (T.sys.part * 2 ^ 32 + T.sys.launch)
  | 0x028 => (T.regs.loops.head?).getD 0
  | 0x029 => w64 T.regs.loops.length
  | 0x040 => w64 tick
  | 0x041 => T.regs.rng0
  | 0x042 => T.regs.rng1
  | 0x043 => w64 T.fl.bars.length
  | _ => 0

/-- A write of STATUS: FE is set to its bit, SAT and CLAMP clear where theirs is 1 (R96, R225). -/
def statusWrite (s : Sys) (v : Word) : Sys :=
  { s with fe := v.getLsbD 0, sat := s.sat && !v.getLsbD 1, clamp := s.clamp && !v.getLsbD 2 }

/-- A write of a register of a task's own state; the read-only ones stay. -/
def taskWrite (T : Task) (n : Nat) (v : Word) : Task :=
  match n with
  | 0x000 => { T with sys := statusWrite T.sys v }
  | 0x010 => { T with sys := { T.sys with epc := v &&& ~~~7#64 } }
  | 0x014 => { T with sys := { T.sys with tvec := v &&& ~~~7#64 } }
  | 0x028 =>
    (match T.regs.loops with
      | [] => T
      | _ :: r => { T with regs := { T.regs with loops := v :: r } })
  | 0x041 => { T with regs := { T.regs with rng0 := v } }
  | 0x042 => { T with regs := { T.regs with rng1 := v } }
  | _ => T

/-! ## Reads of the other ranges. `g` is the glade of the access, `p` the partition acted on, `own` the task's own -/

/-- 0x080 to 0x0BF (R329). -/
def readSpaces (c : Ctl) (g n : Nat) : Word :=
  match n with
  | 0x080 => w64 Config.flife
  | 0x081 => w64 (capacity c)
  | 0x082 => w64 (b2n c.repair.phaseAct * 2 ^ 63 + c.repair.phase % 2 ^ 32)
  | 0x083 => w64 (liveCount c * 65536 + c.repair.live % 4096)
  | 0x084 => w64 ((c.power.fxtick.toList[dieOf g]?).getD 0)
  | _ => 0

/-- 0x100 to 0x13F (R353). (DEDUCED, log entry 47.) -/
def readSched (c : Ctl) (p own launch n : Nat) : Word :=
  let P := partOf c p
  match n with
  | 0x100 =>
    (match launchOf c own launch with
      | some l => w64 (l.eprio % 16 * 256 + l.rec_.prio % 16)
      | none => 0)
  | 0x101 =>
    (match launchOf c own launch with
      | some l => if l.rec_.hasdl then w64 l.rec_.deadline else allOnes
      | none => 0)
  | 0x102 => w64 ((partOf c own).sched.next % 2 ^ 32)
  | 0x108 => w64 (P.sched.quotaDepth * 2 ^ 32 + P.sched.quotaLevel * 2 ^ 24 + P.sched.quotaGlades)
  | 0x109 => w64 P.sched.weight
  | 0x10A => w64 P.sched.quantum
  | 0x10B => w64 c.psel
  | 0x111 => w64 ((freeGlades c p []).length * 2 ^ 32 + pendingOf P % 512)
  | _ => 0

/-- The extent EXTSEL names. -/
def extSel (c : Ctl) (p : Nat) : Option Extent :=
  let v := (partOf c p).sched.extsel.toNat
  (launchOf c p (bits v 31 0)).bind (fun l => l.exts[bits v 39 32]?)

/-- 0x140 to 0x17F (R379): PTROOT, PVBASE and PVLEN of `p`, the others of `own`. -/
def readXlat (c : Ctl) (p own n : Nat) : Word :=
  let P := (partOf c p).sched
  let O := (partOf c own).sched
  let e := extSel c own
  match n with
  | 0x140 => P.ptroot
  | 0x141 => P.pvbase
  | 0x142 => P.pvlen
  | 0x144 => O.extsel
  | 0x145 => (e.map (fun e => w64 (bits e.va 51 16 * 65536 + 1))).getD 0
  | 0x146 => (e.map (fun e => w64 (e.pages % 2 ^ 32))).getD 0
  | 0x147 => (e.map (fun e => w64 (bits e.pa 51 3 * 8))).getD 0
  | 0x148 =>
    (e.map (fun e => w64 (b2n e.indexed * 2 ^ 63 + b2n e.revoked * 2 ^ 62 + b2n e.hw * 2 ^ 61 + e.perm % 8 * 2 ^ 32 +
      (if e.indexed then 0 else e.keyid % 4096 * 256 + e.tier % 4 * 64)))).getD 0
  | 0x14C => O.lfault
  | 0x14D => keep O.lfva (2 ^ 52 - 1)
  | 0x150 => w64 (O.walkerr % 2 ^ 32)
  | _ => 0

/-- The task a TSEL of `own` names. -/
def tselTask (c : Ctl) (own : Nat) : Option (Sel × Task) := findSel c own (partOf c own).trap.tsel true

/-- 0x180 to 0x1BF (R397). -/
def readTrap (c : Ctl) (p own n : Nat) : Word :=
  let P := (partOf c p).trap
  match n with
  | 0x180 => P.evbase
  | 0x181 => w64 P.evlen
  | 0x182 => P.evhead
  | 0x183 => P.evtail
  | 0x184 => P.evbell
  | 0x188 => c.mring.base
  | 0x189 => w64 c.mring.len
  | 0x18A => c.mring.head
  | 0x18B => c.mring.tail
  | 0x18C => c.mring.bell
  | 0x190 => P.ctxbase
  | 0x191 => w64 P.ctxlen
  | 0x192 => w64 P.ctxkey
  | 0x193 => P.ctxlast
  | 0x1A0 => (partOf c own).trap.tsel
  | 0x1A2 => ((tselTask c own).map (taskStat c)).getD 0
  | 0x1A3 => ((tselTask c own).map (fun q => q.2.pc)).getD 0
  | _ => 0

/-- 0x1C0 to 0x1FF (R414). SCVAL reads what was written, for the own package too, whose entry the monitor writes at boot (R411).
(DEDUCED, log entry 81.) -/
def readTen (c : Ctl) (p n : Nat) : Word :=
  let P := (partOf c p).ten
  let l := c.links
  let e := l.ethsel % 2
  match n with
  | 0x1C0 => P.pgroves
  | 0x1C1 => P.pkeys
  | 0x1C4 => P.peersel
  | 0x1C5 => Tab.getD P.peers P.peersel.toNat 0
  | 0x1C8 => w64 P.gdrops
  | 0x1C9 => P.gdlast
  | 0x1CC => P.vxsel
  | 0x1CD => Tab.getD P.vxdest (vxKey P) 0
  | 0x1D0 => P.mbring
  | 0x1D1 => P.mblen
  | 0x1D2 => P.mbtail
  | 0x1D3 => P.mbhead
  | 0x1D4 => P.mbbell
  | 0x1E0 => l.scsel
  | 0x1E1 => w64 (Tab.getD l.scval l.scsel.toNat 0)
  | 0x1E8 => l.linksel
  | 0x1E9 => linkStat c
  | 0x1F0 => l.pkgid
  | 0x1F1 => l.ethcfg
  | 0x1F2 => w64 l.ethsel
  | 0x1F3 => (l.ethmac.toList[e]?).getD 0
  | 0x1F4 => (l.ethgw.toList[e]?).getD 0
  | 0x1F5 => (l.ethip0.toList[e]?).getD 0
  | 0x1F6 => (l.ethip1.toList[e]?).getD 0
  | 0x1F7 => l.ethmap
  | _ => 0

/-- 0x200 to 0x23F (R437). -/
def readRepair (c : Ctl) (n : Nat) : Word :=
  match n with
  | 0x200 => w64 (if c.repair.phaseAct then c.repair.frontier % 2 ^ 32 else 0)
  | 0x201 => w64 (b2n c.repair.rstate * 256 + c.repair.rstack % 16)
  | 0x210 => w64 (c.elog.nextseq * 2 ^ 32 + c.elog.lost * 65536 + c.elog.recs.length)
  | 0x211 => headRec c 0
  | 0x212 => headRec c 1
  | 0x213 => headRec c 2
  | 0x214 => headRec c 3
  | 0x216 => c.elog.bell
  | 0x218 => c.elog.first
  | 0x219 => c.elog.last
  | 0x220 => w64 c.elog.ecsel
  | 0x221 => w64 (Tab.getD c.elog.counts c.elog.ecsel 0)
  | 0x228 => w64 c.repair.stksel
  | 0x229 => stkStat c
  | _ => 0

/-- 0x240 to 0x27F (R446). -/
def readPower (c : Ctl) (n : Nat) : Word :=
  let P := c.power
  match n with
  | 0x240 => w64 P.railsel
  | 0x241 => w64 (b2n (railOf c P.railsel).lowReq)
  | 0x242 => railStat c P.railsel
  | 0x243 => w64 P.cethr
  | 0x244 => w64 ((railOf c P.railsel).droop % 4 * 2 ^ 62 + (railOf c P.railsel).trips % 2 ^ 48)
  | 0x248 => w64 ((List.range 4).foldl (fun v d => v + (P.tj.toList[d]?).getD 0 % 256 * 256 ^ d) 0)
  | 0x249 => w64 P.tthr
  | 0x24A => w64 P.plimit
  | 0x24B => w64 (P.pwrnow % 65536)
  | 0x24C => w64 (b2n P.spare * 2 ^ 63 + b2n P.spareOk * 2 ^ 62 + P.failovers % 2 ^ 32)
  | 0x24D => thrStat P
  | _ => 0

/-- 0x280 to 0x2BF (R457). -/
def readBoot (c : Ctl) (n : Nat) : Word :=
  let b := c.boot
  let x := c.sec
  match n with
  | 0x280 => w64 b.readysel
  | 0x281 => readyWord c b.readysel
  | 0x282 => bootStat b
  | 0x284 => (b.meas.toList[0]?).getD 0
  | 0x285 => (b.meas.toList[1]?).getD 0
  | 0x286 => (b.meas.toList[2]?).getD 0
  | 0x287 => (b.meas.toList[3]?).getD 0
  | 0x288 => w64 b.pmsel
  | 0x289 => w64 (b2n (partOf c b.pmsel).pmlock)
  | 0x28C => ((partOf c b.pmsel).pmeas.toList[0]?).getD 0
  | 0x28D => ((partOf c b.pmsel).pmeas.toList[1]?).getD 0
  | 0x28E => ((partOf c b.pmsel).pmeas.toList[2]?).getD 0
  | 0x28F => ((partOf c b.pmsel).pmeas.toList[3]?).getD 0
  | 0x290 => w64 (b2n b.idValid * 2 ^ 63)
  | 0x294 => Config.idPub 0
  | 0x295 => Config.idPub 1
  | 0x296 => Config.idPub 2
  | 0x297 => Config.idPub 3
  | 0x298 => x.nonce0
  | 0x299 => x.nonce1
  | 0x29A => x.attaddr
  | 0x29C => attStat x
  | 0x2A0 => x.ksel
  | 0x2A3 => keyStat x
  | 0x2A8 => x.svsel
  | 0x2A9 => x.svpc
  | 0x2AB => w64 x.svRes
  | 0x2AC => x.mptroot
  | _ => 0

/-! ## The debugger's view of a task (R392, R398) -/

/-- DBGRDAT of a held task. (DEDUCED, log entry 49.) -/
def dbgData (tick : Nat) (T : Task) (sel : Word) : Word :=
  let s := sel.toNat
  if s.testBit 15 then (if bits s 27 16 < 0x80 then taskRead tick T (bits s 27 16) else 0)
  else
    let r := bits s 5 0
    if r < 32 then regX T.regs (BitVec.ofNat 5 r)
    else if r < 48 then ((regV T.regs (BitVec.ofNat 4 (r - 32))).extractLsb' (32 * bits s 11 6) 32).setWidth 64
    else 0

/-- 32-bit lane `k` of a vector register replaced. -/
def setLane32 (v : BitVec 2048) (k : Nat) (x : Word) : BitVec 2048 :=
  (v &&& ~~~((BitVec.ofNat 2048 (2 ^ 32 - 1)) <<< (32 * k))) ||| ((x.setWidth 32).setWidth 2048 <<< (32 * k))

/-- A write of DBGRDAT to a held task. -/
def dbgPut (T : Task) (sel v : Word) : Task :=
  let s := sel.toNat
  if s.testBit 15 then (if bits s 27 16 < 0x80 then taskWrite T (bits s 27 16) v else T)
  else
    let r := bits s 5 0
    if r < 32 then { T with regs := T.regs.putX (BitVec.ofNat 5 r) v }
    else if r < 48 then
      { T with regs := T.regs.putV (BitVec.ofNat 4 (r - 32)) (setLane32 (regV T.regs (BitVec.ofNat 4 (r - 32))) (bits s 11 6) v) }
    else T

/-- The glade of the selected task. -/
def dbgGlade (c : Ctl) : Option Nat :=
  match dbgTask c with
  | some (.loaded g _, _) => some g
  | _ => none

/-- 0x300 to 0x33F (R398). -/
def readDebug (c : Ctl) (n : Nat) : Word :=
  let T := (dbgTask c).map (·.2)
  let held := T.bind (fun T => if T.held.isSome then some T else none)
  let bp := fun (i : Nat) => ((T.bind (fun T => T.dbg.bpa.toList[i]?))).getD 0
  let wp := fun (i : Nat) => ((dbgGlade c).bind (fun g => (gladeOf c g).ctx.wps.toList[i]?)).getD 0
  match n with
  | 0x300 => w64 (b2n c.dbg.auth)
  | 0x301 => c.dbg.sel
  | 0x303 => (T.map (fun T => w64 (b2n T.dbg.step * 2 + b2n T.dbg.attach))).getD 0
  | 0x304 => ((dbgTask c).map (taskStat c)).getD 0
  | 0x305 => (held.map (·.pc)).getD 0
  | 0x306 => if T.isSome then c.dbg.rsel else 0
  | 0x307 => (held.map (fun T => dbgData c.tick T c.dbg.rsel)).getD 0
  | 0x308 => bp 0
  | 0x309 => bp 1
  | 0x30A => bp 2
  | 0x30B => bp 3
  | 0x30C => wp 0
  | 0x30D => wp 1
  | 0x30E => wp 2
  | 0x30F => wp 3
  | _ => 0

/-- A register beyond the task's own state, as seen from glade `g`. -/
def readFar (c : Ctl) (g p own launch n : Nat) : Word :=
  if n < 0x100 then readSpaces c g n
  else if n < 0x140 then readSched c p own launch n
  else if n < 0x180 then readXlat c p own n
  else if n < 0x1C0 then readTrap c p own n
  else if n < 0x200 then readTen c p n
  else if n < 0x240 then readRepair c n
  else if n < 0x280 then readPower c n
  else if n < 0x300 then readBoot c n
  else readDebug c n

/-! ## Writes -/

def updSched (w : Work) (p : Nat) (f : PartSched → PartSched) : Work := updPart w p (fun P => { P with sched := f P.sched })
def updTrap (w : Work) (p : Nat) (f : PartTrap → PartTrap) : Work := updPart w p (fun P => { P with trap := f P.trap })
def updMring (w : Work) (f : MonRing → MonRing) : Work := updCtl w (fun c => { c with mring := f c.mring })
def updLinks (w : Work) (f : Links → Links) : Work := updCtl w (fun c => { c with links := f c.links })
def updDbgC (w : Work) (f : DbgCtl → DbgCtl) : Work := updCtl w (fun c => { c with dbg := f c.dbg })

/-- QUOTA: a DEPTH of 0 or above 256 takes 256. -/
def depthOf (n : Nat) : Nat := if n = 0 ∨ 256 < n then 256 else n

/-- 0x100 to 0x13F (R353). -/
def writeSched (w : Work) (p n : Nat) (v : Word) : Work :=
  match n with
  | 0x108 => updSched w p (fun s => { s with
      quotaDepth := depthOf (bits v.toNat 40 32), quotaLevel := bits v.toNat 27 24, quotaGlades := bits v.toNat 8 0 })
  | 0x109 => updSched w p (fun s => { s with weight := Nat.max 1 (v.toNat % 256) })
  | 0x10A => updSched w p (fun s => { s with quantum := Nat.max 50000 (v.toNat % 2 ^ 32) })
  | 0x10B => updCtl w (fun c => { c with psel := v.toNat % 32 })
  | 0x110 => terminate w p (bits v.toNat 31 0)
  | _ => w

/-- 0x140 to 0x17F (R379). -/
def writeXlat (w : Work) (p own n : Nat) (v : Word) : Work :=
  match n with
  | 0x140 => updSched w p (fun s => { s with ptroot := keep v mask16 })
  | 0x141 => updSched w p (fun s => { s with pvbase := keep v mask16 })
  | 0x142 => updSched w p (fun s => { s with pvlen := keep v (2 ^ 32 - 1) })
  | 0x144 => updSched w own (fun s => { s with extsel := keep v (2 ^ 40 - 1) })
  | 0x14E => lresume w own v
  | _ => w

/-- EVLEN: 1 to 3 take 4, above 16 take 16. -/
def logOf (n : Nat) : Nat := if n = 0 then 0 else Nat.min 16 (Nat.max 4 n)

/-- TPC: written only while the task is held by R380 and not for the debugger. -/
def writeTpc (w : Work) (own : Nat) (v : Word) : Work :=
  match tselTask w.ctl own with
  | none => w
  | some (s, T) =>
    match T.held with
    | none => w
    | some h => if h.sup && !h.dbg then updSel w s (fun T => { T with pc := v &&& ~~~7#64 }) else w

/-- 0x180 to 0x1BF (R397). -/
def writeTrap (w : Work) (p own n : Nat) (v : Word) : Work :=
  match n with
  | 0x180 => updTrap w p (fun t => { t with evbase := keep v mask12 })
  | 0x181 => updTrap w p (fun t => { t with evlen := logOf (v.toNat % 32) })
  | 0x182 => updTrap w p (fun t => { t with evhead := keep v (2 ^ 32 - 1) })
  | 0x184 => updTrap w p (fun t => { t with evbell := keep v maskBell })
  | 0x188 => updMring w (fun t => { t with base := keep v mask12 })
  | 0x189 => updMring w (fun t => { t with len := logOf (v.toNat % 32) })
  | 0x18A => updMring w (fun t => { t with head := keep v (2 ^ 32 - 1) })
  | 0x18C => updMring w (fun t => { t with bell := keep v maskBell })
  | 0x190 => updTrap w p (fun t => { t with ctxbase := keep v mask16 })
  | 0x191 => updTrap w p (fun t => { t with ctxlen := v.toNat % 65536 })
  | 0x192 => updTrap w p (fun t => { t with ctxkey := v.toNat % 4096 })
  | 0x1A0 => updTrap w own (fun t => { t with tsel := keep v maskTsel })
  | 0x1A1 => if v.toNat % 4 = 1 then tcmdResume w own else if v.toNat % 4 = 2 then tcmdRetire w own else w
  | 0x1A3 => writeTpc w own v
  | _ => w

/-- A tier 0 address once the packages numbered `p` and `q` have exchanged their numbers (R323). -/
def renumbered (p q a : Nat) : Nat :=
  if a / 2 ^ 44 = p then q * 2 ^ 44 + a % 2 ^ 44 else if a / 2 ^ 44 = q then p * 2 ^ 44 + a % 2 ^ 44 else a

def renumberedSpan (p q : Nat) (s : KeySpan) : KeySpan :=
  { s with lo := renumbered p q (64 * s.lo) / 64, hi := renumbered p q (64 * s.lo) / 64 + (s.hi - s.lo) }

/-- The package takes the number `q` in place of `p` (R323, R414): its memory, and what is on its way there, bears the new number,
and a package that bore it bears the old one. (DESIGN CHOICE, log entry 82.) -/
def renumber (w : Work) (p q : Nat) : Work :=
  if p = q then w
  else
    let own := cellsIn w (p * 2 ^ 44) (2 ^ 44)
    let other := cellsIn w (q * 2 ^ 44) (2 ^ 44)
    let w := putCells (putCells ((w.clear (p * 2 ^ 44) (2 ^ 44)).clear (q * 2 ^ 44) (2 ^ 44)) (q * 2 ^ 44) own) (p * 2 ^ 44) other
    let l := fun (us : List Nat) => us.foldl (fun l u => insNat l (renumbered p q u)) []
    updCtl w (fun c => mapReqs { c with marks :=
      { poison := l c.marks.poison, latent := l c.marks.latent, soft := l c.marks.soft
        spans := c.marks.spans.map (renumberedSpan p q) } } (fun r => { r with addr := renumbered p q r.addr }))

/-- PKGID (R414). -/
def writePkgid (w : Work) (v : Word) : Work :=
  let p := pkgNo w.ctl
  let w := updCtl w (fun c => { c with links := { c.links with pkgid := keep v (0x7FF * 2 ^ 32 + 0xFF * 2 ^ 24) } })
  renumber w p (pkgNo w.ctl)

/-- 0x1C0 to 0x1FF (R414). -/
def writeTen (w : Work) (p n : Nat) (v : Word) : Work :=
  let e := w.ctl.links.ethsel % 2
  match n with
  | 0x1C0 => writePgroves w p v
  | 0x1C1 => writePkeys w p v
  | 0x1C4 => updTen w p (fun t => { t with peersel := keep v 63 })
  | 0x1C5 => updTen w p (fun t => { t with
      peers := Tab.set t.peers t.peersel.toNat (keep v (2 ^ 63 + 0x7FF * 2 ^ 32 + 0xFF * 2 ^ 24 + 31)) })
  | 0x1CC => updTen w p (fun t => { t with vxsel := keep v (2 ^ 37 - 1) })
  | 0x1CD => writeVxdest w p v
  | 0x1D3 => updTen w p (fun t => { t with mbhead := keep v (2 ^ 32 - 1) })
  | 0x1D4 => updTen w p (fun t => { t with mbbell := keep v maskBell })
  | 0x1D5 => writeMbresp w p v
  | 0x1E0 => updLinks w (fun l => { l with scsel := keep v 255 })
  | 0x1E1 => updLinks w (fun l => { l with scval := Tab.set l.scval l.scsel.toNat (v.toNat % 8) })
  | 0x1E8 => updLinks w (fun l => { l with linksel := keep v 31 })
  | 0x1F0 => writePkgid w v
  | 0x1F1 => updLinks w (fun l => { l with ethcfg := keep v (2 ^ 17 - 1) })
  | 0x1F2 => updLinks w (fun l => { l with ethsel := v.toNat % 2 })
  | 0x1F3 => updLinks w (fun l => { l with ethmac := l.ethmac.setIfInBounds e (keep v (2 ^ 48 - 1)) })
  | 0x1F4 => updLinks w (fun l => { l with ethgw := l.ethgw.setIfInBounds e (keep v (2 ^ 48 - 1)) })
  | 0x1F5 => updLinks w (fun l => { l with ethip0 := l.ethip0.setIfInBounds e v })
  | 0x1F6 => updLinks w (fun l => { l with ethip1 := l.ethip1.setIfInBounds e v })
  | 0x1F7 => writeEthmap w v
  | _ => w

/-- 0x200 to 0x23F (R437). -/
def writeRepair (w : Work) (n : Nat) (v : Word) : Work :=
  match n with
  | 0x215 => popLog w
  | 0x216 => updElog w (fun e => { e with bell := keep v maskBell })
  | 0x218 => clearFirst w
  | 0x220 => updElog w (fun e => { e with ecsel := v.toNat % 16 })
  | 0x228 => updRepair w (fun r => { r with stksel := v.toNat % 16 })
  | _ => w

/-- 0x240 to 0x27F (R446). -/
def writePower (w : Work) (n : Nat) (v : Word) : Work :=
  match n with
  | 0x240 => updPower w (fun P => { P with railsel := v.toNat % 256 })
  | 0x241 => railRequest w w.ctl.power.railsel (v.getLsbD 0)
  | 0x243 => updPower w (fun P => { P with cethr := v.toNat % 65536 })
  | 0x249 => updPower w (fun P => { P with tthr := Nat.min 94 (Nat.max 70 (v.toNat % 256)) })
  | 0x24A => updPower w (fun P => { P with plimit := Nat.min 3200 (Nat.max 1000 (v.toNat % 65536)) })
  | _ => w

/-- SVCMD (R453). -/
def writeSvcmd (w : Work) (v : Word) : Work :=
  match v.toNat % 4 with
  | 1 => svStart w 1
  | 2 => svStart w 2
  | 3 => svRetire w
  | _ => w

/-- KCMD (R456). -/
def writeKcmd (w : Work) (v : Word) : Work :=
  match v.toNat % 4 with
  | 1 => keyInstall w
  | 2 => keyRandom w
  | _ => w

/-- 0x280 to 0x2BF (R457). -/
def writeBoot (w : Work) (n : Nat) (v : Word) : Work :=
  match n with
  | 0x280 => updBoot w (fun b => { b with readysel := v.toNat % 8 })
  | 0x288 => updBoot w (fun b => { b with pmsel := v.toNat % 32 })
  | 0x289 => writePmlock w v
  | 0x28C => writePmeas w 0 v
  | 0x28D => writePmeas w 1 v
  | 0x28E => writePmeas w 2 v
  | 0x28F => writePmeas w 3 v
  | 0x298 => updSec w (fun x => { x with nonce0 := v })
  | 0x299 => updSec w (fun x => { x with nonce1 := v })
  | 0x29A => updSec w (fun x => { x with attaddr := keep v (2 ^ 52 - 2 ^ 6) })
  | 0x29B => attGo w v
  | 0x2A0 => updSec w (fun x => { x with ksel := keep v (0xFFF * 2 ^ 16 + 7) })
  | 0x2A1 => writeKdata w v
  | 0x2A2 => writeKcmd w v
  | 0x2A8 => updSec w (fun x => { x with svsel := keep v (3 * 2 ^ 32 + 31 * 256 + 15) })
  | 0x2A9 => updSec w (fun x => { x with svpc := v &&& ~~~7#64 })
  | 0x2AA => writeSvcmd w v
  | 0x2AC => writeMptroot w v
  | _ => w

/-- A change of the selected task, or of it while it is held. -/
def onDbg (w : Work) (f : Task → Task) : Work :=
  match dbgTask w.ctl with
  | some (s, _) => updSel w s f
  | none => w
def onHeld (w : Work) (f : Task → Task) : Work := onDbg w (fun T => if T.held.isSome then f T else T)

def setBp (w : Work) (i : Nat) (v : Word) : Work :=
  onDbg w (fun T => { T with dbg := { T.dbg with bpa := T.dbg.bpa.setIfInBounds i (keep v (2 ^ 52 - 8 + 1)) } })
def setWp (w : Work) (i : Nat) (v : Word) : Work :=
  match dbgGlade w.ctl with
  | some g => updCtx w g (fun x => { x with
      wps := x.wps.setIfInBounds i (keep v (2 ^ 63 + (2 ^ 53 - 2 ^ 32) + (2 ^ 21 - 1))) })
  | none => w

/-- DBGCMD (R391). -/
def writeDbgcmd (w : Work) (v : Word) : Work :=
  match v.toNat % 4 with
  | 1 => dbgHalt w
  | 2 => dbgResume w
  | 3 => dbgStep w
  | _ => w

/-- 0x300 to 0x33F (R398). -/
def writeDebug (w : Work) (n : Nat) (v : Word) : Work :=
  match n with
  | 0x300 => updDbgC w (fun d => { d with auth := v.getLsbD 0 })
  | 0x301 => updDbgC w (fun d => { d with sel := keep v maskDsel })
  | 0x302 => writeDbgcmd w v
  | 0x303 => onDbg w (fun T => { T with dbg := { T.dbg with step := v.getLsbD 1, attach := v.getLsbD 0 } })
  | 0x305 => onHeld w (fun T => { T with pc := v &&& ~~~7#64 })
  | 0x306 => if (dbgTask w.ctl).isSome then updDbgC w (fun d => { d with rsel := keep v (0xFFF * 2 ^ 16 + 2 ^ 15 + (2 ^ 12 - 1)) }) else w
  | 0x307 => onHeld w (fun T => dbgPut T w.ctl.dbg.rsel v)
  | 0x308 => setBp w 0 v
  | 0x309 => setBp w 1 v
  | 0x30A => setBp w 2 v
  | 0x30B => setBp w 3 v
  | 0x30C => setWp w 0 v
  | 0x30D => setWp w 1 v
  | 0x30E => setWp w 2 v
  | 0x30F => setWp w 3 v
  | _ => w

/-- A write beyond the task's own state. -/
def writeFar (w : Work) (p own n : Nat) (v : Word) : Work :=
  if n < 0x100 then w
  else if n < 0x140 then writeSched w p n v
  else if n < 0x180 then writeXlat w p own n v
  else if n < 0x1C0 then writeTrap w p own n v
  else if n < 0x200 then writeTen w p n v
  else if n < 0x240 then writeRepair w n v
  else if n < 0x280 then writePower w n v
  else if n < 0x300 then writeBoot w n v
  else writeDebug w n v

/-! ## SPRR and SPRW (R225) -/

/-- The value an SPRR of the issuing task writes. -/
def sprValue (w : Work) (n : Nat) : Word :=
  let T := me w
  if n < 0x80 then taskRead w.ctl.tick T n else readFar w.ctl (curG w) (actPart w) T.sys.part T.sys.launch n

/-- SPRR: PRIV with DETAIL 1 below the register's privilege; STATUS waits for the loads that can set FE, BARCNT for the barrier
operations in flight (R84). -/
def execSprr (m : Marks) (d : XReg) (spr : BitVec 12) (s : State) : Out3 :=
  commit s (fun w =>
    let n := spr.toNat
    if (me w).sys.priv < readPriv n then trapPriv w m (wordOf (.sprr m d spr)) 1
    else if (n = 0 ∧ fePending (me w) = true) ∨ (n = 0x43 ∧ resultsPending (me w) = true) then notReady m w
    else next m (wx w m d (sprValue w n)))

/-- What an SPRW of the issuing task does. -/
def sprPut (w : Work) (n : Nat) (v : Word) : Work :=
  if n < 0x80 then updMe w (fun T => taskWrite T n v) else writeFar w (actPart w) (me w).sys.part n v

/-- SPRW: PRIV with DETAIL 2 below the register's privilege. -/
def execSprw (m : Marks) (spr : BitVec 12) (a : XReg) (s : State) : Out3 :=
  commit s (fun w =>
    let n := spr.toNat
    if (me w).sys.priv < writePriv n then trapPriv w m (wordOf (.sprw m spr a)) 2
    else if n = 0 ∧ fePending (me w) = true then notReady m w
    else next m (sprPut w n (rx w a)))

/-! ## The debug port (R389, R390) -/

/-- The glade whose task an access of the port acts as. -/
def portGlade (c : Ctl) : Nat :=
  mgmtOf (((List.range 4).find? (fun d => c.boot.mgmt.testBit d)).getD 0)

/-- Whether the port reaches a register: the task's own state is reached through the selection. -/
def portReg (n : Nat) : Bool := decide (0x80 ≤ n) && (sprNumbers.contains n)

/-- An operation starts, unless one is in progress. (DEDUCED, log entry 48.) -/
def portStart (w : Work) (f : Work → Nat × Work) : Work :=
  if w.ctl.dbg.pbusy then w
  else
    let (r, w) := f w
    updDbgC w (fun d => { d with pbusy := true, pres := r })

def portData (w : Work) (v : Word) : Work := updDbgC w (fun d => { d with pdata := v })

/-- OP 1: a read of a register. -/
def portRead (n : Nat) (w : Work) : Nat × Work :=
  if !w.ctl.dbg.auth then (1, portData w 0)
  else if portReg n then (0, portData w (readFar w.ctl (portGlade w.ctl) w.ctl.psel 0 0 n))
  else (2, w)

/-- OP 2: a write of PDATA's value. The port cannot write DBGAUTH. -/
def portWrite (n : Nat) (w : Work) : Nat × Work :=
  if !w.ctl.dbg.auth then (1, w)
  else if portReg n && decide (n ≠ 0x300) then (0, writeFar w w.ctl.psel 0 n w.ctl.dbg.pdata)
  else (2, w)

/-- OP 3 and 4: a hold by PARG. -/
def portHold (on : Bool) (w : Work) : Nat × Work :=
  if !w.ctl.dbg.auth then (1, w)
  else
    let arg := w.ctl.dbg.parg.toNat
    let g := arg % 256
    let (r, w) := arcHold w g (bits arg 44 32) on
    (r, if on then w else wakeVcAll w g)

/-- A write of PCMD: the operation of its OP, or RESULT 3 (R390). -/
def portCommand (w : Work) (op n : Nat) : Work :=
  portStart w (fun w => match op with
    | 1 => portRead n w
    | 2 => portWrite n w
    | 3 => portHold true w
    | 4 => portHold false w
    | _ => (3, w))

/-- A write of PARG, where there is one, and of PCMD, where `op` is one. -/
def portArg (w : Work) (arg : Option Word) (op : Option Nat) : Work :=
  let w := match arg with
    | some v => updDbgC w (fun d => { d with parg := v })
    | none => w
  match op with
  | some k => portCommand w k 0
  | none => w

/-- PORT_SPR_READ (R390). -/
def execPortSprRead (cmd : PcmdWrite) (s : State) : Out3 := commit s (fun w => portCommand w cmd.op.toNat cmd.spr.toNat)

/-- PORT_SPR_WRITE (R390): PDATA may be written at any time, BUSY or not. -/
def execPortSprWrite (pdata : Option (BitVec 64)) (spr : Option (BitVec 12)) (s : State) : Out3 :=
  commit s (fun w =>
    let w := match pdata with
      | some v => portData w v
      | none => w
    match spr with
    | some n => portCommand w 2 n.toNat
    | none => w)

/-- PORT_HOLD_SET (R390). -/
def execPortHoldSet (x : PargWrite) (s : State) : Out3 :=
  commit s (fun w => portArg w x.parg (if x.go then some 3 else none))
/-- PORT_HOLD_REL (R390). -/
def execPortHoldRel (x : PargWrite) (s : State) : Out3 :=
  commit s (fun w => portArg w x.parg (if x.go then some 4 else none))

/-- The operation in progress ends: BUSY clears and PF1's vector 0 is raised. -/
def portDone (w : Work) : Work :=
  updDbgC w (fun d => if d.pbusy then { d with pbusy := false, pfIrq := d.pfIrq + 1 } else d)

/-- PORT_OP_COMPLETE (R390). -/
def execPortOpComplete (s : State) : Out3 := commit s portDone

end Sys2Proof.Machine
end

