-- ==== Sys2Proof/Machine/System.lean ====
section
/-! DEFINITION. TRAP, BKPT, RTE, LAUNCH and LWAIT (R224, R226). -/
namespace Sys2Proof.Machine

/-- TRAP (R224): TRAPI after commit. -/
def execTrap (m : Marks) (imm : BitVec 28) (s : State) : Out3 :=
  commit s (fun w => trapAfter w m 0xD 0 (imm.setWidth 64))

/-- BKPT (R224): after commit, EADDR its own address. -/
def execBkpt (m : Marks) (imm : BitVec 28) (s : State) : Out3 :=
  commit s (fun w => trapAfter w m 0xE (me w).pc (imm.setWidth 64))

/-- RTE (R103, R224): ILLEGAL outside a handler; results still to be written come first (R85). -/
def execRte (m : Marks) (s : State) : Out3 :=
  commit s (fun w =>
    if !(me w).sys.inh then trapOwn w m 1 0 (wordOf (.rte m)) 7
    else if resultsPending (me w) then notReady m w
    else returnFromTrap w m)

/-! ## LAUNCH (R226, R330, R332) -/

/-- The bytes of a launch record. -/
def recordBytes : Nat := 2432

/-- The pieces of a record, 64 bytes each, as translated now. -/
def recordPlaces (w : Work) (va : Nat) : List (Except XErr Xlate) :=
  (List.range 38).map (fun i => (checkDev w (curG w) (curT w) (va + 64 * i) .read).1)

def recordReq (w : Work) (va : Nat) (x : Xlate) : Req := mkReq w 0 .dev va x (.read 64) 0

/-- Whether every piece can be read now: its home answers at once, or its translation met an error. -/
def recordOpen (w : Work) (va : Nat) (ps : List (Except XErr Xlate)) : Bool :=
  (List.range 38).zip ps |>.all (fun q =>
    match q.2 with
    | .ok x => homeOpen w.ctl (recordReq w (va + 64 * q.1) x)
    | .error .wait => false
    | .error _ => true)

/-- The record's bytes, or the first piece that cannot be read: its address, location and DETAIL (R98, R434, R465). -/
def readRecord (w : Work) : List (Except XErr Xlate) → Nat → Except (Nat × Nat × Nat) (List Byte) × Work
  | [], _ => (.ok [], w)
  | .error (.memunc a d) :: _, va => (.error (va, a, d), (checkRead w a 8).1)
  | .error _ :: r, va => readRecord w r (va + 64)
  | .ok x :: r, va =>
    match homeVerdict w.ctl (recordReq w va x) with
    | some .vacated => (.error (va, x.addr, 3), logEvent w 48 11 x.addr (me w).sys.launch false)
    | some .lost => (.error (va, x.addr, 2), w)
    | _ =>
      let (w, f) := checkRead w x.addr 64
      if f.bad then (.error (va, x.addr, foundDetail f), w)
      else
        let bs := readBytes w x.key x.addr 64
        match readRecord w r (va + 64) with
        | (.ok l, w) => (.ok (bs ++ l), w)
        | (.error e, w) => (.error e, w)

/-- The walk of a record's pages, for what it does to the translation caches. -/
def touchRecord (w : Work) (va : Nat) : Work :=
  (checkDev (checkDev w (curG w) (curT w) va .read).2 (curG w) (curT w) (va + recordBytes - 1) .read).2

/-- LAUNCH decides on the record it has read. -/
def launchDecide (m : Marks) (d : XReg) (l : List Byte) (w : Work) : Work :=
  let p := (me w).sys.part
  match launchAnswer (partOf w.ctl p) (me w).sys.priv (dwords l) with
  | .error r => next m (wx w m d (w64 (2 ^ 63 + r)))
  | .ok r =>
    let (n, w) := acceptLaunch w p r
    next m (wx w m d (w64 n))

/-- LAUNCH (R226). Earlier stores of the task come first, as they would for any read of its own.
(DEDUCED, log entry 69.) -/
def execLaunch (m : Marks) (d a : XReg) (s : State) : Out3 :=
  commit s (fun w =>
    let va := (rx w a).toNat
    if va % 64 ≠ 0 then trapMisalign w m (rx w a) recordBytes 2
    else
      let hi := va + recordBytes
      match lowest ((rangeFault w .read false hi 3 va).toList), lowest ((rangeFault w .read true hi 3 va).toList) with
      | some t, _ | none, some t => if t.code = 0 then notReady m w else trapC w m { code := t.code, epc := (me w).pc, eaddr := t.eaddr, eval := t.eval, detail := t.detail, bundle := false }
      | none, none =>
        let w := touchRecord w va
        let ps := recordPlaces w va
        if (me w).fl.sq ≠ [] ∨ resultsPending (me w) = true ∨ recordOpen w va ps = false then notReady m w
        else
          match readRecord w ps va with
          | (.error (ea, addr, dt), w) =>
            let w := if dt < 2 then logEvent w (chanOf w.ctl addr) 2 (errAddr addr) (me w).sys.launch false else w
            trapOwn w m 0xB (w64 ea) 0 dt
          | (.ok l, w) => launchDecide m d l w)

/-- LWAIT (R226, R352): the completion word at once, or a sleep; the sleeper's launch lends its level (R336). -/
def execLwait (m : Marks) (d a : XReg) (s : State) : Out3 :=
  commit s (fun w =>
    let p := (me w).sys.part
    let n := (rx w a).toNat
    match lwaitWord (partOf w.ctl p) n with
    | some v => next m (wx w m d v)
    | none =>
      if resultsPending (me w) then notReady m w
      else setPriorities (next m (updMe w (fun T => fallAsleep T (.lwait n d.toNat)))) p)

end Sys2Proof.Machine
end

