-- ==== Sys2Proof/Machine/Background.lean ====
section
/-! DEFINITION. What acts without an instruction: one sweep of the agents takes every step of theirs that is enabled, one
each, in one order of the many the manual allows (R285); and the tick of the timebase. -/
namespace Sys2Proof.Machine

/-- Fold a step over a list of numbers. -/
def sweep (l : List Nat) (f : Work → Nat → Work) (w : Work) : Work := l.foldl f w

/-- The task steps of one glade: wakes, trap entries, drains. -/
def sweepTasks (w : Work) (g : Nat) : Work :=
  sweep ((gladeOf w.ctl g).ctx.tasks.map (·.1)) (fun w t =>
    drainStep (loadStep (leaveStep (deliverPend (monitorDeadline (wakeSleeper (wakeWait w g t) g t) g t) g t) g t) g t) g t) w

/-- The queues of one glade. -/
def sweepQueues (w : Work) (g : Nat) : Work :=
  let w := rmqDispatch (rmqArrive w g) g
  let w := sweep ((gladeOf w.ctl g).banks.map (·.1)) (fun w b => bankStep w g b) w
  let w := sweep ((gladeOf w.ctl g).returns.map (·.1)) (fun w from_ => creditReceive w from_ g) w
  sweep ((gladeOf w.ctl g).ctx.eng.fences.map (·.id)) (fun w id => releaseFence w g id) w

/-- The engines and stream classes of one glade: Begin, one access, Complete (R294). -/
def sweepEngines (w : Work) (g : Nat) : Work :=
  allQueues.foldl (fun w q =>
    sweep ((cmdsOf w.ctl g q).map (·.id)) (fun w id => engComplete (accessAny (beginAny w g q id) g q id) g q id) w) w

/-- The thicket of one glade: the configuration port, the block scheduler, one beat of the active plane. -/
def sweepThicket (w : Work) (g : Nat) : Work :=
  let w := if (gladeOf w.ctl g).halted then w else cfgStep w g
  let w := schedulePlane w g
  match activePlane w.ctl g with
  | none => w
  | some p => sweep ((liveElems (planeOf w.ctl g p)).map (·.1)) (fun w e => fireAny w g e) w

/-- The spill rings of one glade. -/
def sweepVcs (w : Work) (g : Nat) : Work :=
  if (gladeOf w.ctl g).owner.isNone then w
  else sweep (List.range 32) (fun w v => reinject (backPressure w g v) g v) w

/-- The collective rounds of one glade that wait for time. -/
def sweepColl (w : Work) (g : Nat) : Work :=
  sweep ((gladeOf w.ctl g).ctx.eng.groups.map (·.1)) (fun w k =>
    resultTimeout (reportEnd (probeEnd (probeSend (roundTimeout w g k) g k) g k) g k) g k) w

/-- Everything of one glade. A pass-over count goes to zero with the candidacy that an engine or a stream ends (R255). -/
def sweepGlade (w : Work) (g : Nat) : Work :=
  let w := sweepQueues (sweepTasks (stopGlade w g) g) g
  let w := settlePassed (sweepEngines (settlePassed w g) g) g
  settlePassed (sweepColl (sweepVcs (sweepThicket w g) g) g) g

/-- Every hop and bridge of the package, the words of virtual channels and the collective messages on their way. -/
def sweepNet (w : Work) : Work :=
  let w := w.ctl.net.fly.foldl (fun w f => match f.hop with
    | none => vcArrive w f.dst f.dvc
    | some h => if hopReqs w.ctl.net h (.glade f.dst) = [] then hopStep w h (.glade f.dst) else w) w
  let w := w.ctl.net.colls.foldl (fun w f => collHop w f.hop f.home) w
  let w := w.ctl.net.hops.foldl (fun w q => hopStep w q.hop q.home) w
  let w := sweep (w.ctl.net.bridges.map (·.1)) bridgeStep w
  let w := sweep (w.ctl.net.bridges.map (·.1)) replayStep w
  sweep (w.ctl.net.bridges.map (·.1)) holdStep w

/-- The launches of a partition: rotation, quanta, priorities, the evaluation; and groves that come or go (R336, R400). -/
def sweepPart (w : Work) (p : Nat) : Work :=
  let w := sweep (List.range 32) (fun w gr => dropGrove w p gr) (takeGroves w p)
  let w := sweep ((partOf w.ctl p).launches.map (·.1)) (fun w n => quantumEnd (rotate w p n) p n) w
  evaluate (if (partOf w.ctl p).launches = [] then w else setPriorities w p) p

/-- The rings that have records waiting. -/
def sweepRings (w : Work) : Work :=
  (w.ctl.net.events.map (·.ring)).foldl (fun w r => eventWrite w r) w

/-- One sweep of every agent. With every reference lost none of them acts (R448). -/
def background (w : Work) : Work :=
  if w.ctl.power.lostRef then w
  else
    let w := sweep (w.ctl.glades.map (·.1)) sweepGlade w
    let w := sweepNet w
    let w := sweep (w.ctl.parts.map (·.1)) sweepPart w
    portDone (keyDone (attDone (verifyDone (copyUnit (sweepRings (serve w))))))

/-! ## The timebase (R27, R395, R438, R439) -/

/-- Whether a slot may try its next instruction: runnable, not held, no cause on its way, and nothing it must wait for
by R81 and R394. (DESIGN CHOICE, log entry 22.) -/
def slotRuns (G : Glade) (T : Task) : Bool :=
  decide (T.run = .runnable) && T.wait.isNone && T.held.isNone && T.pend.isNone && !G.halted && G.power.changing.isNone &&
  T.fl.outs.all (fun o => o.store || decide (0 < o.gap)) &&
  (G.ctx.wps.toList.all (fun r => !r.getLsbD 63) ||
    T.fl.outs.all (fun o => !(o.store || o.atom) || decide (o.sp ≠ .scr)))

/-- What one tick adds to a task's counters (R395): loaded, sleeping or held, ready and not issuing.
(DESIGN CHOICE, log entry 22.) -/
def tickTask (G : Glade) (T : Task) : Task :=
  if T.dbg.ctrEvent = Vector.replicate 8 0 ∨ T.run = .free ∨ (T.run = .retired ∧ G.owner = none) then T
  else
    let D := bumpList 10 1 T.dbg 8
    let asleep := match T.run with
      | .sleeping _ => true
      | _ => false
    let D := if asleep || T.held.isSome then bumpList 3 1 D 8 else if slotRuns G T then bumpList 2 1 D 8 else D
    { T with dbg := D }

/-- What a tick's yield point or dispatch allowed is over with it (R342). -/
def notYielded (P : Part) : Part :=
  if P.launches.any (·.2.yielded) then { P with launches := P.launches.map (fun l => (l.1, { l.2 with yielded := false })) } else P

/-- TICK advances by one, as a 64-bit count (R1): the rails are evaluated where the tick that ends was a window's first (R439, R440),
counters count, rail changes end. A package without a reference has no tick (R448). (DESIGN CHOICE, log entry 21.) -/
def tick (w : Work) : Work :=
  if w.ctl.power.lostRef then w
  else
    let w := updCtl (logFlush (evalRails w)) (fun c => { c with
      tick := (c.tick + 1) % 2 ^ 64
      links := { c.links with seen := c.links.up.foldl insNat c.links.seen }
      parts := c.parts.map (fun q => (q.1, notYielded q.2))
      glades := c.glades.map (fun q => (q.1, { q.2 with ctx :=
        { q.2.ctx with tasks := q.2.ctx.tasks.map (fun x => (x.1, tickTask q.2 x.2)) } })) })
    enterWindow (sweep (w.ctl.glades.map (·.1)) railDone w)

/-- TICK (R27). -/
def execTick (s : State) : Out3 := commit s tick

end Sys2Proof.Machine
end

