-- ==== Sys2Proof/Machine/Access.lean ====
section
/-! DEFINITION. Scalar loads and stores (R123 to R131), vector loads and stores (R134 to R136), gathers and scatters
(R137 to R141). -/
namespace Sys2Proof.Machine

/-- LD (R123 to R125): `n` bytes, zero-extended into x[T]. -/
def loadX (m : Marks) (t a : XReg) (sp : Space) (ord : Order) (off : BitVec 30) (n : Nat) (w : Work) : Work :=
  let ea := rx w a + off.signExtend 64
  match locate w sp ea n n .read with
  | (.error e, w) => trapWith w m e
  | (.ok x, w) => loadFrom w m (.x t.toNat) sp ea.toNat x n n (isAcq ord)

/-- ST (R123, R126): the low `n` bytes of x[T]. -/
def storeX (m : Marks) (t a : XReg) (sp : Space) (sc : BitVec 3) (ord : Order) (off : BitVec 30) (n : Nat) (w : Work) : Work :=
  let ea := rx w a + off.signExtend 64
  match locate w sp ea n n .write with
  | (.error e, w) => trapWith w m e
  | (.ok x, w) =>
    commitStore w m (if isRel ord then some sc.toNat else none)
      (storePieces w (curId w) sp ea.toNat x (natLe n (rx w t).toNat) n)

/-- LD.B. -/
def execLdB (m : Marks) (t a : XReg) (sp : Space) (_sc : BitVec 3) (ord : Order) (off : BitVec 30) (s : State) : Out3 :=
  commit s (loadX m t a sp ord off 1)
/-- LD.H. -/
def execLdH (m : Marks) (t a : XReg) (sp : Space) (_sc : BitVec 3) (ord : Order) (off : BitVec 30) (s : State) : Out3 :=
  commit s (loadX m t a sp ord off 2)
/-- LD.W. -/
def execLdW (m : Marks) (t a : XReg) (sp : Space) (_sc : BitVec 3) (ord : Order) (off : BitVec 30) (s : State) : Out3 :=
  commit s (loadX m t a sp ord off 4)
/-- LD.D. -/
def execLdD (m : Marks) (t a : XReg) (sp : Space) (_sc : BitVec 3) (ord : Order) (off : BitVec 30) (s : State) : Out3 :=
  commit s (loadX m t a sp ord off 8)
/-- ST.B. -/
def execStB (m : Marks) (t a : XReg) (sp : Space) (sc : BitVec 3) (ord : Order) (off : BitVec 30) (s : State) : Out3 :=
  commit s (storeX m t a sp sc ord off 1)
/-- ST.H. -/
def execStH (m : Marks) (t a : XReg) (sp : Space) (sc : BitVec 3) (ord : Order) (off : BitVec 30) (s : State) : Out3 :=
  commit s (storeX m t a sp sc ord off 2)
/-- ST.W. -/
def execStW (m : Marks) (t a : XReg) (sp : Space) (sc : BitVec 3) (ord : Order) (off : BitVec 30) (s : State) : Out3 :=
  commit s (storeX m t a sp sc ord off 4)
/-- ST.D. -/
def execStD (m : Marks) (t a : XReg) (sp : Space) (sc : BitVec 3) (ord : Order) (off : BitVec 30) (s : State) : Out3 :=
  commit s (storeX m t a sp sc ord off 8)

/-! ## Whole registers -/

def vecAlign (sp : Space) : Nat := if sp = .dev then 256 else 4

/-- VLD (R134, R135). -/
def execVld (m : Marks) (d : VReg) (a b : XReg) (sp : Space) (s : State) : Out3 :=
  commit s (fun w =>
    let ea := rx w a + rx w b
    match locate w sp ea 256 (vecAlign sp) .read with
    | (.error e, w) => trapWith w m e
    | (.ok x, w) => loadFrom w m (.v d.toNat) sp ea.toNat x 256 (vecStep sp) false)

/-- VST (R134, R136). -/
def execVst (m : Marks) (c : VReg) (a b : XReg) (sp : Space) (s : State) : Out3 :=
  commit s (fun w =>
    let ea := rx w a + rx w b
    match locate w sp ea 256 (vecAlign sp) .write with
    | (.error e, w) => trapWith w m e
    | (.ok x, w) =>
      commitStore w m none (storePieces w (curId w) sp ea.toNat x (natLe 256 (rv w c).toNat) (vecStep sp)))

/-! ## Elements -/

/-- The active lanes of an offset register: lane and address (R137). -/
def activeLanes (base : Word) (offs : BitVec 2048) : List (Nat × Word) :=
  (List.range 64).filterMap (fun i =>
    let o := lane 32 offs i
    if o = 0xFFFFFFFF then none else some (i, base + w64 o))

/-- The first failing lane of each step of R137, steps in order. -/
def lanesBound (w : Work) (sp : Space) (n : Nat) (ls : List (Nat × Word)) : Option Trapped :=
  match ls.find? (fun l => decide (l.2.toNat % n ≠ 0)) with
  | some l => some { code := 3, eaddr := l.2, eval := w64 n, detail := 0 }
  | none => ls.findSome? (fun l => boundOf w sp l.2.toNat n)

/-- The locations of all lanes; every lane passes LEASE before any is examined for MEMRANGE. -/
def lanesPlace (sp : Space) (need : Need) : List (Nat × Word) → Work → Except Trapped (List (Nat × Word × Xlate)) × Work
  | [], w => (.ok [], w)
  | l :: r, w =>
    match placeOf w sp l.2.toNat need with
    | (.error e, w) =>
      if e.code = 5 then (.error e, w)
      else
        match lanesPlace sp need r w with
        | (.error f, w) => if f.code = 5 then (.error f, w) else (.error e, w)
        | (.ok _, w) => (.error e, w)
    | (.ok x, w) =>
      match lanesPlace sp need r w with
      | (.error f, w) => (.error f, w)
      | (.ok xs, w) => (.ok ((l.1, l.2, x) :: xs), w)

def lanesLocate (w : Work) (sp : Space) (n : Nat) (need : Need) (ls : List (Nat × Word)) :
    Except Trapped (List (Nat × Word × Xlate)) × Work :=
  match lanesBound w sp n ls with
  | some t => (.error t, w)
  | none => lanesPlace sp need ls w

/-- VGATH (R137, R138). -/
def execVgath (m : Marks) (d : VReg) (a : XReg) (b : VReg) (sp : Space) (sz : Size) (s : State) : Out3 :=
  commit s (fun w =>
    let n := sizeOfSz sz
    match lanesLocate w sp n .read (activeLanes (rx w a) (rv w b)) with
    | (.error e, w) => trapWith w m e
    | (.ok ls, w) =>
      let locs := (ls.map (fun l => locsFrom l.2.2.addr n)).flatten
      let cov := sqCover (me w).fl.sq locs
      match shareWait w cov locs with
      | some w => notReady m w
      | none =>
        let (id, w') := newId w
        let reqs := (List.range ls.length).zip ls |>.map (fun p =>
          let acc := match cov with
            | .whole bs => Access.fwd ((bs.drop (n * p.1)).take n)
            | _ => Access.read n
          mkReq w id sp p.2.2.1.toNat p.2.2.2 acc (32 * p.2.1))
        let flt := decide (sp = .flt)
        if mayIssue w 0 reqs = false then notReady m w
        else
          let fwdNow := match cov with
            | .whole _ => !flt
            | _ => false
          issueAccess (serveMark w' cov locs) m id (.v d.toNat) sp (gapFor m sp) false flt false fwdNow reqs)

/-- VSCAT (R137, R139): the lanes enter SQ(t) in ascending order. -/
def execVscat (m : Marks) (c : VReg) (a : XReg) (b : VReg) (sp : Space) (sz : Size) (s : State) : Out3 :=
  commit s (fun w =>
    let n := sizeOfSz sz
    match lanesLocate w sp n .write (activeLanes (rx w a) (rv w b)) with
    | (.error e, w) => trapWith w m e
    | (.ok ls, w) =>
      let data := rv w c
      let id0 := curId w
      let reqs := (List.range ls.length).zip ls |>.map (fun p =>
        mkReq w (id0 + p.1) sp p.2.2.1.toNat p.2.2.2 (.write (natLe n (lane 32 data p.2.1))) 0)
      if mayIssue w 1 reqs = false then notReady m w
      else
        let w := updModel w (fun x => { x with nextId := x.nextId + reqs.length })
        let pc := (me w).pc
        let w := updMyFl w (fun f => { f with
          sq := f.sq ++ reqs.map (fun r => { id := r.id, reqs := [r], waitFor := [], scope := 0 })
          outs := f.outs ++ reqs.map (storeOut pc) })
        next m (takeCredits w reqs))

end Sys2Proof.Machine
end

