-- ==== Sys2Proof/Machine/Scalar.lean ====
section
/-! DEFINITION. NOP, integer operations, multiply and divide, bit operations, constants and addresses (R105 to R113). -/
namespace Sys2Proof.Machine

/-! ## Integer functions (R107, R109, R110) -/

def shAmount (b : Word) : Nat := b.toNat % 64
def aShl (a b : Word) : Word := a <<< shAmount b
def aShr (a b : Word) : Word := a >>> shAmount b
def aSar (a b : Word) : Word := a.sshiftRight (shAmount b)
def aRol (a b : Word) : Word := a <<< shAmount b ||| a >>> (64 - shAmount b)
def aRor (a b : Word) : Word := a >>> shAmount b ||| a <<< (64 - shAmount b)
def aMin (a b : Word) : Word := if b.slt a then b else a
def aMax (a b : Word) : Word := if a.slt b then b else a
def aMinu (a b : Word) : Word := if b.ult a then b else a
def aMaxu (a b : Word) : Word := if a.ult b then b else a
def aSlt (a b : Word) : Word := if a.slt b then 1 else 0
def aSltu (a b : Word) : Word := if a.ult b then 1 else 0
def aSeq (a b : Word) : Word := if a = b then 1 else 0
def aSne (a b : Word) : Word := if a = b then 0 else 1
def aAdd (a b : Word) : Word := a + b
def aSub (a b : Word) : Word := a - b
def aAnd (a b : Word) : Word := a &&& b
def aOr (a b : Word) : Word := a ||| b
def aXor (a b : Word) : Word := a ^^^ b
def aMul (a b : Word) : Word := a * b
def aMulh (a b : Word) : Word := (a.signExtend 128 * b.signExtend 128).extractLsb' 64 64
def aMulhu (a b : Word) : Word := (a.setWidth 128 * b.setWidth 128).extractLsb' 64 64
def aDiv (a b : Word) : Word := if b = 0 then allOnes else a.sdiv b
def aDivu (a b : Word) : Word := if b = 0 then allOnes else a.udiv b
def aRem (a b : Word) : Word := if b = 0 then a else a.srem b
def aRemu (a b : Word) : Word := if b = 0 then a else a.umod b

/-- 1 bits below bit `n`. -/
def onesBelow : Nat → Word → Nat
  | 0, _ => 0
  | n + 1, a => onesBelow n a + b2n (a.getLsbD n)
/-- Zero bits below the lowest 1 bit, looking at bits `i` to `i + n - 1`. -/
def zerosFrom : Nat → Nat → Word → Nat
  | 0, _, _ => 0
  | n + 1, i, a => if a.getLsbD i then 0 else 1 + zerosFrom n (i + 1) a
/-- Zero bits above the highest 1 bit, from bit `n - 1` down. -/
def zerosDown : Nat → Word → Nat
  | 0, _ => 0
  | n + 1, a => if a.getLsbD n then 0 else 1 + zerosDown n a
/-- Bits `n - 1` to 0 reversed into a number. -/
def revBits : Nat → Word → Nat
  | 0, _ => 0
  | n + 1, a => revBits n a + (if a.getLsbD n then 2 ^ (63 - n) else 0)

def bClz (a : Word) : Word := w64 (zerosDown 64 a)
def bCtz (a : Word) : Word := w64 (zerosFrom 64 0 a)
def bPopc (a : Word) : Word := w64 (onesBelow 64 a)
def bBrev (a : Word) : Word := w64 (revBits 64 a)
def bSext (n : Nat) (a : Word) : Word := (a.setWidth n).signExtend 64
def bZext (n : Nat) (a : Word) : Word := (a.setWidth n).setWidth 64

/-! ## The shapes -/

/-- x[D] from x[A] and x[B]. -/
def opRR (m : Marks) (d a b : XReg) (f : Word → Word → Word) (w : Work) : Work := next m (wx w m d (f (rx w a) (rx w b)))
/-- x[D] from x[A] and an immediate operand. -/
def opRI (m : Marks) (d a : XReg) (b : Word) (f : Word → Word → Word) (w : Work) : Work := next m (wx w m d (f (rx w a) b))
/-- x[D] from x[A]. -/
def opR (m : Marks) (d a : XReg) (f : Word → Word) (w : Work) : Work := next m (wx w m d (f (rx w a)))

/-- NOP (R105). -/
def execNop (m : Marks) (_tag : BitVec 28) (s : State) : Out3 := commit s (next m)

/-- ADD (R107). -/
def execAdd (m : Marks) (d a b : XReg) (s : State) : Out3 := commit s (opRR m d a b aAdd)
/-- SUB (R107). -/
def execSub (m : Marks) (d a b : XReg) (s : State) : Out3 := commit s (opRR m d a b aSub)
/-- AND (R107). -/
def execAnd (m : Marks) (d a b : XReg) (s : State) : Out3 := commit s (opRR m d a b aAnd)
/-- OR (R107). -/
def execOr (m : Marks) (d a b : XReg) (s : State) : Out3 := commit s (opRR m d a b aOr)
/-- XOR (R107). -/
def execXor (m : Marks) (d a b : XReg) (s : State) : Out3 := commit s (opRR m d a b aXor)
/-- SHL (R107). -/
def execShl (m : Marks) (d a b : XReg) (s : State) : Out3 := commit s (opRR m d a b aShl)
/-- SHR (R107). -/
def execShr (m : Marks) (d a b : XReg) (s : State) : Out3 := commit s (opRR m d a b aShr)
/-- SAR (R107). -/
def execSar (m : Marks) (d a b : XReg) (s : State) : Out3 := commit s (opRR m d a b aSar)
/-- ROL (R107). -/
def execRol (m : Marks) (d a b : XReg) (s : State) : Out3 := commit s (opRR m d a b aRol)
/-- ROR (R107). -/
def execRor (m : Marks) (d a b : XReg) (s : State) : Out3 := commit s (opRR m d a b aRor)
/-- MIN (R107). -/
def execMin (m : Marks) (d a b : XReg) (s : State) : Out3 := commit s (opRR m d a b aMin)
/-- MAX (R107). -/
def execMax (m : Marks) (d a b : XReg) (s : State) : Out3 := commit s (opRR m d a b aMax)
/-- MINU (R107). -/
def execMinu (m : Marks) (d a b : XReg) (s : State) : Out3 := commit s (opRR m d a b aMinu)
/-- MAXU (R107). -/
def execMaxu (m : Marks) (d a b : XReg) (s : State) : Out3 := commit s (opRR m d a b aMaxu)
/-- SLT (R107). -/
def execSlt (m : Marks) (d a b : XReg) (s : State) : Out3 := commit s (opRR m d a b aSlt)
/-- SLTU (R107). -/
def execSltu (m : Marks) (d a b : XReg) (s : State) : Out3 := commit s (opRR m d a b aSltu)
/-- SEQ (R107). -/
def execSeq (m : Marks) (d a b : XReg) (s : State) : Out3 := commit s (opRR m d a b aSeq)
/-- SNE (R107). -/
def execSne (m : Marks) (d a b : XReg) (s : State) : Out3 := commit s (opRR m d a b aSne)
/-- ADDI (R107, R108). -/
def execAddi (m : Marks) (d a : XReg) (imm : BitVec 32) (s : State) : Out3 := commit s (opRI m d a (immS imm) aAdd)
/-- SUBI (R107, R108). -/
def execSubi (m : Marks) (d a : XReg) (imm : BitVec 32) (s : State) : Out3 := commit s (opRI m d a (immS imm) aSub)
/-- ANDI (R107, R108). -/
def execAndi (m : Marks) (d a : XReg) (imm : BitVec 32) (s : State) : Out3 := commit s (opRI m d a (immS imm) aAnd)
/-- ORI (R107, R108). -/
def execOri (m : Marks) (d a : XReg) (imm : BitVec 32) (s : State) : Out3 := commit s (opRI m d a (immS imm) aOr)
/-- XORI (R107, R108). -/
def execXori (m : Marks) (d a : XReg) (imm : BitVec 32) (s : State) : Out3 := commit s (opRI m d a (immS imm) aXor)
/-- SHLI (R107, R108). -/
def execShli (m : Marks) (d a : XReg) (imm : BitVec 32) (s : State) : Out3 := commit s (opRI m d a (immShift imm) aShl)
/-- SHRI (R107, R108). -/
def execShri (m : Marks) (d a : XReg) (imm : BitVec 32) (s : State) : Out3 := commit s (opRI m d a (immShift imm) aShr)
/-- SARI (R107, R108). -/
def execSari (m : Marks) (d a : XReg) (imm : BitVec 32) (s : State) : Out3 := commit s (opRI m d a (immShift imm) aSar)
/-- ROLI (R107, R108). -/
def execRoli (m : Marks) (d a : XReg) (imm : BitVec 32) (s : State) : Out3 := commit s (opRI m d a (immShift imm) aRol)
/-- RORI (R107, R108). -/
def execRori (m : Marks) (d a : XReg) (imm : BitVec 32) (s : State) : Out3 := commit s (opRI m d a (immShift imm) aRor)
/-- MINI (R107, R108). -/
def execMini (m : Marks) (d a : XReg) (imm : BitVec 32) (s : State) : Out3 := commit s (opRI m d a (immS imm) aMin)
/-- MAXI (R107, R108). -/
def execMaxi (m : Marks) (d a : XReg) (imm : BitVec 32) (s : State) : Out3 := commit s (opRI m d a (immS imm) aMax)
/-- MINUI (R107, R108). -/
def execMinui (m : Marks) (d a : XReg) (imm : BitVec 32) (s : State) : Out3 := commit s (opRI m d a (immS imm) aMinu)
/-- MAXUI (R107, R108). -/
def execMaxui (m : Marks) (d a : XReg) (imm : BitVec 32) (s : State) : Out3 := commit s (opRI m d a (immS imm) aMaxu)
/-- SLTI (R107, R108). -/
def execSlti (m : Marks) (d a : XReg) (imm : BitVec 32) (s : State) : Out3 := commit s (opRI m d a (immS imm) aSlt)
/-- SLTUI (R107, R108). -/
def execSltui (m : Marks) (d a : XReg) (imm : BitVec 32) (s : State) : Out3 := commit s (opRI m d a (immS imm) aSltu)
/-- SEQI (R107, R108). -/
def execSeqi (m : Marks) (d a : XReg) (imm : BitVec 32) (s : State) : Out3 := commit s (opRI m d a (immS imm) aSeq)
/-- SNEI (R107, R108). -/
def execSnei (m : Marks) (d a : XReg) (imm : BitVec 32) (s : State) : Out3 := commit s (opRI m d a (immS imm) aSne)
/-- MUL (R109). -/
def execMul (m : Marks) (d a b : XReg) (s : State) : Out3 := commit s (opRR m d a b aMul)
/-- MULH (R109). -/
def execMulh (m : Marks) (d a b : XReg) (s : State) : Out3 := commit s (opRR m d a b aMulh)
/-- MULHU (R109). -/
def execMulhu (m : Marks) (d a b : XReg) (s : State) : Out3 := commit s (opRR m d a b aMulhu)
/-- DIV (R109). -/
def execDiv (m : Marks) (d a b : XReg) (s : State) : Out3 := commit s (opRR m d a b aDiv)
/-- DIVU (R109). -/
def execDivu (m : Marks) (d a b : XReg) (s : State) : Out3 := commit s (opRR m d a b aDivu)
/-- REM (R109). -/
def execRem (m : Marks) (d a b : XReg) (s : State) : Out3 := commit s (opRR m d a b aRem)
/-- REMU (R109). -/
def execRemu (m : Marks) (d a b : XReg) (s : State) : Out3 := commit s (opRR m d a b aRemu)
/-- CLZ (R110). -/
def execClz (m : Marks) (d a : XReg) (s : State) : Out3 := commit s (opR m d a bClz)
/-- CTZ (R110). -/
def execCtz (m : Marks) (d a : XReg) (s : State) : Out3 := commit s (opR m d a bCtz)
/-- POPC (R110). -/
def execPopc (m : Marks) (d a : XReg) (s : State) : Out3 := commit s (opR m d a bPopc)
/-- SEXTB (R110). -/
def execSextB (m : Marks) (d a : XReg) (s : State) : Out3 := commit s (opR m d a (bSext 8))
/-- SEXTH (R110). -/
def execSextH (m : Marks) (d a : XReg) (s : State) : Out3 := commit s (opR m d a (bSext 16))
/-- SEXTW (R110). -/
def execSextW (m : Marks) (d a : XReg) (s : State) : Out3 := commit s (opR m d a (bSext 32))
/-- ZEXTB (R110). -/
def execZextB (m : Marks) (d a : XReg) (s : State) : Out3 := commit s (opR m d a (bZext 8))
/-- ZEXTH (R110). -/
def execZextH (m : Marks) (d a : XReg) (s : State) : Out3 := commit s (opR m d a (bZext 16))
/-- ZEXTW (R110). -/
def execZextW (m : Marks) (d a : XReg) (s : State) : Out3 := commit s (opR m d a (bZext 32))
/-- BREV (R110). -/
def execBrev (m : Marks) (d a : XReg) (s : State) : Out3 := commit s (opR m d a bBrev)

/-- MOVI (R111). -/
def execMovi (m : Marks) (d : XReg) (imm : BitVec 32) (s : State) : Out3 := commit s (fun w => next m (wx w m d (immS imm)))
/-- MOVIH (R112): IMM above x[A][31:0]. -/
def execMovih (m : Marks) (d a : XReg) (imm : BitVec 32) (s : State) : Out3 :=
  commit s (opR m d a (fun v => imm ++ v.setWidth 32))
/-- LEA (R113). -/
def execLea (m : Marks) (d a b : XReg) (sh : BitVec 2) (s : State) : Out3 :=
  commit s (opRR m d a b (fun x y => x + y <<< sh.toNat))
/-- LEA.RG (R113): a remote scratchpad address. -/
def execLeaRg (m : Marks) (d a b : XReg) (s : State) : Out3 :=
  commit s (opRR m d a b (fun x y => (x.setWidth 8 ++ y.setWidth 21).setWidth 64))

end Sys2Proof.Machine
end

