-- ==== Sys2Proof/Machine/Dispatch.lean ====
section
/-! DEFINITION. One arm per constructor of Instr: a direct call of its meaning, or a refusal by name. -/
namespace Sys2Proof.Machine

def exec (i : Instr) (s : State) : Host.Outcome State Fault Refusal :=
  match i with
  | .nop m tag => Sys2Proof.Machine.execNop m tag s
  | .add m d a b => Sys2Proof.Machine.execAdd m d a b s
  | .sub m d a b => Sys2Proof.Machine.execSub m d a b s
  | .and m d a b => Sys2Proof.Machine.execAnd m d a b s
  | .or m d a b => Sys2Proof.Machine.execOr m d a b s
  | .xor m d a b => Sys2Proof.Machine.execXor m d a b s
  | .shl m d a b => Sys2Proof.Machine.execShl m d a b s
  | .shr m d a b => Sys2Proof.Machine.execShr m d a b s
  | .sar m d a b => Sys2Proof.Machine.execSar m d a b s
  | .rol m d a b => Sys2Proof.Machine.execRol m d a b s
  | .ror m d a b => Sys2Proof.Machine.execRor m d a b s
  | .min m d a b => Sys2Proof.Machine.execMin m d a b s
  | .max m d a b => Sys2Proof.Machine.execMax m d a b s
  | .minu m d a b => Sys2Proof.Machine.execMinu m d a b s
  | .maxu m d a b => Sys2Proof.Machine.execMaxu m d a b s
  | .slt m d a b => Sys2Proof.Machine.execSlt m d a b s
  | .sltu m d a b => Sys2Proof.Machine.execSltu m d a b s
  | .seq m d a b => Sys2Proof.Machine.execSeq m d a b s
  | .sne m d a b => Sys2Proof.Machine.execSne m d a b s
  | .addi m d a imm => Sys2Proof.Machine.execAddi m d a imm s
  | .subi m d a imm => Sys2Proof.Machine.execSubi m d a imm s
  | .andi m d a imm => Sys2Proof.Machine.execAndi m d a imm s
  | .ori m d a imm => Sys2Proof.Machine.execOri m d a imm s
  | .xori m d a imm => Sys2Proof.Machine.execXori m d a imm s
  | .shli m d a imm => Sys2Proof.Machine.execShli m d a imm s
  | .shri m d a imm => Sys2Proof.Machine.execShri m d a imm s
  | .sari m d a imm => Sys2Proof.Machine.execSari m d a imm s
  | .roli m d a imm => Sys2Proof.Machine.execRoli m d a imm s
  | .rori m d a imm => Sys2Proof.Machine.execRori m d a imm s
  | .mini m d a imm => Sys2Proof.Machine.execMini m d a imm s
  | .maxi m d a imm => Sys2Proof.Machine.execMaxi m d a imm s
  | .minui m d a imm => Sys2Proof.Machine.execMinui m d a imm s
  | .maxui m d a imm => Sys2Proof.Machine.execMaxui m d a imm s
  | .slti m d a imm => Sys2Proof.Machine.execSlti m d a imm s
  | .sltui m d a imm => Sys2Proof.Machine.execSltui m d a imm s
  | .seqi m d a imm => Sys2Proof.Machine.execSeqi m d a imm s
  | .snei m d a imm => Sys2Proof.Machine.execSnei m d a imm s
  | .mul m d a b => Sys2Proof.Machine.execMul m d a b s
  | .mulh m d a b => Sys2Proof.Machine.execMulh m d a b s
  | .mulhu m d a b => Sys2Proof.Machine.execMulhu m d a b s
  | .div m d a b => Sys2Proof.Machine.execDiv m d a b s
  | .divu m d a b => Sys2Proof.Machine.execDivu m d a b s
  | .rem m d a b => Sys2Proof.Machine.execRem m d a b s
  | .remu m d a b => Sys2Proof.Machine.execRemu m d a b s
  | .clz m d a => Sys2Proof.Machine.execClz m d a s
  | .ctz m d a => Sys2Proof.Machine.execCtz m d a s
  | .popc m d a => Sys2Proof.Machine.execPopc m d a s
  | .sextB m d a => Sys2Proof.Machine.execSextB m d a s
  | .sextH m d a => Sys2Proof.Machine.execSextH m d a s
  | .sextW m d a => Sys2Proof.Machine.execSextW m d a s
  | .zextB m d a => Sys2Proof.Machine.execZextB m d a s
  | .zextH m d a => Sys2Proof.Machine.execZextH m d a s
  | .zextW m d a => Sys2Proof.Machine.execZextW m d a s
  | .brev m d a => Sys2Proof.Machine.execBrev m d a s
  | .movi m d imm => Sys2Proof.Machine.execMovi m d imm s
  | .movih m d a imm => Sys2Proof.Machine.execMovih m d a imm s
  | .lea m d a b sh => Sys2Proof.Machine.execLea m d a b sh s
  | .leaRg m d a b => Sys2Proof.Machine.execLeaRg m d a b s
  | .beq m a b off => Sys2Proof.Machine.execBeq m a b off s
  | .bne m a b off => Sys2Proof.Machine.execBne m a b off s
  | .blt m a b off => Sys2Proof.Machine.execBlt m a b off s
  | .bge m a b off => Sys2Proof.Machine.execBge m a b off s
  | .bltu m a b off => Sys2Proof.Machine.execBltu m a b off s
  | .bgeu m a b off => Sys2Proof.Machine.execBgeu m a b off s
  | .bfe m off => Sys2Proof.Machine.execBfe m off s
  | .bnfe m off => Sys2Proof.Machine.execBnfe m off s
  | .j m off => Sys2Proof.Machine.execJ m off s
  | .jal m off => Sys2Proof.Machine.execJal m off s
  | .jr m a off => Sys2Proof.Machine.execJr m a off s
  | .loop m a off => Sys2Proof.Machine.execLoop m a off s
  | .endl m off => Sys2Proof.Machine.execEndl m off s
  | .ldB m t a sp sc ord off => Sys2Proof.Machine.execLdB m t a sp sc ord off s
  | .ldH m t a sp sc ord off => Sys2Proof.Machine.execLdH m t a sp sc ord off s
  | .ldW m t a sp sc ord off => Sys2Proof.Machine.execLdW m t a sp sc ord off s
  | .ldD m t a sp sc ord off => Sys2Proof.Machine.execLdD m t a sp sc ord off s
  | .stB m t a sp sc ord off => Sys2Proof.Machine.execStB m t a sp sc ord off s
  | .stH m t a sp sc ord off => Sys2Proof.Machine.execStH m t a sp sc ord off s
  | .stW m t a sp sc ord off => Sys2Proof.Machine.execStW m t a sp sc ord off s
  | .stD m t a sp sc ord off => Sys2Proof.Machine.execStD m t a sp sc ord off s
  | .vld m d a b sp => Sys2Proof.Machine.execVld m d a b sp s
  | .vst m c a b sp => Sys2Proof.Machine.execVst m c a b sp s
  | .vgath m d a b sp sz => Sys2Proof.Machine.execVgath m d a b sp sz s
  | .vscat m c a b sp sz => Sys2Proof.Machine.execVscat m c a b sp sz s
  | .vadd m lw d a b => Sys2Proof.Machine.execVadd m lw d a b s
  | .vsub m lw d a b => Sys2Proof.Machine.execVsub m lw d a b s
  | .vand m lw d a b => Sys2Proof.Machine.execVand m lw d a b s
  | .vor m lw d a b => Sys2Proof.Machine.execVor m lw d a b s
  | .vxor m lw d a b => Sys2Proof.Machine.execVxor m lw d a b s
  | .vshl m lw d a b => Sys2Proof.Machine.execVshl m lw d a b s
  | .vshr m lw d a b => Sys2Proof.Machine.execVshr m lw d a b s
  | .vsar m lw d a b => Sys2Proof.Machine.execVsar m lw d a b s
  | .vmin m lw d a b => Sys2Proof.Machine.execVmin m lw d a b s
  | .vmax m lw d a b => Sys2Proof.Machine.execVmax m lw d a b s
  | .vminu m lw d a b => Sys2Proof.Machine.execVminu m lw d a b s
  | .vmaxu m lw d a b => Sys2Proof.Machine.execVmaxu m lw d a b s
  | .vmul m lw d a b => Sys2Proof.Machine.execVmul m lw d a b s
  | .vmulh m lw d a b => Sys2Proof.Machine.execVmulh m lw d a b s
  | .vmulhu m lw d a b => Sys2Proof.Machine.execVmulhu m lw d a b s
  | .vadds m lw d a b => Sys2Proof.Machine.execVadds m lw d a b s
  | .vsubs m lw d a b => Sys2Proof.Machine.execVsubs m lw d a b s
  | .vaddsu m lw d a b => Sys2Proof.Machine.execVaddsu m lw d a b s
  | .vsubsu m lw d a b => Sys2Proof.Machine.execVsubsu m lw d a b s
  | .vabs m lw d a => Sys2Proof.Machine.execVabs m lw d a s
  | .vfadd m fl rm d a b => Sys2Proof.Machine.execVfadd m fl rm d a b s
  | .vfsub m fl rm d a b => Sys2Proof.Machine.execVfsub m fl rm d a b s
  | .vfmul m fl rm d a b => Sys2Proof.Machine.execVfmul m fl rm d a b s
  | .vfmin m fl d a b => Sys2Proof.Machine.execVfmin m fl d a b s
  | .vfmax m fl d a b => Sys2Proof.Machine.execVfmax m fl d a b s
  | .vfabs m fl d a => Sys2Proof.Machine.execVfabs m fl d a s
  | .vfneg m fl d a => Sys2Proof.Machine.execVfneg m fl d a s
  | .vfma m fl rm d a b c => Sys2Proof.Machine.execVfma m fl rm d a b c s
  | .vfms m fl rm d a b c => Sys2Proof.Machine.execVfms m fl rm d a b c s
  | .vfnma m fl rm d a b c => Sys2Proof.Machine.execVfnma m fl rm d a b c s
  | .vfnms m fl rm d a b c => Sys2Proof.Machine.execVfnms m fl rm d a b c s
  | .vrcp m d a => Sys2Proof.Machine.execVrcp m d a s
  | .vrsq m d a => Sys2Proof.Machine.execVrsq m d a s
  | .vexp2 m d a => Sys2Proof.Machine.execVexp2 m d a s
  | .vlog2 m d a => Sys2Proof.Machine.execVlog2 m d a s
  | .vcmp m ty cond d a b => Sys2Proof.Machine.execVcmp m ty cond d a b s
  | .vsel m lw d a b c => Sys2Proof.Machine.execVsel m lw d a b c s
  | .vcvt m pair rm nan d a b => Sys2Proof.Machine.execVcvt m pair rm nan d a b s
  | .vscan m ty op d a h => Sys2Proof.Machine.execVscan m ty op d a h s
  | .vred m ty op d a => Sys2Proof.Machine.execVred m ty op d a s
  | .vperm m lw d a b c => Sys2Proof.Machine.execVperm m lw d a b c s
  | .vbcastX m lw d a => Sys2Proof.Machine.execVbcastX m lw d a s
  | .vbcastV m lw d a b => Sys2Proof.Machine.execVbcastV m lw d a b s
  | .vlaneGet m lw d a b => Sys2Proof.Machine.execVlaneGet m lw d a b s
  | .vlaneGetu m lw d a b => Sys2Proof.Machine.execVlaneGetu m lw d a b s
  | .vlaneSet m lw d a b => Sys2Proof.Machine.execVlaneSet m lw d a b s
  | .vlaneIota m lw d => Sys2Proof.Machine.execVlaneIota m lw d s
  | .qset m d a => Sys2Proof.Machine.execQset m d a s
  | .qsetU m d => Sys2Proof.Machine.execQsetU m d s
  | .qsetCfg m d a b c => Sys2Proof.Machine.execQsetCfg m d a b c s
  | .qinfo m fld d a => Sys2Proof.Machine.execQinfo m fld d a s
  | .qadvC m d a imm => Sys2Proof.Machine.execQadvC m d a imm s
  | .qadvP m d a imm => Sys2Proof.Machine.execQadvP m d a imm s
  | .qwaitC m d k => Sys2Proof.Machine.execQwaitC m d k s
  | .qwaitP m d k => Sys2Proof.Machine.execQwaitP m d k s
  | .vldq m d a k p => Sys2Proof.Machine.execVldq m d a k p s
  | .vldqAdv m d a k p => Sys2Proof.Machine.execVldqAdv m d a k p s
  | .vstq m d a k p => Sys2Proof.Machine.execVstq m d a k p s
  | .vstqAdv m d a k p => Sys2Proof.Machine.execVstqAdv m d a k p s
  | .kld m k x sp => Sys2Proof.Machine.execKld m k x sp s
  | .kst m k x sp => Sys2Proof.Machine.execKst m k x sp s
  | .kset m k w dbl x => Sys2Proof.Machine.execKset m k w dbl x s
  | .kinv m ka kb range => Sys2Proof.Machine.execKinv m ka kb range s
  | .mma m z ka kb kc => Sys2Proof.Machine.execMma m z ka kb kc s
  | .mzero m kc => Sys2Proof.Machine.execMzero m kc s
  | .mout m rm nanm clr ka kb x => Sys2Proof.Machine.execMout m rm nanm clr ka kb x s
  | .mprog m x => Sys2Proof.Machine.execMprog m x s
  | .mwait m x => Sys2Proof.Machine.execMwait m x s
  | .copy m q prom cv rm nanm ka kb x => Sys2Proof.Machine.execCopy m q prom cv rm nanm ka kb x s
  | .copyMmaBundle m q prom cv rm nanm ka kb x z ma mb mc => Sys2Proof.Machine.execCopyMmaBundle m q prom cv rm nanm ka kb x z ma mb mc s
  | .packNz m q ka kb x => Sys2Proof.Machine.execPackNz m q ka kb x s
  | .packThr m q ka kb x => Sys2Proof.Machine.execPackThr m q ka kb x s
  | .packTop m q ka kb x => Sys2Proof.Machine.execPackTop m q ka kb x s
  | .packSto m q ka kb x => Sys2Proof.Machine.execPackSto m q ka kb x s
  | .unpack m q ka kb => Sys2Proof.Machine.execUnpack m q ka kb s
  | .gather m q ka kb kc => Sys2Proof.Machine.execGather m q ka kb kc s
  | .scatter m q ka kb kc => Sys2Proof.Machine.execScatter m q ka kb kc s
  | .fill m q kb x => Sys2Proof.Machine.execFill m q kb x s
  | .cpwait m x mask => Sys2Proof.Machine.execCpwait m x mask s
  | .collAllred m slot opr ka kb => Sys2Proof.Machine.execCollAllred m slot opr ka kb s
  | .collRedscat m slot opr ka kb => Sys2Proof.Machine.execCollRedscat m slot opr ka kb s
  | .collAllgath m slot opr ka kb => Sys2Proof.Machine.execCollAllgath m slot opr ka kb s
  | .collBcast m slot opr ka kb x => Sys2Proof.Machine.execCollBcast m slot opr ka kb x s
  | .collwait m x slot one => Sys2Proof.Machine.execCollwait m x slot one s
  | .collgrpForm m slot x => Sys2Proof.Machine.execCollgrpForm m slot x s
  | .collgrpReform m slot x => Sys2Proof.Machine.execCollgrpReform m slot x s
  | .collgrpRelease m slot => Sys2Proof.Machine.execCollgrpRelease m slot s
  | .amoAdd m dbl d a b sp sc ord => Sys2Proof.Machine.execAmoAdd m dbl d a b sp sc ord s
  | .amoAnd m dbl d a b sp sc ord => Sys2Proof.Machine.execAmoAnd m dbl d a b sp sc ord s
  | .amoOr m dbl d a b sp sc ord => Sys2Proof.Machine.execAmoOr m dbl d a b sp sc ord s
  | .amoXor m dbl d a b sp sc ord => Sys2Proof.Machine.execAmoXor m dbl d a b sp sc ord s
  | .amoMin m dbl d a b sp sc ord => Sys2Proof.Machine.execAmoMin m dbl d a b sp sc ord s
  | .amoMax m dbl d a b sp sc ord => Sys2Proof.Machine.execAmoMax m dbl d a b sp sc ord s
  | .amoMinu m dbl d a b sp sc ord => Sys2Proof.Machine.execAmoMinu m dbl d a b sp sc ord s
  | .amoMaxu m dbl d a b sp sc ord => Sys2Proof.Machine.execAmoMaxu m dbl d a b sp sc ord s
  | .amoSwap m dbl d a b sp sc ord => Sys2Proof.Machine.execAmoSwap m dbl d a b sp sc ord s
  | .amoCas m dbl d a b c sp sc ord => Sys2Proof.Machine.execAmoCas m dbl d a b c sp sc ord s
  | .amoFadd m d a b sp sc ord => Sys2Proof.Machine.execAmoFadd m d a b sp sc ord s
  | .amoBfadd m d a b sp sc ord => Sys2Proof.Machine.execAmoBfadd m d a b sp sc ord s
  | .waitmon m dbl d a b c sp sc ord => Sys2Proof.Machine.execWaitmon m dbl d a b c sp sc ord s
  | .barJoin m d a sp => Sys2Proof.Machine.execBarJoin m d a sp s
  | .barArrive m d a sp => Sys2Proof.Machine.execBarArrive m d a sp s
  | .barWait m d a b sp => Sys2Proof.Machine.execBarWait m d a b sp s
  | .barArrwait m d a sp => Sys2Proof.Machine.execBarArrwait m d a sp s
  | .barDrop m d a sp => Sys2Proof.Machine.execBarDrop m d a sp s
  | .frenew m d a => Sys2Proof.Machine.execFrenew m d a s
  | .flife m d a => Sys2Proof.Machine.execFlife m d a s
  | .fclaim m d a => Sys2Proof.Machine.execFclaim m d a s
  | .fenceFull m sc => Sys2Proof.Machine.execFenceFull m sc s
  | .fenceAcq m sc => Sys2Proof.Machine.execFenceAcq m sc s
  | .fenceRel m sc => Sys2Proof.Machine.execFenceRel m sc s
  | .fenceSt m sc => Sys2Proof.Machine.execFenceSt m sc s
  | .fenceq m mask sc => Sys2Proof.Machine.execFenceq m mask sc s
  | .fenceqW m mask sc => Sys2Proof.Machine.execFenceqW m mask sc s
  | .sleepuntil m a => Sys2Proof.Machine.execSleepuntil m a s
  | .sleepuntilNp m a => Sys2Proof.Machine.execSleepuntilNp m a s
  | .rdtick m d => Sys2Proof.Machine.execRdtick m d s
  | .yield m => Sys2Proof.Machine.execYield m s
  | .exit m => Sys2Proof.Machine.execExit m s
  | .rngSeed m a b => Sys2Proof.Machine.execRngSeed m a b s
  | .rngNext m d => Sys2Proof.Machine.execRngNext m d s
  | .rngGet m d a => Sys2Proof.Machine.execRngGet m d a s
  | .cfgw m d a => Sys2Proof.Machine.execCfgw m d a s
  | .cfgs m d a b sp => Sys2Proof.Machine.execCfgs m d a b sp s
  | .planeRun m p => Sys2Proof.Machine.execPlaneRun m p s
  | .planeHalt m p => Sys2Proof.Machine.execPlaneHalt m p s
  | .planeStat m d p => Sys2Proof.Machine.execPlaneStat m d p s
  | .planeClr m p => Sys2Proof.Machine.execPlaneClr m p s
  | .planeFree m p => Sys2Proof.Machine.execPlaneFree m p s
  | .strmSr m dep ka x => Sys2Proof.Machine.execStrmSr m dep ka x s
  | .strmSw m dep ka x => Sys2Proof.Machine.execStrmSw m dep ka x s
  | .strmMs m dir dep ka x => Sys2Proof.Machine.execStrmMs m dir dep ka x s
  | .sbar m mask => Sys2Proof.Machine.execSbar m mask s
  | .sbarW m mask => Sys2Proof.Machine.execSbarW m mask s
  | .sendvc m vc kind a => Sys2Proof.Machine.execSendvc m vc kind a s
  | .recvvc m d vc => Sys2Proof.Machine.execRecvvc m d vc s
  | .recvvcNb m d vc => Sys2Proof.Machine.execRecvvcNb m d vc s
  | .waitvc m d mask => Sys2Proof.Machine.execWaitvc m d mask s
  | .trap m imm => Sys2Proof.Machine.execTrap m imm s
  | .rte m => Sys2Proof.Machine.execRte m s
  | .sprr m d spr => Sys2Proof.Machine.execSprr m d spr s
  | .sprw m spr a => Sys2Proof.Machine.execSprw m spr a s
  | .launch m d a => Sys2Proof.Machine.execLaunch m d a s
  | .lwait m d a => Sys2Proof.Machine.execLwait m d a s
  | .leaseGet m d a b => Sys2Proof.Machine.execLeaseGet m d a b s
  | .leaseRevoke m d a b => Sys2Proof.Machine.execLeaseRevoke m d a b s
  | .leaseRelease m d a b => Sys2Proof.Machine.execLeaseRelease m d a b s
  | .invpg m a b big => Sys2Proof.Machine.execInvpg m a b big s
  | .retireBegin m d a => Sys2Proof.Machine.execRetireBegin m d a s
  | .bkpt m imm => Sys2Proof.Machine.execBkpt m imm s
  | .holdSet m d a b => Sys2Proof.Machine.execHoldSet m d a b s
  | .holdRel m d a b => Sys2Proof.Machine.execHoldRel m d a b s
  | .pctrRd m d a => Sys2Proof.Machine.execPctrRd m d a s
  | .pctrSel m a b => Sys2Proof.Machine.execPctrSel m a b s
  | .pctrClr m a => Sys2Proof.Machine.execPctrClr m a s
  | .histRd m d a b => Sys2Proof.Machine.execHistRd m d a b s
  | .histArm m a b c => Sys2Proof.Machine.execHistArm m a b c s
  | .histClr m a => Sys2Proof.Machine.execHistClr m a s
  | .waitmonDeadline g t => Sys2Proof.Machine.execWaitmonDeadline g t s
  | .fenceqEntryRelease g id => Sys2Proof.Machine.execFenceqEntryRelease g id s
  | .sleepuntilWake g t => Sys2Proof.Machine.execSleepuntilWake g t s
  | .configCommandApply g => Sys2Proof.Machine.execConfigCommandApply g s
  | .engineCommitSample g src v => Sys2Proof.Machine.execEngineCommitSample g src v s
  | .trapEntry g t => Sys2Proof.Machine.execTrapEntry g t s
  | .aluFire g e => Sys2Proof.Machine.execAluFire g e s
  | .faluFire g e => Sys2Proof.Machine.execFaluFire g e s
  | .constFire g e => Sys2Proof.Machine.execConstFire g e s
  | .dupFire g e => Sys2Proof.Machine.execDupFire g e s
  | .steerFire g e => Sys2Proof.Machine.execSteerFire g e s
  | .mergeFire g e => Sys2Proof.Machine.execMergeFire g e s
  | .amergeFire g e => Sys2Proof.Machine.execAmergeFire g e s
  | .carryFire g e => Sys2Proof.Machine.execCarryFire g e s
  | .lceFire g e => Sys2Proof.Machine.execLceFire g e s
  | .djoinFire g e => Sys2Proof.Machine.execDjoinFire g e s
  | .arbReplyFire g e => Sys2Proof.Machine.execArbReplyFire g e s
  | .arbGrantFire g e => Sys2Proof.Machine.execArbGrantFire g e s
  | .srcFire g e => Sys2Proof.Machine.execSrcFire g e s
  | .snkFire g e => Sys2Proof.Machine.execSnkFire g e s
  | .vciFire g e => Sys2Proof.Machine.execVciFire g e s
  | .vcoFire g e => Sys2Proof.Machine.execVcoFire g e s
  | .entryFire g e => Sys2Proof.Machine.execEntryFire g e s
  | .planeScheduleDecision g => Sys2Proof.Machine.execPlaneScheduleDecision g s
  | .vcWordArrive g vc => Sys2Proof.Machine.execVcWordArrive g vc s
  | .vcPersistentBackpressure g vc => Sys2Proof.Machine.execVcPersistentBackpressure g vc s
  | .spillRecordReinject g vc => Sys2Proof.Machine.execSpillRecordReinject g vc s
  | .sqDrain g t => Sys2Proof.Machine.execSqDrain g t s
  | .requestHop h home => Sys2Proof.Machine.execRequestHop h home s
  | .bankPerform g bank => Sys2Proof.Machine.execBankPerform g bank s
  | .bridgePerform b => Sys2Proof.Machine.execBridgePerform b s
  | .replayRelease b => Sys2Proof.Machine.execReplayRelease b s
  | .remoteMessageArrive g => Sys2Proof.Machine.execRemoteMessageArrive g s
  | .remoteMessageDispatch g => Sys2Proof.Machine.execRemoteMessageDispatch g s
  | .creditReturnReceive g target => Sys2Proof.Machine.execCreditReturnReceive g target s
  | .engineBegin g q id => Sys2Proof.Machine.execEngineBegin g q id s
  | .engineAccess g q id => Sys2Proof.Machine.execEngineAccess g q id s
  | .engineComplete g q id => Sys2Proof.Machine.execEngineComplete g q id s
  | .collMessageReceive part msg => Sys2Proof.Machine.execCollMessageReceive part msg s
  | .collRoundTimeout g slot => Sys2Proof.Machine.execCollRoundTimeout g slot s
  | .reformProbeReceive part grp rank => Sys2Proof.Machine.execReformProbeReceive part grp rank s
  | .reformProbeSend g slot => Sys2Proof.Machine.execReformProbeSend g slot s
  | .reformProbePhaseEnd g slot => Sys2Proof.Machine.execReformProbePhaseEnd g slot s
  | .reformReportReceive part grp rank heard => Sys2Proof.Machine.execReformReportReceive part grp rank heard s
  | .reformReportPhaseEnd g slot => Sys2Proof.Machine.execReformReportPhaseEnd g slot s
  | .reformResultReceive part grp members => Sys2Proof.Machine.execReformResultReceive part grp members s
  | .reformResultTimeout g slot => Sys2Proof.Machine.execReformResultTimeout g slot s
  | .tick => Sys2Proof.Machine.execTick s
  | .gladeStopRequest g => Sys2Proof.Machine.execGladeStopRequest g s
  | .contextSave g => Sys2Proof.Machine.execContextSave g s
  | .contextRestore part n => Sys2Proof.Machine.execContextRestore part n s
  | .schedulerEvaluate part => Sys2Proof.Machine.execSchedulerEvaluate part s
  | .quantumExpire part n => Sys2Proof.Machine.execQuantumExpire part n s
  | .launchDispatch part n => Sys2Proof.Machine.execLaunchDispatch part n s
  | .leaseWalk part n => Sys2Proof.Machine.execLeaseWalk part n s
  | .lresumeWrite part v => Sys2Proof.Machine.execLresumeWrite part v s
  | .launchRotation part n => Sys2Proof.Machine.execLaunchRotation part n s
  | .completionWave part n => Sys2Proof.Machine.execCompletionWave part n s
  | .launchEndingDone part n => Sys2Proof.Machine.execLaunchEndingDone part n s
  | .ltermWrite part v => Sys2Proof.Machine.execLtermWrite part v s
  | .walkerSetBit part va dirty => Sys2Proof.Machine.execWalkerSetBit part va dirty s
  | .pageVectorMiss g va => Sys2Proof.Machine.execPageVectorMiss g va s
  | .eventRecordWrite ring => Sys2Proof.Machine.execEventRecordWrite ring s
  | .dbgHalt => Sys2Proof.Machine.execDbgHalt s
  | .dbgResume => Sys2Proof.Machine.execDbgResume s
  | .dbgStep => Sys2Proof.Machine.execDbgStep s
  | .tcmdResume part => Sys2Proof.Machine.execTcmdResume part s
  | .tcmdRetire part => Sys2Proof.Machine.execTcmdRetire part s
  | .portSprRead cmd => Sys2Proof.Machine.execPortSprRead cmd s
  | .portSprWrite pdata spr => Sys2Proof.Machine.execPortSprWrite pdata spr s
  | .portHoldSet x => Sys2Proof.Machine.execPortHoldSet x s
  | .portHoldRel x => Sys2Proof.Machine.execPortHoldRel x s
  | .portOpComplete => Sys2Proof.Machine.execPortOpComplete s
  | .pgrovesWrite part v => Sys2Proof.Machine.execPgrovesWrite part v s
  | .groveRemovalEffect part grove => Sys2Proof.Machine.execGroveRemovalEffect part grove s
  | .pkeysWrite part v => Sys2Proof.Machine.execPkeysWrite part v s
  | .vxdestWrite part v => Sys2Proof.Machine.execVxdestWrite part v s
  | .mailboxDoorbell part tail ringBase ringLog => Sys2Proof.Machine.execMailboxDoorbell part tail ringBase ringLog s
  | .mbrespWrite part v => Sys2Proof.Machine.execMbrespWrite part v s
  | .linkFailure link => Sys2Proof.Machine.execLinkFailure link s
  | .ethFrameReceive port fr => Sys2Proof.Machine.execEthFrameReceive port fr s
  | .ethmapWrite v => Sys2Proof.Machine.execEthmapWrite v s
  | .elogpop => Sys2Proof.Machine.execElogpop s
  | .efirstClear => Sys2Proof.Machine.execEfirstClear s
  | .retireUnitCopy => Sys2Proof.Machine.execRetireUnitCopy s
  | .capacityMessageReceive pkg cap => Sys2Proof.Machine.execCapacityMessageReceive pkg cap s
  | .srefEnter k => Sys2Proof.Machine.execSrefEnter k s
  | .srefExit k => Sys2Proof.Machine.execSrefExit k s
  | .railreqWrite g v => Sys2Proof.Machine.execRailreqWrite g v s
  | .railWindowBoundary g => Sys2Proof.Machine.execRailWindowBoundary g s
  | .railChangeDone g => Sys2Proof.Machine.execRailChangeDone g s
  | .droopTrip g => Sys2Proof.Machine.execDroopTrip g s
  | .droopEscalate g => Sys2Proof.Machine.execDroopEscalate g s
  | .droopRelease g => Sys2Proof.Machine.execDroopRelease g s
  | .referenceFailover adv => Sys2Proof.Machine.execReferenceFailover adv s
  | .referenceLoss => Sys2Proof.Machine.execReferenceLoss s
  | .thermalReading d tj => Sys2Proof.Machine.execThermalReading d tj s
  | .powerAverage watts => Sys2Proof.Machine.execPowerAverage watts s
  | .powerOn => Sys2Proof.Machine.execPowerOn s
  | .selfTestPass fn => Sys2Proof.Machine.execSelfTestPass fn s
  | .bootgo words go => Sys2Proof.Machine.execBootgo words go s
  | .bootVerifyDone => Sys2Proof.Machine.execBootVerifyDone s
  | .svcmdStartSupervisor => Sys2Proof.Machine.execSvcmdStartSupervisor s
  | .svcmdStartMonitor => Sys2Proof.Machine.execSvcmdStartMonitor s
  | .svcmdRetire => Sys2Proof.Machine.execSvcmdRetire s
  | .mptrootWrite v => Sys2Proof.Machine.execMptrootWrite v s
  | .pmlockWrite v => Sys2Proof.Machine.execPmlockWrite v s
  | .attcmdGo v => Sys2Proof.Machine.execAttcmdGo v s
  | .attestReportDone => Sys2Proof.Machine.execAttestReportDone s
  | .kdataWrite v => Sys2Proof.Machine.execKdataWrite v s
  | .kcmdInstall => Sys2Proof.Machine.execKcmdInstall s
  | .kcmdRandom => Sys2Proof.Machine.execKcmdRandom s
  | .kcmdDone => Sys2Proof.Machine.execKcmdDone s
  | .portRecovery port => Sys2Proof.Machine.execPortRecovery port s
  | .liveLaneLoss port loss => Sys2Proof.Machine.execLiveLaneLoss port loss s

end Sys2Proof.Machine
end

