-- ==== Sys2Proof/Machine/Issue.lean ====
section
/-! DEFINITION. The issue of one instruction (R79 to R87, R102): fetch, decode, the marks of the word, and which task
issues next; and the turn of the other agents. -/
namespace Sys2Proof.Machine

/-! ## Fetch (R79, R102 steps 1 to 3) -/

/-- The lowest enabled address breakpoint at `pc` (R393). -/
def bpAt (T : Task) (pc : Word) : Option Nat :=
  if T.skipBp then none
  else (List.range 4).find? (fun i =>
    let r := (T.dbg.bpa.toList[i]?).getD 0
    r.getLsbD 0 && decide (bits r.toNat 51 3 * 8 = pc.toNat))

/-- Eight instruction bytes at a virtual address, or the cause of the fetch; code 0 that the fetch has to wait (R432, R436). -/
def fetchWord (w : Work) (pc : Word) : Except Trapped Word × Work :=
  match checkDev w (curG w) (curT w) pc.toNat .exec with
  | (.error e, w) =>
    let t := xTrap pc.toNat e
    (.error { t with eval := if t.code = 0x11 then t.eval else 1 }, xMet w (me w).sys.launch e)
  | (.ok x, w) =>
    match devMeets w.ctl x.addr with
    | .wait => (.error { code := 0, eaddr := pc, eval := 1, detail := 0 }, w)
    | .gone => (.error { code := 0xB, eaddr := pc, eval := 1, detail := 3 }, logGone w x.addr (me w).sys.launch)
    | .clear =>
    let (w, f) := checkRead w x.addr 8
    if f.bad then
      (.error { code := 0xB, eaddr := pc, eval := 1, detail := foundDetail f },
        logEvent w (chanOf w.ctl x.addr) 2 (errAddr x.addr) (me w).sys.launch false)
    else (.ok (w64 (leNat (readBytes w x.key x.addr 8))), w)

/-- What the issue slot holds: an instruction, or a cause with its word. -/
inductive Fetched where
  | instr (i : Instr)
  | trap (t : Trapped) (bundle : Bool)
deriving Repr

def noMarks : Marks := { gap := 0, sw := false }

/-- The instruction at the current task's PC; a bundle's second word is fetched with it (R92).
(DEDUCED, log entry 52.) -/
def fetch (w : Work) : Fetched × Work :=
  let pc := (me w).pc
  match bpAt (me w) pc with
  | some n => (.trap { code := 0xE, eaddr := pc, eval := w64 n, detail := 0 } false, w)
  | none =>
    match fetchWord w pc with
    | (.error t, w) => (.trap t false, w)
    | (.ok word, w) =>
      let ill := fun (w : Work) (next : Word) =>
        match decode word next with
        | .ok i => (Fetched.instr i, w)
        | .error e => (.trap { code := 1, eaddr := 0, eval := if e.inMma then next else word, detail := e.detail } e.inMma, w)
      if isBundle word then
        match fetchWord w (pc + 8) with
        | (.error t, w) => (.trap t true, w)
        | (.ok next, w) => ill w next
      else ill w 0

/-! ## Before and after -/

/-- The task whose turn it is, with its GAP promises counted one instruction on (R81, R82). -/
def beginTask (T : Task) : Task :=
  { T with
    skipBp := false
    fl := { T.fl with
      promises := (T.fl.promises.filter (fun p => decide (0 < p.left))).map (fun p => { p with left := p.left - 1 })
      outs := T.fl.outs.map (fun o => if o.store then o else { o with gap := o.gap - 1, last := false })
      guards := T.fl.guards.filter (fun g => !(g.ids.all (performedAt T g.scope))) } }

/-- Task `t` of glade `g` becomes the one that issues. What it issues may end its glade's run (R86, R216). -/
def select (w : Work) (g t : Nat) : Work :=
  updModel (updCtx w g (fun x => { x with runEnd := false })) (fun m => { m with glade := g, slot := t, issuing := 0, sw := false })

/-- What an instruction finds: its task selected and its promises counted. -/
def beginIssue (w : Work) : Work := updMe w beginTask

/-- STEP after an instruction that committed and raised nothing (R102 step 12, R380, R391). EPC is the next instruction's address as
R101 has it, where R103 writes a + 8. (DESIGN CHOICE, log entry 85.) -/
def stepTrap (w : Work) : Work :=
  let T := me w
  if (T.dbg.step || T.oneStep) && decide (T.pend = none) && !T.sys.inh && decide (T.run ≠ .retired) && T.held.isNone then
    updMe w (fun T => { T with oneStep := false, pend := some { code := 0x10, epc := T.pc, eaddr := 0, eval := 0, detail := 0, bundle := false } })
  else updMe w (fun T => { T with oneStep := false })

/-- The end of an issue: the run and the ages of R86, the counters, STEP, the pass-over counts that the instruction ended (R255), and
the counter of free values. `ready` lists the slots that were ready, `go` says that the issue continues the glade's run, `next` is
the glade whose turn comes. -/
def endIssue (w : Work) (ready : List Nat) (go : Bool) (nextGlade : Nat) : Work :=
  let g := curG w
  let t := curT w
  let committed := decide (w.ctl.model.issuing = 1 ∨ w.ctl.model.issuing = 4)
  let w := if committed then bump w g t 1 1 else w
  let w := if w.ctl.model.issuing = 1 then stepTrap w
    else if w.ctl.model.issuing = 4 then updMe w (fun T => { T with oneStep := false }) else w
  let others := ready.filter (· != t)
  let agedWaits := others.any (fun k => decide (48 ≤ (Tab.getD (gladeOf w.ctl g).ctx.tasks k Task.none).age))
  let w := updCtx w g (fun x =>
    let n := if go then x.runLen + 1 else 1
    { x with
      lastSlot := t, runLen := n
      runEnd := x.runEnd || (w.ctl.model.sw && decide (others ≠ [])) || decide (16 ≤ n) || agedWaits
      tasks := x.tasks.map (fun p => (p.1, { p.2 with age := if p.1 ≠ t ∧ ready.contains p.1 then p.2.age + 1 else 0 })) })
  updModel (settlePassed w g) (fun m => { m with glade := nextGlade, nonce := m.nonce + 1, issuing := 0, sw := false })

/-! ## Keys in flight (R169) -/

/-- The keys an instruction reads or writes, as rising ranges of the keyring. -/
def keysOf : Instr → List (KIdx × KIdx)
  | .kld _ k _ _ | .kst _ k _ _ | .kset _ k _ _ _ | .mzero _ k | .fill _ _ k _ => [(k, k)]
  | .kinv _ a b range => [(a, if range then b else a)]
  | .strmSr _ _ k _ | .strmSw _ _ k _ | .strmMs _ _ _ k _ => [(k, k)]
  | .mma _ _ a b c | .gather _ _ a b c | .scatter _ _ a b c => [(a, a), (b, b), (c, c)]
  | .mout _ _ _ _ a b _ | .copy _ _ _ _ _ _ a b _ | .unpack _ _ a b => [(a, a), (b, b)]
  | .packNz _ _ a b _ | .packThr _ _ a b _ | .packTop _ _ a b _ | .packSto _ _ a b _ => [(a, a), (b, b)]
  | .collAllred _ _ _ a b | .collRedscat _ _ _ a b | .collAllgath _ _ _ a b | .collBcast _ _ _ a b _ => [(a, a), (b, b)]
  | .copyMmaBundle _ _ _ _ _ _ a b _ _ ma mb mc => [(a, a), (b, b), (ma, ma), (mb, mb), (mc, mc)]
  | _ => []

/-- Whether an earlier KLD of the task is still on its way to a key the instruction reads or writes: it waits (R169). -/
def keyBusy (T : Task) (i : Instr) : Bool :=
  if T.fl.outs = [] then false
  else (keysOf i).any (fun r => T.fl.outs.any (fun o => match o.dest with
    | .key k => decide (r.1.toNat ≤ k) && decide (k ≤ r.2.toNat)
    | _ => false))

/-! ## Registers in flight (R81) -/

def xDest (d : XReg) : Dest := if d = 0 then .none else .x d.toNat

/-- The register that an instruction writes, as accesses in flight name theirs (R81); none for x0. -/
def instrDest : Instr → Dest
  | .add _ d _ _ | .sub _ d _ _ | .and _ d _ _ | .or _ d _ _ | .xor _ d _ _ | .shl _ d _ _ | .shr _ d _ _ | .sar _ d _ _
  | .rol _ d _ _ | .ror _ d _ _ | .min _ d _ _ | .max _ d _ _ | .minu _ d _ _ | .maxu _ d _ _ | .slt _ d _ _ | .sltu _ d _ _
  | .seq _ d _ _ | .sne _ d _ _ | .addi _ d _ _ | .subi _ d _ _ | .andi _ d _ _ | .ori _ d _ _ | .xori _ d _ _ | .shli _ d _ _
  | .shri _ d _ _ | .sari _ d _ _ | .roli _ d _ _ | .rori _ d _ _ | .mini _ d _ _ | .maxi _ d _ _ | .minui _ d _ _
  | .maxui _ d _ _ | .slti _ d _ _ | .sltui _ d _ _ | .seqi _ d _ _ | .snei _ d _ _ | .mul _ d _ _ | .mulh _ d _ _
  | .mulhu _ d _ _ | .div _ d _ _ | .divu _ d _ _ | .rem _ d _ _ | .remu _ d _ _ | .clz _ d _ | .ctz _ d _ | .popc _ d _
  | .sextB _ d _ | .sextH _ d _ | .sextW _ d _ | .zextB _ d _ | .zextH _ d _ | .zextW _ d _ | .brev _ d _ | .movi _ d _
  | .movih _ d _ _ | .lea _ d _ _ _ | .leaRg _ d _ _ | .ldB _ d _ _ _ _ _ | .ldH _ d _ _ _ _ _ | .ldW _ d _ _ _ _ _
  | .ldD _ d _ _ _ _ _ | .vlaneGet _ _ d _ _ | .vlaneGetu _ _ d _ _ | .qinfo _ _ d _ | .mprog _ d | .mwait _ d
  | .copy _ _ true _ _ _ _ _ d | .copyMmaBundle _ _ true _ _ _ _ _ d _ _ _ _ | .cpwait _ d _ | .collwait _ d _ _
  | .amoAdd _ _ d _ _ _ _ _ | .amoAnd _ _ d _ _ _ _ _ | .amoOr _ _ d _ _ _ _ _ | .amoXor _ _ d _ _ _ _ _
  | .amoMin _ _ d _ _ _ _ _ | .amoMax _ _ d _ _ _ _ _ | .amoMinu _ _ d _ _ _ _ _ | .amoMaxu _ _ d _ _ _ _ _
  | .amoSwap _ _ d _ _ _ _ _ | .amoCas _ _ d _ _ _ _ _ _ | .amoFadd _ d _ _ _ _ _ | .amoBfadd _ d _ _ _ _ _
  | .waitmon _ _ d _ _ _ _ _ _ | .barJoin _ d _ _ | .barArrive _ d _ _ | .barWait _ d _ _ _ | .barArrwait _ d _ _
  | .barDrop _ d _ _ | .frenew _ d _ | .flife _ d _ | .fclaim _ d _ | .rdtick _ d | .rngNext _ d | .rngGet _ d _ | .cfgw _ d _
  | .cfgs _ d _ _ _ | .planeStat _ d _ | .recvvc _ d _ | .recvvcNb _ d _ | .waitvc _ d _ | .sprr _ d _ | .launch _ d _
  | .lwait _ d _ | .leaseGet _ d _ _ | .leaseRevoke _ d _ _ | .leaseRelease _ d _ _ | .retireBegin _ d _ | .holdSet _ d _ _
  | .holdRel _ d _ _ | .pctrRd _ d _ | .histRd _ d _ _ => xDest d
  | .vld _ d _ _ _ | .vgath _ d _ _ _ _ | .vadd _ _ d _ _ | .vsub _ _ d _ _ | .vand _ _ d _ _ | .vor _ _ d _ _
  | .vxor _ _ d _ _ | .vshl _ _ d _ _ | .vshr _ _ d _ _ | .vsar _ _ d _ _ | .vmin _ _ d _ _ | .vmax _ _ d _ _
  | .vminu _ _ d _ _ | .vmaxu _ _ d _ _ | .vmul _ _ d _ _ | .vmulh _ _ d _ _ | .vmulhu _ _ d _ _ | .vadds _ _ d _ _
  | .vsubs _ _ d _ _ | .vaddsu _ _ d _ _ | .vsubsu _ _ d _ _ | .vabs _ _ d _ | .vfadd _ _ _ d _ _ | .vfsub _ _ _ d _ _
  | .vfmul _ _ _ d _ _ | .vfmin _ _ d _ _ | .vfmax _ _ d _ _ | .vfabs _ _ d _ | .vfneg _ _ d _ | .vfma _ _ _ d _ _ _
  | .vfms _ _ _ d _ _ _ | .vfnma _ _ _ d _ _ _ | .vfnms _ _ _ d _ _ _ | .vrcp _ d _ | .vrsq _ d _ | .vexp2 _ d _
  | .vlog2 _ d _ | .vcmp _ _ _ d _ _ | .vsel _ _ d _ _ _ | .vcvt _ _ _ _ d _ _ | .vscan _ _ _ d _ _ | .vperm _ _ d _ _ _
  | .vbcastX _ _ d _ | .vbcastV _ _ d _ _ | .vlaneSet _ _ d _ _ | .vlaneIota _ _ d | .vldq _ d _ _ _ | .vldqAdv _ d _ _ _ => .v d.toNat
  | .vred _ _ _ d _ =>
    match d with
    | .x r => xDest r
    | .v r => .v r.toNat
  | .jal _ _ => .x 31
  | _ => .none

/-- Whether an earlier access of the task has still to write the register that the instruction writes: it waits, so that the writes
take effect in program order and each register read gets the value before the earlier instruction or the one it wrote (R81, R82).
(DEDUCED, log entry 13.) -/
def destBusy (T : Task) (i : Instr) : Bool := instrDest i != .none && T.fl.outs.any (fun o => o.dest == instrDest i)

/-- What holds an instruction back before it is looked at: a key or a register on its way. -/
def inFlight (T : Task) (i : Instr) : Bool := keyBusy T i || destBusy T i

/-! ## Control arrays used at issue (R424) -/

/-- The entry of a handle. -/
def handleUnit (w : Work) (h : QReg) : List CtlUnit := ((rq w h).map (fun e => CtlUnit.buf e.toNat)).toList

/-- The words of its glade's control arrays that an instruction reads when it issues: the keys it names, the entries of its handles,
the plane it acts on. A KLD and a KINV write their keys. -/
def ctlOf (w : Work) : Instr → List CtlUnit
  | .kld .. | .kinv .. => []
  | .qinfo _ _ _ h | .qadvC _ h _ _ | .qadvP _ h _ _ | .qwaitC _ h _ | .qwaitP _ h _ | .vldq _ _ h _ _ | .vldqAdv _ _ h _ _ | .vstq _ h _ _ _
  | .vstqAdv _ h _ _ _ => handleUnit w h
  | .planeRun _ p | .planeHalt _ p | .planeStat _ _ p | .planeClr _ p => [.plane p.toNat]
  | i => ((keysOf i).map (fun r => CtlUnit.key r.1.toNat))

/-! ## One issue -/

/-- Slot `t` of glade `g` issues its next instruction: what the machine is before the ages and runs are counted. One whose keys have
an error that cannot be corrected does not: its launch ends (R424). -/
def issueSlot (s : State) (g t : Nat) : Out3 :=
  let w := select (Work.start s) g t
  match fetch w with
  | (.trap c b, w) =>
    if c.code = 0 then .next ((notReady noMarks (beginIssue w)).doneIn s)
    else
      .next ((trapC (beginIssue w) noMarks
        { code := c.code, epc := (me w).pc, eaddr := c.eaddr, eval := c.eval, detail := c.detail, bundle := b
          ord := w.ctl.model.nextId }).doneIn s)
  | (.instr i, w) =>
    if inFlight (me w) i then .next ((notReady noMarks (beginIssue w)).doneIn s)
    else
      let (w, ended) := useCtl w g (ctlOf w i)
      if ended then .next ((outcome (beginIssue w) 2 noMarks).doneIn s) else exec i ((beginIssue w).doneIn s)

/-- Whether an outcome is an issue: anything but "not ready". -/
def issued : Out3 → Bool
  | .next s => s.ctl.model.issuing != 3
  | _ => true

/-- The slots of a glade that may try their next instruction, each with what comes of it (R86). -/
def tries (s : State) (g : Nat) : List (Nat × Out3) :=
  let G := gladeOf s.ctl g
  G.ctx.tasks.filterMap (fun p => if slotRuns G p.2 then some (p.1, issueSlot s g p.1) else none)

/-- What a try that was not ready leaves: since when its port waits (R70), and the stores its load waits for (R289). -/
def noteTry (g : Nat) (w : Work) (r : Nat × Out3) : Work :=
  match r.2 with
  | .next s =>
    if s.ctl.model.issuing ≠ 3 then w
    else
      let l := (taskOf s.ctl g r.1).fl.behind
      let w := if l = (taskOf w.ctl g r.1).fl.behind then w else updTask w g r.1 (fun T => { T with fl := { T.fl with behind := l } })
      (netOf s.ctl g).spills.foldl (fun w q =>
        match Tab.find q.2.waits r.1, Tab.find (spillOf w.ctl g q.1).waits r.1 with
        | some k, none => setSpill w g q.1 { spillOf w.ctl g q.1 with waits := Tab.set (spillOf w.ctl g q.1).waits r.1 k }
        | _, _ => w) w
  | _ => w

/-- Round-robin distance of a slot from the one that issued last. -/
def rrDist (last t : Nat) : Nat := (t + 15 - last) % 16

/-- Whether an issue of slot `t` continues the glade's run (R86). -/
def goesOn (x : GladeCtx) (t : Nat) : Bool := decide (x.lastSlot = t) && !x.runEnd && decide (0 < x.runLen)

/-- The slot that issues next among the ready ones (R86). -/
def pickSlot (x : GladeCtx) (ready : List Nat) : Option Nat :=
  let age := fun t => (Tab.getD x.tasks t Task.none).age
  let aged := ready.filter (fun t => decide (48 ≤ age t))
  if ready.contains x.lastSlot && goesOn x x.lastSlot && (aged.filter (· != x.lastSlot)).isEmpty then some x.lastSlot
  else
    let better := fun (a b : Nat) => if age b < age a ∨ (age a = age b ∧ rrDist x.lastSlot a < rrDist x.lastSlot b) then a else b
    let nearer := fun (a b : Nat) => if rrDist x.lastSlot a < rrDist x.lastSlot b then a else b
    match aged, ready with
    | a :: r, _ => some (r.foldl (fun m t => better t m) a)
    | [], a :: r => some (r.foldl (fun m t => nearer t m) a)
    | [], [] => none

/-- No slot of the glade is ready: its run is over, and a task's age is zero when it becomes ready again (R86). -/
def restGlade (w : Work) (g : Nat) : Work :=
  let x := (gladeOf w.ctl g).ctx
  if x.runEnd ∧ x.tasks.all (fun p => decide (p.2.age = 0)) = true then w
  else updCtx w g (fun x => { x with runEnd := true, tasks := x.tasks.map (fun p => (p.1, { p.2 with age := 0 })) })

/-- Glade `g` issues one instruction, if any of its slots can; otherwise its run is over, and what the tries leave stands. -/
def issueIn (s : State) (g nextGlade : Nat) : Option Out3 × State :=
  let all := tries s g
  let rs := all.filter (fun r => issued r.2)
  let x := (gladeOf s.ctl g).ctx
  match pickSlot x (rs.map (·.1)) with
  | none =>
    let w := all.foldl (noteTry g) (Work.start s)
    (none, (restGlade w g).doneIn s)
  | some t =>
    ((rs.find? (fun r => r.1 == t)).map (fun r =>
      match r.2 with
      | .next s' => commit s' (fun w => endIssue (all.foldl (noteTry g) w) (rs.map (·.1)) (goesOn x t) nextGlade)
      | o => o), s)

/-- The glades in the order of their turns, each with the one after it. -/
def gladeTurns (c : Ctl) : List (Nat × Nat) :=
  let ks := c.glades.map (·.1)
  let r := ks.filter (fun k => decide (c.model.glade ≤ k)) ++ ks.filter (fun k => decide (k < c.model.glade))
  r.zip (r.drop 1 ++ r.take 1)

/-- Nothing happens but the counter of free values going on. -/
def idle (s : State) : Out3 := commit s (fun w => updModel w (fun m => { m with nonce := m.nonce + 1 }))

/-- The first glade of a list that can issue does. -/
def issueFrom (s : State) : List (Nat × Nat) → Out3
  | [] => idle s
  | p :: r =>
    match issueIn s p.1 p.2 with
    | (some o, _) => o
    | (none, s) => issueFrom s r

/-- The turn of the hinge cores: the first glade, in turn, that can issue does; none without a reference (R448).
(DESIGN CHOICE, log entry 9.) -/
def issueTurn (s : State) : Out3 := if s.ctl.power.lostRef then idle s else issueFrom s (gladeTurns s.ctl)

/-- One step of the package (R285): what the outside brings, else a turn of the hinge cores, of the other agents, or of
the timebase. (DESIGN CHOICE, log entries 9, 21 and 72.) -/
def turn (s : State) : Out3 :=
  match s.ctl.model.agenda with
  | i :: rest =>
    let s := { s with ctl := { s.ctl with model := { s.ctl.model with agenda := rest } } }
    if i.core then idle s else exec i s
  | [] =>
    if s.ctl.model.nonce % 4 < 2 then issueTurn s
    else if s.ctl.model.nonce % 4 = 2 then commit s (fun w => updModel (background w) (fun m => { m with nonce := m.nonce + 1 }))
    else commit s (fun w => updModel (tick w) (fun m => { m with nonce := m.nonce + 1 }))

/-! ## Placing an instruction (log entry 6) -/

/-- The task that runs a placed instruction where none stands at management glade 256: P2, identity mapping, no GAP. -/
def placedTask : Task := mgmtTask 2 0 0

/-- The state with the bytes of an instruction at the PC of task T0 of the management glade of die 0, that task ready
and alone in its glade's turn; the placing stands for a load from outside. -/
def placeWord (s : State) (nbits v : Nat) : State :=
  let T := taskOf s.ctl 256 0
  let T := if T.run = .free then placedTask else { T with run := .runnable, wait := none, held := none, pend := none }
  let T := { T with sys := { T.sys with priv := 2 }, fl := { T.fl with outs := [], promises := [], guards := [] } }
  let w := updTask (Work.start s) 256 0 (fun _ => T)
  let w := updCtx w 256 (fun x => { x with tasks := [(0, Tab.getD x.tasks 0 Task.none)], lastSlot := 15, runLen := 0, runEnd := true })
  let w := updGlade w 256 (fun G => { G with halted := false })
  let w := updCtl w (fun c => { c with power := { c.power with lostRef := false }, sec := { c.sec with mptroot := 0 } })
  let w := updModel w (fun m => { m with glade := 256, slot := 0, agenda := [], nonce := 0 })
  let a := pkgNo w.ctl * 2 ^ 44 + T.pc.toNat
  (putBytes w a (natLe 16 (v % 2 ^ nbits))).doneIn s

end Sys2Proof.Machine
end

