-- ==== Sys2Proof/Machine/Step.lean ====
section
/-! DEFINITION. One step of the machine, and the placing of a word where the next instruction is fetched. -/
namespace Sys2Proof.Machine

/-- One step (R285). Once every timebase reference has failed, nothing runs until the next power-on (R448). -/
def step (s : State) : Host.Outcome State Fault Refusal := turn s

/-- `s` with an instruction where `step` fetches next: see `placeWord`. -/
def State.withFetchWord (s : State) (nbits w : Nat) : State := placeWord s nbits w

end Sys2Proof.Machine
end

