-- ==== Sys2Proof/Safety.lean ====
section
/-! DEFINITION. The words the statements are written in: what a state shows of its tasks and glades, what an instruction
may leave behind, what it may touch, and the invariant of the memory. -/
namespace Sys2Proof.Machine

/-! ## What a state shows -/

/-- Task `t` of physical glade `g`. -/
def State.taskAt (s : State) (g t : Nat) : Task := taskOf s.ctl g t
/-- Physical glade `g`. -/
def State.gladeAt (s : State) (g : Nat) : Glade := gladeOf s.ctl g
/-- The glade and the slot of the instruction that `exec` executes. -/
def State.g (s : State) : Nat := s.ctl.model.glade
def State.t (s : State) : Nat := s.ctl.model.slot
/-- The task whose instruction `exec` executes. -/
def State.task (s : State) : Task := s.taskAt s.g s.t
/-- Its glade. -/
def State.here (s : State) : Glade := s.gladeAt s.g
def State.pc (s : State) : Word := s.task.pc
def State.sys (s : State) : Sys := s.task.sys
def State.regs (s : State) : Regs := s.task.regs
/-- x[i] as the task holds it: x0 is 0. -/
def State.x (s : State) (i : XReg) : Word := regX s.regs i
def State.v (s : State) (i : VReg) : BitVec 2048 := regV s.regs i
def State.q (s : State) (i : QReg) : Option (BitVec 6) := regQ s.regs i
/-- The bytes of an own scratchpad offset. -/
def State.scr (s : State) (off n : Nat) : List Byte := (List.range n).map (fun i => s.byte (scrAt s.g (off + i)))
/-- Key `k` and buffer entry `e` of the glade. -/
def State.key (s : State) (k : Nat) : Key := Tab.getD s.here.ctx.eng.keys k 0
def State.buf (s : State) (e : Nat) : Buf := bufOf s.ctl s.g e
/-- The commands in a queue of the glade, the one at its head first. -/
def State.queue (s : State) (q : Queue) : List Cmd := cmdsOf s.ctl s.g q

/-- Plane `p` of the glade, and element `e` of it. -/
def State.plane (s : State) (p : Nat) : Plane := planeOf s.ctl s.g p
def State.element (s : State) (p e : Nat) : Elem := elemOf (s.plane p) e
/-- The inbound buffer of virtual channel `v` of the glade. -/
def State.inbound (s : State) (v : Nat) : VcBuf := vcBuf s.ctl s.g v
/-- Partition `p`, and launch `n` of it. -/
def State.part (s : State) (p : Nat) : Part := partOf s.ctl p
def State.launch (s : State) (p n : Nat) : Option Launch := launchOf s.ctl p n

/-! ## Hypotheses on a state -/

/-- No GAP promise is open: a register reads as the task holds it (R82). -/
def State.Settled (s : State) : Prop := s.task.fl.promises = []

/-- Nothing of the task is on its way: no promise, no access in flight, no store held back, no guard. -/
structure State.Quiet (s : State) : Prop where
  promises : s.task.fl.promises = []
  outs : s.task.fl.outs = []
  sq : s.task.fl.sq = []
  guards : s.task.fl.guards = []

/-- No mark of poison or error, no monitor, no watchpoint, no message and no queue stands between the task and its own
scratchpad, and the model performs at once what can be performed. -/
structure State.Clear (s : State) : Prop where
  poison : s.ctl.marks.poison = []
  latent : s.ctl.marks.latent = []
  soft : s.ctl.marks.soft = []
  mons : s.here.mons = []
  banks : s.here.banks = []
  hops : s.ctl.net.hops = []
  wps : s.here.ctx.wps = Vector.replicate 4 0
  now : s.ctl.model.defer = false
  room : s.g < 2 ^ 33

/-- No store of the task that shares a byte with its waiting load is still on its way (R289). -/
def State.Unshared (s : State) : Prop := ∀ i ∈ s.task.fl.behind, findOut s.task i = none

/-- No task sleeps on a barrier word that overlaps `n` bytes at `a` (R208). -/
def State.NoBarSleeper (s : State) (a n : Nat) : Prop := ∀ g k, barSleeper (s.taskAt g k) a n = false

/-- Whoever sleeps on a barrier word that overlaps the word at `a` sleeps on that word, in its present phase (R208). -/
def State.BarOk (s : State) (a : Nat) : Prop :=
  ∀ g k, barSleeper (s.taskAt g k) a 4 = true →
    ∃ d, (s.taskAt g k).run = .sleeping (.bar a (barOf (leNat ((List.range 4).map (fun i => s.byte (a + i))))).phase d)

/-! ## States an instruction can end in -/

/-- The state after work on `s`. -/
def State.after (s : State) (f : Work → Work) : State := (f (Work.start s)).doneIn s
/-- The task wrote x[d] and went on (R77, R105). -/
def State.wroteX (s : State) (m : Marks) (d : XReg) (v : Word) : State := s.after (fun w => next m (wx w m d v))
/-- The task wrote v[d] and went on. -/
def State.wroteV (s : State) (m : Marks) (d : VReg) (v : BitVec 2048) : State := s.after (fun w => next m (wv w m d v))
/-- The task wrote handle q[d] and went on. -/
def State.wroteQ (s : State) (m : Marks) (d : QReg) (v : Option (BitVec 6)) : State := s.after (fun w => next m (wq w m d v))
/-- The task went on with the next instruction and nothing else happened. -/
def State.went (s : State) (m : Marks) : State := s.after (next m)
/-- The task went to `pc` and nothing else happened. -/
def State.wentTo (s : State) (m : Marks) (pc : Word) : State := s.after (goto m pc)
/-- The task's registers, STATUS or flight changed by `f`, and it went on. -/
def State.edited (s : State) (m : Marks) (f : Task → Task) : State := s.after (fun w => next m (updMe w f))
/-- The instruction was not ready: it is tried again and has done nothing (R83). -/
def State.waits (s : State) (m : Marks) : State := s.after (notReady m)
/-- The instruction raised a cause of its own (R101): number, EADDR, EVAL, DETAIL. -/
def State.trapped (s : State) (m : Marks) (code : Nat) (eaddr eval : Word) (detail : Nat) : State :=
  s.after (fun w => trapOwn w m code eaddr eval detail)

/-! ## What a change leaves alone -/

/-- A glade without its tasks. -/
def Glade.bare (G : Glade) : Glade := { G with ctx := { G.ctx with tasks := [] } }

/-- Only the current task changed, and what the model keeps for itself. -/
structure OnlyMine (s t : State) : Prop where
  mem : t.mem = s.mem
  tasks : ∀ g k, g ≠ s.g ∨ k ≠ s.t → t.taskAt g k = s.taskAt g k
  glades : ∀ g, (t.gladeAt g).bare = (s.gladeAt g).bare
  package : { t.ctl with glades := s.ctl.glades, model := s.ctl.model } = s.ctl
  same : t.g = s.g ∧ t.t = s.t

/-- Nothing of a task changed but its PC, registers and what it has in flight. -/
structure SysKept (T U : Task) : Prop where
  sys : U.sys = T.sys
  dbg : U.dbg = T.dbg
  run : U.run = T.run
  wait : U.wait = T.wait
  held : U.held = T.held
  pend : U.pend = T.pend

/-! ## Accesses of the current task -/

/-- The state once the address of an access has been checked and translated: a P1 or P2 task's walk may fill its caches
and set A and D bits (R371, R453); for any other access it is the state itself. -/
def State.looked (s : State) (sp : Space) (ea : Word) (n align : Nat) (need : Need) : State :=
  s.after (fun w => (locate w sp ea n align need).2)

/-- The place where the checks of an access let it through (R102, R124). -/
def State.place (s : State) (sp : Space) (ea : Word) (n align : Nat) (need : Need) : Except Trapped Xlate :=
  (locate (Work.start s) sp ea n align need).1

/-- The request of an access of `n` bytes issued in `s`. -/
def State.request (s : State) (sp : Space) (ea : Word) (x : Xlate) (acc : Access) : Req :=
  mkReq (Work.start s) s.ctl.model.nextId sp ea.toNat x acc 0

/-- The lanes of a gather or scatter with their addresses (R137): those whose offset is not all ones, in ascending order. -/
def State.lanesOn (s : State) (a : XReg) (b : VReg) : List (Nat × Word) :=
  ((List.range 64).filter (fun i => lane 32 (s.v b) i ≠ 0xFFFFFFFF)).map (fun i => (i, s.x a + BitVec.ofNat 64 (lane 32 (s.v b) i)))

/-- The places of the lanes where their checks let them all through (R102, R137). -/
def State.placeLanes (s : State) (sp : Space) (n : Nat) (need : Need) (ls : List (Nat × Word)) :
    Except Trapped (List (Nat × Word × Xlate)) := (lanesLocate (Work.start s) sp n need ls).1

/-- The state once the lanes have been checked and translated. -/
def State.lookedLanes (s : State) (sp : Space) (n : Nat) (need : Need) (ls : List (Nat × Word)) : State :=
  s.after (fun w => (lanesLocate w sp n need ls).2)

/-- A request stands in its first queue (R285): the banks of the own glade, a message in the words it makes there, or the first
hop toward another home. -/
def Queued (s : State) (r : Req) : Prop :=
  let banks := ∀ q ∈ splitMsg r, ∀ b ∈ bankKeys q, q ∈ bankQ s.ctl r.g b
  let hop := r ∈ hopReqs s.ctl.net (.gladeRouter r.g) (homeOf s.ctl r)
  match homeOf s.ctl r with
  | .glade t => if t = r.g then banks else hop
  | _ => hop

/-- Whether the words of an access to the own scratchpad go one after the other (R141, R356): it has more than one. -/
def wordByWord (sp : Space) (reqs : List Req) : Bool :=
  decide ((if reqs.any (fun r => decide (homeSp r ≠ r.sp)) then .scr else sp) = .scr) && decide (1 < reqs.length)

/-- The instruction went on with its access on its way: a record of it that writes `dest`, and its requests, each in its first
queue, or still to be sent one after the other. -/
structure Issued (s u : State) (dest : Dest) (sp : Space) (gap : Nat) (atom fe acq : Bool) (reqs : List Req) : Prop where
  pc : u.pc = s.pc + 8
  regs : u.regs = s.regs
  sys : u.sys = s.sys
  mem : u.mem = s.mem
  out : { id := s.ctl.model.nextId, store := false, atom := atom, lvl := 0,
          left := if wordByWord sp reqs then reqs.length
            else (reqs.map (fun r => if homeOf s.ctl r = .glade r.g then (splitMsg r).length else 1)).sum,
          stage := 0, bad := none, dest := dest, gap := gap, pc := s.pc, fe := fe,
          sp := if reqs.any (fun r => decide (homeSp r ≠ r.sp)) then .scr else sp,
          todo := if wordByWord sp reqs then reqs else [] } ∈ u.task.fl.outs
  guards : u.task.fl.guards =
    s.task.fl.guards ++ (if acq then [{ ids := [s.ctl.model.nextId], scope := 7, covers := 0 }] else [])
  queued : if wordByWord sp reqs then u.ctl.net = s.ctl.net else ∀ r ∈ reqs, Queued u r

/-- The byte that the youngest of these writes leaves at an address, if one writes it. -/
def byteWritten (reqs : List Req) (a : Nat) : Option Byte :=
  reqs.reverse.findSome? (fun r => match r.acc with
    | .write bs => if r.addr ≤ a then bs[a - r.addr]? else none
    | _ => none)

/-- A store of `n` bytes by task `t` of glade `g` to an aligned offset of the glade's own scratchpad. -/
structure OwnStore (g t : Nat) (r : Req) (off : Nat) (bs : List Byte) : Prop where
  who : r.g = g ∧ r.t = t
  sp : r.sp = .scr
  addr : r.addr = scrAt g off
  whole : r.whole = 0
  acc : r.acc = .write bs
  size : bs.length = 1 ∨ bs.length = 2 ∨ bs.length = 4 ∨ bs.length = 8
  aligned : off % bs.length = 0
  inside : off < 0x180000

/-- The instruction went on with its stores in SQ(t), one entry of these requests, and nothing written yet. -/
structure Stored (s u : State) (wait : List Nat) (scope : Nat) (reqs : List Req) : Prop where
  pc : u.pc = s.pc + 8
  regs : u.regs = s.regs
  sys : u.sys = s.sys
  mem : u.mem = s.mem
  net : u.ctl.net = s.ctl.net
  sq : u.task.fl.sq = s.task.fl.sq ++ [{ id := s.ctl.model.nextId, reqs := reqs, waitFor := wait, scope := scope }]
  outs : u.task.fl.outs = s.task.fl.outs ++ reqs.map (storeOut s.pc)
  tasks : ∀ g k, g ≠ s.g ∨ k ≠ s.t → u.taskAt g k = s.taskAt g k

/-- The instruction went on with its access performed and x[d] written: nothing else of the machine but bytes changed. -/
structure Performed (s u : State) (d : XReg) (v : Word) : Prop where
  pc : u.pc = s.pc + 8
  sys : u.sys = s.sys
  result : d ≠ 0 → u.x d = v
  x : ∀ j, j ≠ d → u.x j = s.x j
  v : ∀ j, u.v j = s.v j
  q : ∀ j, u.q j = s.q j
  outs : u.task.fl.outs = []
  sq : u.task.fl.sq = []
  tasks : ∀ g k, g ≠ s.g ∨ k ≠ s.t → u.taskAt g k = s.taskAt g k

/-- The atomics of R200 with their numbers; `dbl` selects the dword form, which FADD and BFADD do not have. -/
def atomics (m : Marks) (dbl : Bool) (d a b c : XReg) (sp : Space) (sc : BitVec 3) (ord : Order) : List (Nat × Instr) :=
  [(0, .amoAdd m dbl d a b sp sc ord), (1, .amoAnd m dbl d a b sp sc ord), (2, .amoOr m dbl d a b sp sc ord),
   (3, .amoXor m dbl d a b sp sc ord), (4, .amoMin m dbl d a b sp sc ord), (5, .amoMax m dbl d a b sp sc ord),
   (6, .amoMinu m dbl d a b sp sc ord), (7, .amoMaxu m dbl d a b sp sc ord), (8, .amoSwap m dbl d a b sp sc ord),
   (9, .amoCas m dbl d a b c sp sc ord)] ++
  (if dbl then [] else [(10, .amoFadd m d a b sp sc ord), (11, .amoBfadd m d a b sp sc ord)])

/-- The new value of an atomic (R200) on `n` bytes: old value, operand, compare value. -/
def atomicValue (op n old b c : Nat) : Nat :=
  let w := 8 * n
  let S := signedOf w
  let half := fun (x y : Nat) => bf16.ieee .rne ((bf16.val x).add .rne (bf16.val y))
  match op with
  | 0 => (old + b) % 2 ^ w
  | 1 => old &&& b
  | 2 => old ||| b
  | 3 => old ^^^ b
  | 4 => wrapInt w (min (S old) (S b))
  | 5 => wrapInt w (max (S old) (S b))
  | 6 => min old b
  | 7 => max old b
  | 8 => b
  | 9 => if old = c then b else old
  | 10 => fp32.ieee .rne ((fp32.val old).add .rne (fp32.val b))
  | _ => half (old % 2 ^ 16) (b % 2 ^ 16) + 2 ^ 16 * half (old / 2 ^ 16) (b / 2 ^ 16)

/-- A command of task `t` with these keys stands last in its queue, not begun, and among the task's unreported commands;
every other queue, the keys, the buffer entries and every byte are as they were. -/
structure Entered (s u : State) (q : Queue) (op : CmdOp) (ka kb kc : Key) (slot : Nat) (prom : Option Nat) : Prop where
  mem : u.mem = s.mem
  queue : ∃ c, u.queue q = s.queue q ++ [c] ∧ c.id = s.ctl.model.nextId ∧ c.t = s.t ∧ c.op = op ∧ c.ka = ka ∧ c.kb = kb ∧
    c.kc = kc ∧ c.slot = slot ∧ c.begun = false
  others : ∀ r, r ≠ q → u.queue r = s.queue r
  recs : u.task.fl.recs = s.task.fl.recs ++
    [{ id := s.ctl.model.nextId, q := q, slot := slot, done := false, flags := 0, count := 0, prom := prom }]
  keys : ∀ k, u.key k = s.key k
  bufs : ∀ e, u.buf e = s.buf e
  x : prom = none → ∀ j, u.x j = s.x j
  v : ∀ j, u.v j = s.v j
  sys : u.sys = s.sys

/-! ## Exact values, reductions and scans (R35, R41, R53 to R55) -/

/-- `man` times two to the `exp`. -/
def ratOf (man : Nat) (exp : Int) : Rat := (man : Rat) * (2 : Rat) ^ exp

/-- The value of a magnitude code, the exponent unbounded above. -/
def FFmt.magVal (F : FFmt) (c : Nat) : Rat :=
  if c < 2 ^ F.m then ratOf c (1 - (F.bias : Int) - F.m)
  else ratOf (c % 2 ^ F.m + 2 ^ F.m) ((c / 2 ^ F.m : Nat) - (F.bias : Int) - F.m)

/-- What the operation of a reduction or scan makes of a left and a right lane (R53, R54, R149). -/
def joined (ty : LaneTy) (op : ROp) (a b : Nat) : Nat :=
  let k := tyBits ty
  let S := signedOf k
  match tyFmt ty with
  | some F => F.ieee .rne (match op with
    | .min => (F.val a).minMax false (F.val b)
    | .max => (F.val a).minMax true (F.val b)
    | _ => (F.val a).add .rne (F.val b))
  | none => match op with
    | .add => (a + b) % 2 ^ k
    | .min => wrapInt k (min (S a) (S b))
    | .max => wrapInt k (max (S a) (S b))
    | .minu => min a b
    | .maxu => max a b
    | .and => a &&& b
    | .or => a ||| b
    | .xor => a ^^^ b

/-- Position `i` at a level of the pairwise tree over the lanes `y` (R54). -/
def pairTree (f : Nat → Nat → Nat) (y : Nat → Nat) : Nat → Nat → Nat
  | 0, i => y i
  | k + 1, i => f (pairTree f y k (2 * i)) (pairTree f y k (2 * i + 1))

/-- Lane `i` and its head flag after the first `k` distances of a scan over the lanes `y` with heads `h` (R55). -/
def scanAt (f : Nat → Nat → Nat) (y : Nat → Nat) (h : Nat → Bool) : Nat → Nat → Nat × Bool
  | 0, i => (y i, h i)
  | k + 1, i =>
    let b := scanAt f y h k i
    if i < 2 ^ k then b
    else
      let a := scanAt f y h k (i - 2 ^ k)
      (if b.2 then b.1 else f a.1 b.1, b.2 || a.2)

/-! ## Thicket firings (R61, R253) -/

/-- No word of these control arrays of a glade holds an error (R424, R439). -/
def State.CtlGood (s : State) (g : Nat) (us : List CtlUnit) : Prop :=
  ∀ u ∈ us, u ∉ (s.gladeAt g).ctlBad ∧ u ∉ (s.gladeAt g).ctlSoft

/-- Plane `p` is the active one of glade `g`, ELIGIBLE, its configuration without an error, the thicket is not stopped, and no
decision is due (R255, R256). -/
structure ActivePlane (s : State) (g p : Nat) : Prop where
  runs : (s.gladeAt g).halted = false
  chosen : (s.gladeAt g).ctx.net.active = some p
  eligible : (planeOf s.ctl g p).st = .eligible
  goesOn : (s.gladeAt g).ctx.net.redecide = false
  beats : (planeOf s.ctl g p).beats < 256
  number : p < 4
  config : s.CtlGood g [.plane p]

/-- The plane after element `e` fired at beat `beat`: the inputs of `takes` lost their heads, the outputs of `writes` gave
their tokens to the arcs they feed, the element is `x`, and the plane is done once its sinks are. -/
def Plane.afterFiring (P : Plane) (e : Nat) (takes : List Nat) (writes : List (Nat × Token)) (x : Elem) (beat : Nat) : Plane :=
  let P := takes.foldl (fun P j => popTok P e j) P
  let P := writes.foldl (fun P o => pushTok P e o.1 o.2 beat) P
  let P := putElem P e x
  { P with done := P.done || sinksDone P }

/-- A firing left plane `p` of glade `g` as `P`, and counted one beat of the plane and of the thicket; a plane that is no
candidate then has no pass-over count (R255). -/
structure Fired (s u : State) (g p : Nat) (P : Plane) : Prop where
  mem : u.mem = s.mem
  plane : planeOf u.ctl g p =
    { P with beats := P.beats + 1, passed := if planeScore u.ctl g p = 0 then 0 else (planeOf s.ctl g p).passed }
  others : ∀ r, r ≠ p → planeOf u.ctl g r =
    { planeOf s.ctl g r with passed := if r < 4 ∧ planeScore u.ctl g r = 0 then 0 else (planeOf s.ctl g r).passed }
  beats : (u.gladeAt g).ctx.net.beats = (s.gladeAt g).ctx.net.beats + 1
  active : (u.gladeAt g).ctx.net.active = some p

/-! ## Instructions by what they write -/

/-- The instructions whose whole effect is one x register, and that register (R105 to R113, R149, R152, R215). -/
def intoX : Instr → Option (Marks × XReg)
  | .add m d _ _ | .sub m d _ _ | .and m d _ _ | .or m d _ _ | .xor m d _ _ | .shl m d _ _ | .shr m d _ _
  | .sar m d _ _ | .rol m d _ _ | .ror m d _ _ | .min m d _ _ | .max m d _ _ | .minu m d _ _ | .maxu m d _ _
  | .slt m d _ _ | .sltu m d _ _ | .seq m d _ _ | .sne m d _ _ | .mul m d _ _ | .mulh m d _ _ | .mulhu m d _ _
  | .div m d _ _ | .divu m d _ _ | .rem m d _ _ | .remu m d _ _ | .leaRg m d _ _ => some (m, d)
  | .addi m d _ _ | .subi m d _ _ | .andi m d _ _ | .ori m d _ _ | .xori m d _ _ | .shli m d _ _ | .shri m d _ _
  | .sari m d _ _ | .roli m d _ _ | .rori m d _ _ | .mini m d _ _ | .maxi m d _ _ | .minui m d _ _ | .maxui m d _ _
  | .slti m d _ _ | .sltui m d _ _ | .seqi m d _ _ | .snei m d _ _ | .movih m d _ _ => some (m, d)
  | .clz m d _ | .ctz m d _ | .popc m d _ | .sextB m d _ | .sextH m d _ | .sextW m d _ | .zextB m d _ | .zextH m d _
  | .zextW m d _ | .brev m d _ => some (m, d)
  | .lea m d _ _ _ => some (m, d)
  | .movi m d _ => some (m, d)
  | .rdtick m d => some (m, d)
  | .vlaneGet m _ d _ _ | .vlaneGetu m _ d _ _ => some (m, d)
  | .vred m _ _ (.x d) _ => some (m, d)
  | _ => none

/-- The instructions that write one v register, and that register (R142 to R152). -/
def intoV : Instr → Option (Marks × VReg)
  | .vadd m _ d _ _ | .vsub m _ d _ _ | .vand m _ d _ _ | .vor m _ d _ _ | .vxor m _ d _ _ | .vshl m _ d _ _
  | .vshr m _ d _ _ | .vsar m _ d _ _ | .vmin m _ d _ _ | .vmax m _ d _ _ | .vminu m _ d _ _ | .vmaxu m _ d _ _
  | .vmul m _ d _ _ | .vmulh m _ d _ _ | .vmulhu m _ d _ _ | .vadds m _ d _ _ | .vsubs m _ d _ _ | .vaddsu m _ d _ _
  | .vsubsu m _ d _ _ => some (m, d)
  | .vabs m _ d _ => some (m, d)
  | .vfadd m _ _ d _ _ | .vfsub m _ _ d _ _ | .vfmul m _ _ d _ _ => some (m, d)
  | .vfmin m _ d _ _ | .vfmax m _ d _ _ => some (m, d)
  | .vfabs m _ d _ | .vfneg m _ d _ => some (m, d)
  | .vfma m _ _ d _ _ _ | .vfms m _ _ d _ _ _ | .vfnma m _ _ d _ _ _ | .vfnms m _ _ d _ _ _ => some (m, d)
  | .vrcp m d _ | .vrsq m d _ | .vexp2 m d _ | .vlog2 m d _ => some (m, d)
  | .vcmp m _ _ d _ _ => some (m, d)
  | .vsel m _ d _ _ _ => some (m, d)
  | .vcvt m _ _ _ d _ _ => some (m, d)
  | .vscan m _ _ d _ _ => some (m, d)
  | .vred m _ _ (.v d) _ => some (m, d)
  | .vperm m _ d _ _ _ => some (m, d)
  | .vbcastX m _ d _ => some (m, d)
  | .vbcastV m _ d _ _ => some (m, d)
  | .vlaneSet m _ d _ _ => some (m, d)
  | .vlaneIota m _ d => some (m, d)
  | _ => none

/-- The instructions that write no register at all but perhaps x31, the loop counters and FE: NOP, branches, jumps, loops
(R105, R114 to R120). -/
def controlOnly : Instr → Bool
  | .nop _ _ | .beq _ _ _ _ | .bne _ _ _ _ | .blt _ _ _ _ | .bge _ _ _ _ | .bltu _ _ _ _ | .bgeu _ _ _ _ | .bfe _ _
  | .bnfe _ _ | .j _ _ | .jal _ _ | .endl _ _ => true
  | _ => false

/-- The words of formats R, I and B from their fields (R88). -/
def wordR (op : BitVec 8) (m : Marks) (d a b c : BitVec 6) (fn : BitVec 8) : Word :=
  op ++ m.gap ++ BitVec.ofBool m.sw ++ d ++ a ++ b ++ c ++ fn ++ 0#20
def wordI (op : BitVec 8) (m : Marks) (d a : BitVec 6) (fn : BitVec 8) (imm : BitVec 32) : Word :=
  op ++ m.gap ++ BitVec.ofBool m.sw ++ d ++ a ++ fn ++ imm
def wordB (op : BitVec 8) (m : Marks) (a b : BitVec 6) (cnd : BitVec 4) (off : BitVec 32) : Word :=
  op ++ m.gap ++ BitVec.ofBool m.sw ++ a ++ b ++ cnd ++ 0#4 ++ off

/-- The word `w`, with `n` after it, stands for no instruction: issuing it raises ILLEGAL (R93). -/
def Illegal (w n : Word) : Prop := ∃ e, decode w n = .error e

/-- The memory keeps its canonical form. -/
def State.MemOk (s : State) : Prop := s.mem.wf = true

end Sys2Proof.Machine
end

