-- ==== Sys2Proof/Certificates/Slice0/Obligations.lean ====
section
/-! DEFINITION. The statements for the provers. -/
open Sys2Proof Sys2Proof.Machine

/-- R77, R81, R103: what writing x[d], v[d] or q[d] leaves: the register (x0 never), the next PC, a promise on it where the
word has a GAP in place of an earlier one on it, and everything else of the task as it was: its other registers, its accesses in flight,
its store queue, commands, barriers and guards, STATUS and sleep. -/
def Obligations.RegisterWrites : Prop :=
  ∀ (s : State) (m : Marks),
    let open_ := fun (reg : RegNo) (old : RegVal) =>
      (if m.gap = 0 then [] else [({ reg := reg, old := old, left := m.gap.toNat } : Promise)]) ++
        s.task.fl.promises.filter (fun p => p.reg != reg)
    (∀ (d : XReg) (v : Word),
      let t := s.wroteX m d v
      OnlyMine s t ∧ SysKept s.task t.task ∧ t.pc = s.pc + 8 ∧ t.x 0 = 0 ∧ (d ≠ 0 → t.x d = v) ∧ (∀ j, j ≠ d → t.x j = s.x j) ∧
      (∀ j, t.v j = s.v j) ∧ (∀ j, t.q j = s.q j) ∧ t.regs.loops = s.regs.loops ∧ t.regs.rng0 = s.regs.rng0 ∧
      t.regs.rng1 = s.regs.rng1 ∧ t.task.fl = { s.task.fl with promises := open_ (d.toNat) (.x (s.x d)) }) ∧
    (∀ (d : VReg) (v : BitVec 2048),
      let t := s.wroteV m d v
      OnlyMine s t ∧ SysKept s.task t.task ∧ t.pc = s.pc + 8 ∧ t.v d = v ∧ (∀ j, j ≠ d → t.v j = s.v j) ∧
      (∀ j, t.x j = s.x j) ∧ (∀ j, t.q j = s.q j) ∧ t.regs.loops = s.regs.loops ∧ t.regs.rng0 = s.regs.rng0 ∧
      t.regs.rng1 = s.regs.rng1 ∧ t.task.fl = { s.task.fl with promises := open_ (32 + d.toNat) (.v (s.v d)) }) ∧
    (∀ (d : QReg) (v : Option (BitVec 6)),
      let t := s.wroteQ m d v
      OnlyMine s t ∧ SysKept s.task t.task ∧ t.pc = s.pc + 8 ∧ t.q d = v ∧ (∀ j, j ≠ d → t.q j = s.q j) ∧
      (∀ j, t.x j = s.x j) ∧ (∀ j, t.v j = s.v j) ∧ t.regs.loops = s.regs.loops ∧ t.regs.rng0 = s.regs.rng0 ∧
      t.regs.rng1 = s.regs.rng1 ∧ t.task.fl = { s.task.fl with promises := open_ (48 + d.toNat) (.q (s.q d)) })

/-- R105, R106, R149, R152: an instruction of `intoX` writes its x register and nothing else: no other register, no STATUS
bit, no byte of memory, nothing of another task or of the package. -/
def Obligations.ScalarFrame : Prop :=
  ∀ (i : Instr) (m : Marks) (d : XReg) (s t : State), intoX i = some (m, d) → exec i s = .next t →
    OnlyMine s t ∧ SysKept s.task t.task ∧ t.pc = s.pc + 8 ∧ (∀ j, j ≠ d → t.x j = s.x j) ∧ (∀ j, t.v j = s.v j) ∧
    (∀ j, t.q j = s.q j) ∧ t.regs.loops = s.regs.loops ∧ t.regs.rng0 = s.regs.rng0 ∧ t.regs.rng1 = s.regs.rng1 ∧
    ∀ a, t.byte a = s.byte a

/-- R49, R142, R148: a vector instruction writes its v register; of STATUS it can only set SAT and CLAMP, and only VCVT
moves the generator.
R105, R114 to R120: NOP, a branch, a jump or ENDL writes no register but x31 (by JAL), touches no memory, and of
STATUS only FE. -/
def Obligations.VectorAndControlFrame : Prop :=
  (
    ∀ (i : Instr) (m : Marks) (d : VReg) (s t : State), intoV i = some (m, d) → exec i s = .next t →
      OnlyMine s t ∧ t.pc = s.pc + 8 ∧ (∀ j, j ≠ d → t.v j = s.v j) ∧ (∀ j, t.x j = s.x j) ∧ (∀ j, t.q j = s.q j) ∧
      t.regs.loops = s.regs.loops ∧ t.sys = { s.sys with sat := t.sys.sat, clamp := t.sys.clamp } ∧
      (s.sys.sat = true → t.sys.sat = true) ∧ (s.sys.clamp = true → t.sys.clamp = true) ∧
      ((∀ p rm n d a b, i ≠ .vcvt m p rm n d a b) → t.regs.rng0 = s.regs.rng0 ∧ t.regs.rng1 = s.regs.rng1) ∧
      ∀ a, t.byte a = s.byte a
  ) ∧
  (
    ∀ (i : Instr) (s t : State), controlOnly i = true → exec i s = .next t →
      OnlyMine s t ∧ (∀ j, j ≠ 31 → t.x j = s.x j) ∧ (∀ j, t.v j = s.v j) ∧ (∀ j, t.q j = s.q j) ∧
      ((∀ m off, i ≠ .jal m off) → t.x 31 = s.x 31) ∧ t.sys = { s.sys with fe := t.sys.fe } ∧
      ((∀ m off, i ≠ .bfe m off ∧ i ≠ .bnfe m off) → t.sys.fe = s.sys.fe) ∧ ∀ a, t.byte a = s.byte a
  )

/-- R107, the register form: the result of every IALU operation, and that it is all the instruction does. Shift amounts
are b[5:0]; min, max and slt are signed. A result for x0 is discarded, which `wroteX` says.
R107 and R108, the immediate form: the second operand is SignExt(IMM), and for a shift or rotate IMM[5:0].
R88, R106 to R108: FN selects the operation, with the same FN for the register form and the immediate form; a word with an
unassigned FN, a register field that names no x register, a C that is not zero or a shift amount above 63 stands for no
instruction. -/
def Obligations.IntegerOperations : Prop :=
  (
    ∀ (m : Marks) (d a b : XReg) (s : State), s.Settled →
      exec (.add m d a b) s = .next (s.wroteX m d (s.x a + s.x b)) ∧
      exec (.sub m d a b) s = .next (s.wroteX m d (s.x a - s.x b)) ∧
      exec (.and m d a b) s = .next (s.wroteX m d (s.x a &&& s.x b)) ∧
      exec (.or m d a b) s = .next (s.wroteX m d (s.x a ||| s.x b)) ∧
      exec (.xor m d a b) s = .next (s.wroteX m d (s.x a ^^^ s.x b)) ∧
      exec (.shl m d a b) s = .next (s.wroteX m d (BitVec.ofNat 64 ((s.x a).toNat * 2 ^ ((s.x b).toNat % 64)))) ∧
      exec (.shr m d a b) s = .next (s.wroteX m d (BitVec.ofNat 64 ((s.x a).toNat / 2 ^ ((s.x b).toNat % 64)))) ∧
      exec (.sar m d a b) s = .next (s.wroteX m d (BitVec.ofInt 64 ((s.x a).toInt / 2 ^ ((s.x b).toNat % 64)))) ∧
      exec (.rol m d a b) s = .next (s.wroteX m d ((s.x a).rotateLeft ((s.x b).toNat % 64))) ∧
      exec (.ror m d a b) s = .next (s.wroteX m d ((s.x a).rotateRight ((s.x b).toNat % 64))) ∧
      exec (.min m d a b) s = .next (s.wroteX m d (BitVec.ofInt 64 (min (s.x a).toInt (s.x b).toInt))) ∧
      exec (.max m d a b) s = .next (s.wroteX m d (BitVec.ofInt 64 (max (s.x a).toInt (s.x b).toInt))) ∧
      exec (.minu m d a b) s = .next (s.wroteX m d (BitVec.ofNat 64 (min (s.x a).toNat (s.x b).toNat))) ∧
      exec (.maxu m d a b) s = .next (s.wroteX m d (BitVec.ofNat 64 (max (s.x a).toNat (s.x b).toNat))) ∧
      exec (.slt m d a b) s = .next (s.wroteX m d (if (s.x a).toInt < (s.x b).toInt then 1 else 0)) ∧
      exec (.sltu m d a b) s = .next (s.wroteX m d (if (s.x a).toNat < (s.x b).toNat then 1 else 0)) ∧
      exec (.seq m d a b) s = .next (s.wroteX m d (if s.x a = s.x b then 1 else 0)) ∧
      exec (.sne m d a b) s = .next (s.wroteX m d (if s.x a = s.x b then 0 else 1))
  ) ∧
  (
    ∀ (m : Marks) (d a : XReg) (imm : BitVec 32) (s : State), s.Settled →
      let b := BitVec.ofInt 64 imm.toInt
      let sh := imm.toNat % 64
      exec (.addi m d a imm) s = .next (s.wroteX m d (s.x a + b)) ∧
      exec (.subi m d a imm) s = .next (s.wroteX m d (s.x a - b)) ∧
      exec (.andi m d a imm) s = .next (s.wroteX m d (s.x a &&& b)) ∧
      exec (.ori m d a imm) s = .next (s.wroteX m d (s.x a ||| b)) ∧
      exec (.xori m d a imm) s = .next (s.wroteX m d (s.x a ^^^ b)) ∧
      exec (.shli m d a imm) s = .next (s.wroteX m d (s.x a <<< sh)) ∧
      exec (.shri m d a imm) s = .next (s.wroteX m d (s.x a >>> sh)) ∧
      exec (.sari m d a imm) s = .next (s.wroteX m d (BitVec.ofInt 64 ((s.x a).toInt / 2 ^ sh))) ∧
      exec (.roli m d a imm) s = .next (s.wroteX m d ((s.x a).rotateLeft sh)) ∧
      exec (.rori m d a imm) s = .next (s.wroteX m d ((s.x a).rotateRight sh)) ∧
      exec (.mini m d a imm) s = .next (s.wroteX m d (BitVec.ofInt 64 (min (s.x a).toInt imm.toInt))) ∧
      exec (.maxi m d a imm) s = .next (s.wroteX m d (BitVec.ofInt 64 (max (s.x a).toInt imm.toInt))) ∧
      exec (.minui m d a imm) s = .next (s.wroteX m d (BitVec.ofNat 64 (min (s.x a).toNat b.toNat))) ∧
      exec (.maxui m d a imm) s = .next (s.wroteX m d (BitVec.ofNat 64 (max (s.x a).toNat b.toNat))) ∧
      exec (.slti m d a imm) s = .next (s.wroteX m d (if (s.x a).toInt < imm.toInt then 1 else 0)) ∧
      exec (.sltui m d a imm) s = .next (s.wroteX m d (if (s.x a).toNat < b.toNat then 1 else 0)) ∧
      exec (.seqi m d a imm) s = .next (s.wroteX m d (if s.x a = b then 1 else 0)) ∧
      exec (.snei m d a imm) s = .next (s.wroteX m d (if s.x a = b then 0 else 1))
  ) ∧
  (
    ∀ (w n : Word),
      let f := fun (lo k : Nat) => (w.extractLsb' lo k).toNat
      (∀ (m : Marks) (d a b : XReg), ∀ p ∈ List.zip (List.range 18) [Instr.add, .sub, .and, .or, .xor, .shl, .shr, .sar, .rol, .ror,
          .min, .max, .minu, .maxu, .slt, .sltu, .seq, .sne],
        decode (wordR 0x10 m (0#1 ++ d) (0#1 ++ a) (0#1 ++ b) 0 (BitVec.ofNat 8 p.1)) n = .ok (p.2 m d a b)) ∧
      (∀ (m : Marks) (d a : XReg) (imm : BitVec 32), ∀ p ∈ List.zip (List.range 18) [Instr.addi, .subi, .andi, .ori, .xori, .shli,
          .shri, .sari, .roli, .rori, .mini, .maxi, .minui, .maxui, .slti, .sltui, .seqi, .snei], (5 ≤ p.1 → p.1 ≤ 9 → imm.toNat < 64) →
        decode (wordI 0x11 m (0#1 ++ d) (0#1 ++ a) (BitVec.ofNat 8 p.1) imm) n = .ok (p.2 m d a imm)) ∧
      (opOf w = 0x10 → 0x12 ≤ f 20 8 ∨ f 28 6 ≠ 0 ∨ 32 ≤ f 46 6 ∨ 32 ≤ f 40 6 ∨ 32 ≤ f 34 6 → Illegal w n) ∧
      (opOf w = 0x11 → 0x12 ≤ f 32 8 ∨ 32 ≤ f 46 6 ∨ 32 ≤ f 40 6 ∨ (5 ≤ f 32 8 ∧ f 32 8 ≤ 9 ∧ 64 ≤ f 0 32) → Illegal w n)
  )

/-- R109: products exactly, division truncating toward zero, and the cases of a zero divisor; −2^63 divided by −1 comes
out as −2^63 with remainder 0, which the wrapped quotient says. -/
def Obligations.MultiplyDivide : Prop :=
  ∀ (m : Marks) (d a b : XReg) (s : State), s.Settled →
    exec (.mul m d a b) s = .next (s.wroteX m d (BitVec.ofNat 64 ((s.x a).toNat * (s.x b).toNat))) ∧
    exec (.mulh m d a b) s = .next (s.wroteX m d (BitVec.ofInt 64 ((s.x a).toInt * (s.x b).toInt / 2 ^ 64))) ∧
    exec (.mulhu m d a b) s = .next (s.wroteX m d (BitVec.ofNat 64 ((s.x a).toNat * (s.x b).toNat / 2 ^ 64))) ∧
    exec (.div m d a b) s = .next (s.wroteX m d
      (if s.x b = 0 then 0xFFFFFFFFFFFFFFFF else BitVec.ofInt 64 ((s.x a).toInt.tdiv (s.x b).toInt))) ∧
    exec (.divu m d a b) s = .next (s.wroteX m d
      (if s.x b = 0 then 0xFFFFFFFFFFFFFFFF else BitVec.ofNat 64 ((s.x a).toNat / (s.x b).toNat))) ∧
    exec (.rem m d a b) s = .next (s.wroteX m d
      (if s.x b = 0 then s.x a else BitVec.ofInt 64 ((s.x a).toInt - (s.x b).toInt * (s.x a).toInt.tdiv (s.x b).toInt))) ∧
    exec (.remu m d a b) s = .next (s.wroteX m d
      (if s.x b = 0 then s.x a else BitVec.ofNat 64 ((s.x a).toNat % (s.x b).toNat)))

/-- R110: the counts by what they count, the extensions by value, the reversal bit by bit.
R88, R110: FN selects the count, the extension or the reversal; a word with an unassigned FN, a register field that names no x register, or B or C not zero stands for no
instruction. -/
def Obligations.BitOperations : Prop :=
  (
    ∀ (m : Marks) (d a : XReg) (s : State), s.Settled →
      (∃ n : Nat, exec (.clz m d a) s = .next (s.wroteX m d (BitVec.ofNat 64 n)) ∧ n ≤ 64 ∧
        (∀ i < n, (s.x a).getLsbD (63 - i) = false) ∧ (n < 64 → (s.x a).getLsbD (63 - n) = true)) ∧
      (∃ n : Nat, exec (.ctz m d a) s = .next (s.wroteX m d (BitVec.ofNat 64 n)) ∧ n ≤ 64 ∧
        (∀ i < n, (s.x a).getLsbD i = false) ∧ (n < 64 → (s.x a).getLsbD n = true)) ∧
      exec (.popc m d a) s = .next (s.wroteX m d (BitVec.ofNat 64 ((List.range 64).countP (s.x a).getLsbD))) ∧
      exec (.sextB m d a) s = .next (s.wroteX m d (BitVec.ofInt 64 ((s.x a).setWidth 8).toInt)) ∧
      exec (.sextH m d a) s = .next (s.wroteX m d (BitVec.ofInt 64 ((s.x a).setWidth 16).toInt)) ∧
      exec (.sextW m d a) s = .next (s.wroteX m d (BitVec.ofInt 64 ((s.x a).setWidth 32).toInt)) ∧
      exec (.zextB m d a) s = .next (s.wroteX m d (BitVec.ofNat 64 ((s.x a).toNat % 2 ^ 8))) ∧
      exec (.zextH m d a) s = .next (s.wroteX m d (BitVec.ofNat 64 ((s.x a).toNat % 2 ^ 16))) ∧
      exec (.zextW m d a) s = .next (s.wroteX m d (BitVec.ofNat 64 ((s.x a).toNat % 2 ^ 32))) ∧
      (∃ r : Word, exec (.brev m d a) s = .next (s.wroteX m d r) ∧ ∀ i < 64, r.getLsbD i = (s.x a).getLsbD (63 - i))
  ) ∧
  (
    ∀ (w n : Word),
      let f := fun (lo k : Nat) => (w.extractLsb' lo k).toNat
      (∀ (m : Marks) (d a : XReg), ∀ p ∈ List.zip (List.range 10) [Instr.clz, .ctz, .popc, .sextB, .sextH, .sextW, .zextB, .zextH,
          .zextW, .brev],
        decode (wordR 0x13 m (0#1 ++ d) (0#1 ++ a) 0 0 (BitVec.ofNat 8 p.1)) n = .ok (p.2 m d a)) ∧
      (opOf w = 0x13 → 0x0A ≤ f 20 8 ∨ f 34 6 ≠ 0 ∨ f 28 6 ≠ 0 ∨ 32 ≤ f 46 6 ∨ 32 ≤ f 40 6 → Illegal w n)
  )

/-- R105, R111, R112, R113 and R215: NOP only goes on; MOVI, MOVIH, LEA and LEA.RG build their constants and addresses;
RDTICK reads TICK.
R111 to R113: a MOVI, MOVIH or LEA word with an unassigned FN, a field that must be zero and is not, or a register field
that names no x register stands for no instruction; MOVI and then MOVIH build any constant. -/
def Obligations.ConstantsAndAddresses : Prop :=
  (
    ∀ (m : Marks) (d a b : XReg) (imm : BitVec 32) (sh : BitVec 2) (tag : BitVec 28) (s : State), s.Settled →
      exec (.nop m tag) s = .next (s.went m) ∧
      exec (.movi m d imm) s = .next (s.wroteX m d (BitVec.ofInt 64 imm.toInt)) ∧
      exec (.movih m d a imm) s = .next (s.wroteX m d (BitVec.ofNat 64 (imm.toNat * 2 ^ 32 + (s.x a).toNat % 2 ^ 32))) ∧
      exec (.lea m d a b sh) s = .next (s.wroteX m d (BitVec.ofNat 64 ((s.x a).toNat + (s.x b).toNat * 2 ^ sh.toNat))) ∧
      exec (.leaRg m d a b) s = .next (s.wroteX m d (BitVec.ofNat 64 ((s.x a).toNat % 2 ^ 8 * 2 ^ 21 + (s.x b).toNat % 2 ^ 21))) ∧
      exec (.rdtick m d) s = .next (s.wroteX m d (BitVec.ofNat 64 s.ctl.tick))
  ) ∧
  (
    ∀ (d : XReg) (k w n : Word) (s : State), s.Settled →
      let f := fun (lo k : Nat) => (w.extractLsb' lo k).toNat
      (d ≠ 0 → ∃ t u, exec (.movi ⟨0, false⟩ d (k.extractLsb' 0 32)) s = .next t ∧
        exec (.movih ⟨0, false⟩ d d (k.extractLsb' 32 32)) t = .next u ∧ u.x d = k) ∧
      (opOf w = 0x14 → f 32 8 ≠ 0 ∨ f 40 6 ≠ 0 ∨ 32 ≤ f 46 6 → Illegal w n) ∧
      (opOf w = 0x15 → f 32 8 ≠ 0 ∨ 32 ≤ f 40 6 ∨ 32 ≤ f 46 6 → Illegal w n) ∧
      (opOf w = 0x16 → (4 ≤ f 20 8 ∧ f 20 8 ≠ 0x10) ∨ f 28 6 ≠ 0 ∨ 32 ≤ f 46 6 ∨ 32 ≤ f 40 6 ∨ 32 ≤ f 34 6 → Illegal w n)
  )

/-- R114, R115 and R117: where a branch and a jump go, that a branch writes no register, and the link of JAL.
R116: once no earlier load can still set FE, BFE and BNFE clear FE and branch on what it was; until then they wait.
R119 and R120: LOOP pushes its count, skips past its ENDL on a count of 0, and raises LOOPDEPTH at depth four; ENDL
falls through without a loop, pops at a count of 1 or less, and else counts down and goes back.
R88, R114 to R120: CND selects the condition of a branch, and a jump, LOOP or ENDL has its own OP; a branch word with an unassigned CND, a register field that names no x register, a field that must be zero
and is not, or a LOOP not before or an ENDL after its body's other end stands for no instruction. -/
def Obligations.BranchesAndLoops : Prop :=
  (
    ∀ (m : Marks) (a b : XReg) (off : BitVec 32) (s : State), s.Settled →
      let t := s.pc + BitVec.ofInt 64 (8 * off.toInt)
      exec (.beq m a b off) s = .next (if s.x a = s.x b then s.wentTo m t else s.went m) ∧
      exec (.bne m a b off) s = .next (if s.x a = s.x b then s.went m else s.wentTo m t) ∧
      exec (.blt m a b off) s = .next (if (s.x a).toInt < (s.x b).toInt then s.wentTo m t else s.went m) ∧
      exec (.bge m a b off) s = .next (if (s.x a).toInt < (s.x b).toInt then s.went m else s.wentTo m t) ∧
      exec (.bltu m a b off) s = .next (if (s.x a).toNat < (s.x b).toNat then s.wentTo m t else s.went m) ∧
      exec (.bgeu m a b off) s = .next (if (s.x a).toNat < (s.x b).toNat then s.went m else s.wentTo m t) ∧
      exec (.j m off) s = .next (s.wentTo m t) ∧
      exec (.jal m off) s = .next (s.after (fun w => goto m t (wx w m 31 (s.pc + 8))))
  ) ∧
  (
    ∀ (m : Marks) (off : BitVec 32) (s : State),
      let t := s.pc + BitVec.ofInt 64 (8 * off.toInt)
      let cleared := fun (pc : Word) =>
        s.after (fun w => goto m pc (updMe w (fun T => { T with sys := { T.sys with fe := false } })))
      (fePending s.task = false →
        exec (.bfe m off) s = .next (cleared (if s.sys.fe then t else s.pc + 8)) ∧
        exec (.bnfe m off) s = .next (cleared (if s.sys.fe then s.pc + 8 else t))) ∧
      (fePending s.task = true → exec (.bfe m off) s = .next (s.waits m) ∧ exec (.bnfe m off) s = .next (s.waits m))
  ) ∧
  (
    ∀ (m : Marks) (a : XReg) (off : BitVec 32) (s : State), s.Settled →
      let t := s.pc + BitVec.ofInt 64 (8 * off.toInt)
      let stack := fun (l : List Word) (pc : Word) =>
        s.after (fun w => goto m pc (updMe w (fun T => { T with regs := { T.regs with loops := l } })))
      (4 ≤ s.regs.loops.length → exec (.loop m a off) s = .next (s.trapped m 0x14 0 (s.x a) 0)) ∧
      (s.regs.loops.length < 4 → s.x a = 0 → exec (.loop m a off) s = .next (s.wentTo m (t + 8))) ∧
      (s.regs.loops.length < 4 → s.x a ≠ 0 → exec (.loop m a off) s = .next (stack (s.x a :: s.regs.loops) (s.pc + 8))) ∧
      (s.regs.loops = [] → exec (.endl m off) s = .next (s.went m)) ∧
      (∀ c l, s.regs.loops = c :: l → c.toNat ≤ 1 → exec (.endl m off) s = .next (stack l (s.pc + 8))) ∧
      (∀ c l, s.regs.loops = c :: l → 1 < c.toNat → exec (.endl m off) s = .next (stack ((c - 1) :: l) t))
  ) ∧
  (
    ∀ (w n : Word),
      let f := fun (lo k : Nat) => (w.extractLsb' lo k).toNat
      let off := (w.extractLsb' 0 32).toInt
      (∀ (m : Marks) (a b : XReg) (o : BitVec 32),
        (∀ p ∈ List.zip (List.range 6) [Instr.beq, .bne, .blt, .bge, .bltu, .bgeu],
          decode (wordB 0x20 m (0#1 ++ a) (0#1 ++ b) (BitVec.ofNat 4 p.1) o) n = .ok (p.2 m a b o)) ∧
        decode (wordB 0x20 m 0 0 6 o) n = .ok (.bfe m o) ∧ decode (wordB 0x20 m 0 0 7 o) n = .ok (.bnfe m o) ∧
        decode (wordB 0x21 m 0 0 0 o) n = .ok (.j m o) ∧ decode (wordB 0x22 m 0 0 0 o) n = .ok (.jal m o) ∧
        (0 < o.toInt → decode (wordB 0x24 m (0#1 ++ a) 0 0 o) n = .ok (.loop m a o)) ∧
        (o.toInt ≤ 0 → decode (wordB 0x25 m 0 0 0 o) n = .ok (.endl m o))) ∧
      (opOf w = 0x20 → 8 ≤ f 36 4 ∨ 32 ≤ f 46 6 ∨ 32 ≤ f 40 6 ∨ (6 ≤ f 36 4 ∧ (f 46 6 ≠ 0 ∨ f 40 6 ≠ 0)) → Illegal w n) ∧
      (opOf w = 0x21 ∨ opOf w = 0x22 ∨ opOf w = 0x25 → f 46 6 ≠ 0 ∨ f 40 6 ≠ 0 ∨ f 36 4 ≠ 0 → Illegal w n) ∧
      (opOf w = 0x24 → f 40 6 ≠ 0 ∨ f 36 4 ≠ 0 ∨ 32 ≤ f 46 6 ∨ off ≤ 0 → Illegal w n) ∧
      (opOf w = 0x25 → 1 ≤ off → Illegal w n)
  )

/-- R118: JR goes to x[A] + 8 × SignExt(OFF), or raises MISALIGN with the target in EADDR and 8 in EVAL.
R118: a JR word with B or CND not zero, or with A that names no x register, stands for no instruction. -/
def Obligations.JumpRegister : Prop :=
  (
    ∀ (m : Marks) (a : XReg) (off : BitVec 32) (s : State), s.Settled →
      let t := s.x a + BitVec.ofInt 64 (8 * off.toInt)
      (t.toNat % 8 = 0 → exec (.jr m a off) s = .next (s.wentTo m t)) ∧
      (t.toNat % 8 ≠ 0 → exec (.jr m a off) s = .next (s.trapped m 3 t 8 1))
  ) ∧
  (
    ∀ (w n : Word),
      let f := fun (lo k : Nat) => (w.extractLsb' lo k).toNat
      opOf w = 0x23 → f 40 6 ≠ 0 ∨ f 36 4 ≠ 0 ∨ 32 ≤ f 46 6 → Illegal w n
  )

/-- R142: every integer lane of the result, as the exact integer taken modulo 2^w; the saturating forms clamp it and set
SAT when any lane is clamped. Every source lane is read before any is written, so D may name A or B. -/
def Obligations.VectorInteger : Prop :=
  ∀ (m : Marks) (lw : LaneW) (d a b : VReg) (s : State), s.Settled →
    let k := laneBits lw
    let n := 2048 / k
    let A := fun i => lane k (s.v a) i
    let B := fun i => lane k (s.v b) i
    let SA := fun i => signedOf k (A i)
    let SB := fun i => signedOf k (B i)
    let res := fun (f : Nat → Int) => s.wroteV m d (ofLanes k ((List.range n).map (fun i => wrapInt k (f i))))
    let sat := fun (f : Nat → Int) (lo hi : Int) =>
      s.after (fun w => next m (setSat (wv w m d (ofLanes k ((List.range n).map (fun i => wrapInt k (max lo (min hi (f i)))))))
        ((List.range n).any (fun i => decide (f i < lo ∨ hi < f i)))))
    let top : Int := 2 ^ (k - 1) - 1
    exec (.vadd m lw d a b) s = .next (res (fun i => A i + B i)) ∧
    exec (.vsub m lw d a b) s = .next (res (fun i => (A i : Int) - B i)) ∧
    exec (.vand m lw d a b) s = .next (res (fun i => ((A i &&& B i : Nat) : Int))) ∧
    exec (.vor m lw d a b) s = .next (res (fun i => ((A i ||| B i : Nat) : Int))) ∧
    exec (.vxor m lw d a b) s = .next (res (fun i => ((A i ^^^ B i : Nat) : Int))) ∧
    exec (.vshl m lw d a b) s = .next (res (fun i => A i * 2 ^ (B i % k))) ∧
    exec (.vshr m lw d a b) s = .next (res (fun i => A i / 2 ^ (B i % k))) ∧
    exec (.vsar m lw d a b) s = .next (res (fun i => SA i / 2 ^ (B i % k))) ∧
    exec (.vmin m lw d a b) s = .next (res (fun i => min (SA i) (SB i))) ∧
    exec (.vmax m lw d a b) s = .next (res (fun i => max (SA i) (SB i))) ∧
    exec (.vminu m lw d a b) s = .next (res (fun i => min (A i : Int) (B i))) ∧
    exec (.vmaxu m lw d a b) s = .next (res (fun i => max (A i : Int) (B i))) ∧
    exec (.vmul m lw d a b) s = .next (res (fun i => A i * B i)) ∧
    exec (.vmulh m lw d a b) s = .next (res (fun i => SA i * SB i / 2 ^ k)) ∧
    exec (.vmulhu m lw d a b) s = .next (res (fun i => (A i * B i : Int) / 2 ^ k)) ∧
    exec (.vadds m lw d a b) s = .next (sat (fun i => SA i + SB i) (-top) top) ∧
    exec (.vsubs m lw d a b) s = .next (sat (fun i => SA i - SB i) (-top) top) ∧
    exec (.vaddsu m lw d a b) s = .next (sat (fun i => A i + B i) 0 (2 ^ k - 1)) ∧
    exec (.vsubsu m lw d a b) s = .next (sat (fun i => (A i : Int) - B i) 0 (2 ^ k - 1)) ∧
    exec (.vabs m lw d a) s = .next (sat (fun i => |SA i|) (-top) top)

/-- R143: every floating lane is the exact result rounded once, in the instruction's rounding mode.
R35, R40, R41, R43, R44: rounding to a format. The sum and the product that a lane rounds are exact, with the sign of a zero sum
as the mode has it; the exact magnitude lies at or above one code of the format, exponent unbounded above, and below the next, and
the mode says which of the two is written, SR by the fraction against its 16-bit word; a rounded magnitude beyond the largest finite
value overflows as the destination and the mode have it, and the sign is the exact value's. -/
def Obligations.VectorFloat : Prop :=
  (
    ∀ (m : Marks) (fl : FLane) (rm : Rnd) (d a b c : VReg) (s : State), s.Settled →
      let k := flBits fl
      let F := flFmt fl
      let A := fun i => F.val (lane k (s.v a) i)
      let B := fun i => F.val (lane k (s.v b) i)
      let C := fun i => F.val (lane k (s.v c) i)
      let res := fun (r : Rnd) (f : Nat → Machine.Num) => s.wroteV m d (ofLanes k ((List.range (2048 / k)).map (fun i => F.ieee r (f i))))
      exec (.vfadd m fl rm d a b) s = .next (res rm (fun i => (A i).add rm (B i))) ∧
      exec (.vfsub m fl rm d a b) s = .next (res rm (fun i => (A i).add rm (B i).neg)) ∧
      exec (.vfmul m fl rm d a b) s = .next (res rm (fun i => (A i).mul (B i))) ∧
      exec (.vfmin m fl d a b) s = .next (res .rne (fun i => (A i).minMax false (B i))) ∧
      exec (.vfmax m fl d a b) s = .next (res .rne (fun i => (A i).minMax true (B i))) ∧
      exec (.vfabs m fl d a) s = .next (res .rne (fun i => (A i).abs)) ∧
      exec (.vfneg m fl d a) s = .next (res .rne (fun i => (A i).neg)) ∧
      exec (.vfma m fl rm d a b c) s = .next (res rm (fun i => ((A i).mul (B i)).add rm (C i))) ∧
      exec (.vfms m fl rm d a b c) s = .next (res rm (fun i => ((A i).mul (B i)).add rm (C i).neg)) ∧
      exec (.vfnma m fl rm d a b c) s = .next (res rm (fun i => ((A i).mul (B i)).neg.add rm (C i))) ∧
      exec (.vfnms m fl rm d a b c) s = .next (res rm (fun i => ((A i).mul (B i)).neg.add rm (C i).neg))
  ) ∧
  (
    ∀ (a b : Bool) (m n : Nat) (e f : Int) (rm : Rnd) (ov : Over) (u : Nat), ∀ F ∈ [e4m3, e5m2, e2m1, bf16, fp32, fp64],
      let x := ratOf m e
      let y := ratOf n f
      let sgn := fun (neg : Bool) (v : Rat) => if neg then -v else v
      (∃ c k g, (Num.fin a m e).add rm (Num.fin b n f) = .fin c k g ∧ sgn c (ratOf k g) = sgn a x + sgn b y ∧
        (sgn a x + sgn b y = 0 → c = if m = 0 ∧ n = 0 ∧ a = b then a else decide (rm = .rd))) ∧
      (∃ k g, (Num.fin a m e).mul (Num.fin b n f) = .fin (a != b) k g ∧ ratOf k g = x * y) ∧
      (m = 0 → F.put ov rm u false (.fin a m e) = (if a then 2 ^ (F.e + F.m) else 0, false)) ∧
      (0 < m → ∃ c, F.magVal c ≤ x ∧ x < F.magVal (c + 1) ∧
        let frac := (x - F.magVal c) / (F.magVal (c + 1) - F.magVal c)
        let up : Prop := match rm with
          | .rne => 1 / 2 < frac ∨ (frac = 1 / 2 ∧ c % 2 = 1)
          | .rz => False
          | .rd => a = true ∧ 0 < frac
          | .ru => a = false ∧ 0 < frac
          | .sr => (u : Rat) < frac * 65536
        let sign := if a then 2 ^ (F.e + F.m) else 0
        let beyond := match ov with
          | .ieee => (sign + (if rm = .rz ∨ (rm = .rd ∧ a = false) ∨ (rm = .ru ∧ a = true) then F.max else F.max + 1), false)
          | .sat => (sign + F.max, true)
          | .nanMode => if F.inf then (sign + F.max + 1, false) else (F.nan.getD 0, false)
        let written := fun (r : Nat) => F.put ov rm u false (.fin a m e) = if r ≤ F.max then (sign + r, false) else beyond
        (up → written (c + 1)) ∧ (¬up → written c))
  )

/-- R56 and R144 to R146: the vector functions lane by lane with the inputs for which R56 names the result; a compare writes
all ones where its condition holds and zero where not, in every lane, a select takes A where C's lane is not zero.
R43, R44, R147 and R148: part p = x[B][1:0] mod P of the destination (narrowing) or of the source (widening); the other
lanes of a narrowing D stay; SAT and CLAMP are set by any lane; SR moves the generator by one step for four elements and
rounds each by its own word, and nothing else moves it. -/
def Obligations.VectorFunctionsAndConversions : Prop :=
  (
    ∀ (m : Marks) (lw : LaneW) (ty : LaneTy) (cond : VCond) (d a b c : VReg) (s : State), s.Settled →
      let A := fun i => lane 32 (s.v a) i
      let res := fun (f : Nat → Nat) => s.wroteV m d (ofLanes 32 ((List.range 64).map f))
      let nan := fun i => (fp32.val (A i)).isNan = true
      (∃ f, exec (.vrcp m d a) s = .next (res f) ∧ ∀ i < 64,
        (A i = 0 → f i = 0x7F800000) ∧ (A i = 0x80000000 → f i = 0xFF800000) ∧ (A i = 0x7F800000 → f i = 0) ∧
        (A i = 0xFF800000 → f i = 0x80000000) ∧ (A i = 0x3F800000 → f i = 0x3F800000) ∧ (nan i → f i = 0x7FC00000)) ∧
      (∃ f, exec (.vrsq m d a) s = .next (res f) ∧ ∀ i < 64,
        (A i = 0 → f i = 0x7F800000) ∧ (A i = 0x80000000 → f i = 0xFF800000) ∧ (A i = 0x7F800000 → f i = 0) ∧
        (0x80000000 < A i → A i ≤ 0xFF800000 → f i = 0x7FC00000) ∧ (A i = 0x3F800000 → f i = 0x3F800000) ∧
        (nan i → f i = 0x7FC00000)) ∧
      (∃ f, exec (.vexp2 m d a) s = .next (res f) ∧ ∀ i < 64,
        (A i = 0 ∨ A i = 0x80000000 → f i = 0x3F800000) ∧ (A i = 0x3F800000 → f i = 0x40000000) ∧
        (0x43000000 ≤ A i → A i ≤ 0x7F800000 → f i = 0x7F800000) ∧ (0xC3160000 < A i → A i ≤ 0xFF800000 → f i = 0) ∧
        (nan i → f i = 0x7FC00000)) ∧
      (∃ f, exec (.vlog2 m d a) s = .next (res f) ∧ ∀ i < 64,
        (A i = 0 ∨ A i = 0x80000000 → f i = 0xFF800000) ∧ (A i = 0x7F800000 → f i = 0x7F800000) ∧
        (0x80000000 < A i → A i ≤ 0xFF800000 → f i = 0x7FC00000) ∧ (A i = 0x3F800000 → f i = 0) ∧ (nan i → f i = 0x7FC00000)) ∧
      (let k := tyBits ty
        let holds : Nat → Nat → Bool := fun x y => match tyFmt ty with
          | none => (match cond with
            | .eq => decide (x = y)
            | .ne => decide (x ≠ y)
            | .lt => decide (signedOf k x < signedOf k y)
            | .ge => decide (signedOf k y ≤ signedOf k x)
            | .ltu => decide (x < y)
            | .geu => decide (y ≤ x)
            | .un => false)
          | some F =>
            if (F.val x).isNan || (F.val y).isNan then decide (cond = .ne ∨ cond = .un)
            else match cond with
            | .eq => (F.val x).eq (F.val y)
            | .ne => !(F.val x).eq (F.val y)
            | .lt => (F.val x).lt (F.val y)
            | .ge => !(F.val x).lt (F.val y)
            | _ => false
        exec (.vcmp m ty cond d a b) s = .next (s.wroteV m d (ofLanes k ((List.range (2048 / k)).map (fun i =>
          if holds (lane k (s.v a) i) (lane k (s.v b) i) then 2 ^ k - 1 else 0))))) ∧
      exec (.vsel m lw d a b c) s = .next (s.wroteV m d (ofLanes (laneBits lw) ((List.range (2048 / laneBits lw)).map (fun i =>
        if lane (laneBits lw) (s.v c) i = 0 then lane (laneBits lw) (s.v b) i else lane (laneBits lw) (s.v a) i))))
  ) ∧
  (
    ∀ (m : Marks) (pair : BitVec 4) (rm : Rnd) (nan : Bool) (d a : VReg) (b : XReg) (s : State), s.Settled →
      let src := (cvPair pair.toNat).1
      let dst := (cvPair pair.toNat).2
      let n := 2048 / max src.bits dst.bits
      let p := (s.x b).toNat % 4 % (max src.bits dst.bits / min src.bits dst.bits)
      let steps := rngSteps ((n + 3) / 4) s.regs.rng0 s.regs.rng1
      let read := fun i => src.read (lane src.bits (s.v a) (if src.bits < dst.bits then p * n + i else i))
      let conv := fun i => dst.write rm nan (if rm = .sr then laneWord steps.1 i else 0) (read i).1
      ∃ t : State, exec (.vcvt m pair rm nan d a b) s = .next t ∧ OnlyMine s t ∧ t.pc = s.pc + 8 ∧
        (∀ i < n, lane dst.bits (t.v d) (if dst.bits < src.bits then p * n + i else i) = (conv i).1 % 2 ^ dst.bits) ∧
        (dst.bits < src.bits → ∀ i < 2048 / dst.bits, i < p * n ∨ p * n + n ≤ i → lane dst.bits (t.v d) i = lane dst.bits (s.v d) i) ∧
        (∀ j, j ≠ d → t.v j = s.v j) ∧ (∀ j, t.x j = s.x j) ∧ (∀ j, t.q j = s.q j) ∧
        t.sys = { s.sys with sat := s.sys.sat || (List.range n).any (fun i => (conv i).2)
                             clamp := s.sys.clamp || (List.range n).any (fun i => (read i).2) } ∧
        (t.regs.rng0, t.regs.rng1) = (if rm = .sr then steps.2 else (s.regs.rng0, s.regs.rng1))
  )

/-- R37, R53 to R55 and R149: a reduction is the pairwise tree over the lanes, the lower lane on the left, and a scan the pattern of
R55 with the head flags of its segmented form, each under its operation: addition at the lane's width, signed and unsigned minimum
and maximum, the bitwise ones, and the floating ones rounded by RNE. A reduction into an x register is sign-extended for a signed
integer operation, and into a v register fills lane 0 alone. A scan writes the canonical NaN for a NaN, in a lane that nothing is
combined into as well: the model's choice, log entry 92.
R150, R151 and R152: permute by index with zero beyond the sources, broadcast of a register or a lane, and the four
lane forms. -/
def Obligations.LanesAndReductions : Prop :=
  (
    ∀ (m : Marks) (ty : LaneTy) (op : ROp) (d a : VReg) (e : XReg) (h : Option VReg) (s : State), s.Settled →
      (tyFmt ty ≠ none → op = .add ∨ op = .min ∨ op = .max) →
      let k := tyBits ty
      let n := 2048 / k
      let A := fun i => lane k (s.v a) i
      let canon := fun v => ((tyFmt ty).map (fun F => if (F.val v).isNan then F.nan.getD 0 else v)).getD v
      let lev := Nat.log2 n
      let head := fun i => (h.map (fun r => decide (i = 0 ∨ lane k (s.v r) i ≠ 0))).getD false
      let v := pairTree (joined ty op) A lev 0
      (exec (.vred m ty op (.v d) a) s = .next (s.wroteV m d (BitVec.ofNat 2048 v)) ∧
        exec (.vred m ty op (.x e) a) s = .next (s.wroteX m e
          (if tyFmt ty = none ∧ (op = .add ∨ op = .min ∨ op = .max) then BitVec.ofInt 64 (signedOf k v) else BitVec.ofNat 64 v)) ∧
        (tyFmt ty = none → op = .add → v = (((List.range n).map A).sum) % 2 ^ k) ∧
        (tyFmt ty = none → op = .max → (∀ i < n, signedOf k (A i) ≤ signedOf k v) ∧ ∃ i < n, A i = v) ∧
        (tyFmt ty = none → op = .minu → (∀ i < n, v ≤ A i) ∧ ∃ i < n, A i = v)) ∧
      exec (.vscan m ty op d a h) s = .next (s.wroteV m d
        (ofLanes k ((List.range n).map (fun i => canon (scanAt (joined ty op) A head lev i).1)))) ∧
      (tyFmt ty = none → op = .add → h = none → ∀ i < n,
        (scanAt (joined ty op) A head lev i).1 % 2 ^ k = (((List.range (i + 1)).map A).sum) % 2 ^ k)
  ) ∧
  (
    ∀ (m : Marks) (lw : LaneW) (d a b : VReg) (c : Option VReg) (e x y : XReg) (s : State), s.Settled →
      let k := laneBits lw
      let n := 2048 / k
      let A := fun i => lane k (s.v a) i
      let res := fun (f : Nat → Nat) => s.wroteV m d (ofLanes k ((List.range n).map f))
      exec (.vperm m lw d a b c) s = .next (res (fun i =>
        let j := lane k (s.v b) i
        if j < n then A j else match c with
          | none => 0
          | some r => if j < 2 * n then lane k (s.v r) (j - n) else 0)) ∧
      exec (.vbcastX m lw d x) s = .next (res (fun _ => (s.x x).toNat % 2 ^ k)) ∧
      exec (.vbcastV m lw d a y) s = .next (res (fun _ => A ((s.x y).toNat % n))) ∧
      exec (.vlaneGet m lw e a y) s = .next (s.wroteX m e (BitVec.ofInt 64 (signedOf k (A ((s.x y).toNat % n))))) ∧
      exec (.vlaneGetu m lw e a y) s = .next (s.wroteX m e (BitVec.ofNat 64 (A ((s.x y).toNat % n)))) ∧
      exec (.vlaneSet m lw d x y) s = .next (res (fun i =>
        if i = (s.x y).toNat % n then (s.x x).toNat % 2 ^ k else lane k (s.v d) i)) ∧
      exec (.vlaneIota m lw d) s = .next (res (fun i => i))
  )

/-- R98, R101, R102, R124: a misaligned access traps MISALIGN with EVAL its size, before anything else is looked at; an
offset of the own scratchpad or fleeting store beyond its end traps BOUND with EVAL the space. -/
def Obligations.AccessTraps : Prop :=
  ∀ (m : Marks) (r a b c : XReg) (v : VReg) (sp : Space) (sc : BitVec 3) (ord : Order) (off : BitVec 30) (s : State),
    s.Settled →
    let ea := s.x a + off.signExtend 64
    (∀ p ∈ [(1, Instr.ldB m r a sp sc ord off), (2, .ldH m r a sp sc ord off), (4, .ldW m r a sp sc ord off),
        (8, .ldD m r a sp sc ord off), (1, .stB m r a sp sc ord off), (2, .stH m r a sp sc ord off),
        (4, .stW m r a sp sc ord off), (8, .stD m r a sp sc ord off)],
      (ea.toNat % p.1 ≠ 0 → exec p.2 s = .next (s.trapped m 3 ea (BitVec.ofNat 64 p.1) 0)) ∧
      (ea.toNat % p.1 = 0 → sp = .scr → 0x180000 ≤ ea.toNat → exec p.2 s = .next (s.trapped m 4 ea 1 0)) ∧
      (ea.toNat % p.1 = 0 → sp = .flt → 0x400000 ≤ ea.toNat → exec p.2 s = .next (s.trapped m 4 ea 3 0))) ∧
    (∀ p ∈ [(4, Instr.amoAdd m false r a b sp sc ord), (8, .amoAdd m true r a b sp sc ord), (4, .amoCas m false r a b c sp sc ord),
        (8, .amoSwap m true r a b sp sc ord), (4, .amoFadd m r a b sp sc ord), (4, .waitmon m false r a b c sp sc ord),
        (8, .waitmon m true r a b c sp sc ord), (4, .barJoin m r a sp), (4, .barArrive m r a sp), (4, .barWait m r a b sp),
        (4, .barArrwait m r a sp), (4, .barDrop m r a sp)],
      (s.x a).toNat % p.1 ≠ 0 → exec p.2 s = .next (s.trapped m 3 (s.x a) (BitVec.ofNat 64 p.1) 0)) ∧
    (∀ i ∈ [Instr.vld m v a b sp, .vst m v a b sp],
      (s.x a + s.x b).toNat % (if sp = .dev then 256 else 4) ≠ 0 →
        exec i s = .next (s.trapped m 3 (s.x a + s.x b) 256 0))

/-- R124, R125, R285: a load whose address has passed its checks, with no store of the task still held back, commits with
one request of its size on its way to its place, in every space; it acquires where the word says so.
R5, R125, R306, R314: a load of the own scratchpad writes the bytes at its offset, the lowest first, zero-extended; a
load of a live tile of the own fleeting store likewise, and of an expired tile it writes 0 and sets FE. -/
def Obligations.Loads : Prop :=
  (
    ∀ (m : Marks) (t a : XReg) (sp : Space) (sc : BitVec 3) (ord : Order) (off : BitVec 30) (s : State) (x : Xlate),
      s.Settled → ∀ p ∈ [(1, Instr.ldB m t a sp sc ord off), (2, .ldH m t a sp sc ord off), (4, .ldW m t a sp sc ord off),
        (8, .ldD m t a sp sc ord off)],
      let ea := s.x a + off.signExtend 64
      let s1 := s.looked sp ea p.1 p.1 .read
      let r := s1.request sp ea x (.read p.1)
      s.place sp ea p.1 p.1 .read = .ok x → s1.task.fl.sq = [] → s1.Unshared → mayIssue (Work.start s1) 0 [r] = true →
      s1.ctl.model.defer = true →
      ∃ u, exec p.2 s = .next u ∧ Issued s1 u (.x t.toNat) sp (gapFor m sp) false (decide (sp = .flt)) (isAcq ord) [r]
  ) ∧
  (
    ∀ (m : Marks) (t a : XReg) (sc : BitVec 3) (ord : Order) (off : BitVec 30) (s : State), s.Quiet → s.Clear →
      let ea := s.x a + off.signExtend 64
      (∀ p ∈ [(1, Instr.ldB m t a .scr sc ord off), (2, .ldH m t a .scr sc ord off), (4, .ldW m t a .scr sc ord off),
          (8, .ldD m t a .scr sc ord off)],
        ea.toNat % p.1 = 0 → ea.toNat < 0x180000 →
        ∃ u, exec p.2 s = .next u ∧ Performed s u t (BitVec.ofNat 64 (leNat (s.scr ea.toNat p.1))) ∧ u.mem = s.mem) ∧
      (∀ p ∈ [(1, Instr.ldB m t a .flt sc ord off), (2, .ldH m t a .flt sc ord off), (4, .ldW m t a .flt sc ord off),
          (8, .ldD m t a .flt sc ord off)],
        ea.toNat % p.1 = 0 → ea.toNat < 0x400000 →
        (expired s.ctl s.g (ea.toNat / 4096) = false →
          ∃ u, exec p.2 s = .next u ∧ u.mem = s.mem ∧
            Performed s u t (BitVec.ofNat 64 (leNat ((List.range p.1).map (fun i => s.byte (fltAt s.g (ea.toNat + i))))))) ∧
        (expired s.ctl s.g (ea.toNat / 4096) = true →
          ∃ u, exec p.2 s = .next u ∧ u.mem = s.mem ∧ u.sys = { s.sys with fe := true } ∧ u.pc = s.pc + 8 ∧
            (t ≠ 0 → u.x t = 0) ∧ ∀ j, j ≠ t → u.x j = s.x j))
  )

/-- R126, R285, R288: a store whose address has passed its checks commits into SQ(t) in every space: one entry with the low
bytes of x[T] for its place, the lowest first; a release waits for every earlier access at its scope. No register and no
byte of memory changes yet.
R136, R139, R208, R284, R285, R288 to R291: SQ_DRAIN takes the entry at the head of SQ(t) once it need not wait; until then
nothing happens. Of an entry whose stores all go to the own scratchpad, a scalar store, the words of a VST or a lane of a VSCAT, the
bytes are written in order where the way is clear, and no other byte; another task asleep on a barrier whose phase the stored word
changes goes on with that word. Where nothing is performed at once, the stores of any entry, to a remote scratchpad and to device
memory too, stand in their first queue, and no byte has changed. -/
def Obligations.Stores : Prop :=
  (
    ∀ (m : Marks) (t a : XReg) (sp : Space) (sc : BitVec 3) (ord : Order) (off : BitVec 30) (s : State) (x : Xlate),
      s.Settled → ∀ p ∈ [(1, Instr.stB m t a sp sc ord off), (2, .stH m t a sp sc ord off), (4, .stW m t a sp sc ord off),
        (8, .stD m t a sp sc ord off)],
      let ea := s.x a + off.signExtend 64
      let s1 := s.looked sp ea p.1 p.1 .write
      let r := s1.request sp ea x (.write (natLe p.1 (s1.x t).toNat))
      s.place sp ea p.1 p.1 .write = .ok x → s1.Settled → mayIssue (Work.start s1) 1 [r] = true →
      ∃ u, exec p.2 s = .next u ∧
        Stored s1 u (if isRel ord then s1.task.fl.outs.map (·.id) else []) (if isRel ord then sc.toNat else 0) [r]
  ) ∧
  (
    ∀ (s : State) (g t : Nat) (e : SqEntry) (rest : List SqEntry),
      (s.taskAt g t).fl.sq = e :: rest →
      (∀ r ∈ e.reqs, ∀ o ∈ (s.taskAt g t).fl.outs, o.id = r.id → o.store = true ∧ o.atom = false ∧ o.dest = .none ∧ o.bad = none) →
      (drainReady s.ctl (s.taskAt g t) = false → exec (.sqDrain g t) s = .next s) ∧
      (s.g = g → s.Clear → s.mem.wf = true → drainReady s.ctl (s.taskAt g t) = true →
        (∀ r ∈ e.reqs, ∃ off bs, OwnStore g t r off bs ∧ barSleeper (s.taskAt g t) r.addr bs.length = false) →
        ∃ u, exec (.sqDrain g t) s = .next u ∧ (u.taskAt g t).fl.sq = rest ∧ (u.taskAt g t).regs = (s.taskAt g t).regs ∧
          (∀ b, u.byte b = (byteWritten e.reqs b).getD (s.byte b)) ∧
          ∀ r off bs, e.reqs = [r] → OwnStore g t r off bs → bs.length = 4 → ∀ h k ph d, h ≠ g ∨ k ≠ t →
            (s.taskAt h k).run = .sleeping (.bar (scrAt g off) ph d) → leNat bs / 2 ^ 26 % 16 ≠ ph →
            (u.taskAt h k).run = .runnable ∧
              (u.taskAt h k).regs = (s.taskAt h k).regs.putX (BitVec.ofNat 5 d) (BitVec.ofNat 64 (leNat bs))) ∧
      (s.ctl.model.defer = true → drainReady s.ctl (s.taskAt g t) = true →
        ∃ u, exec (.sqDrain g t) s = .next u ∧ (u.taskAt g t).fl.sq = rest ∧ (u.taskAt g t).regs = (s.taskAt g t).regs ∧
          u.mem = s.mem ∧ ∀ r ∈ e.reqs, Queued u (reroute s.ctl r))
  )

/-- R134 to R136, R141: VLD and VST move 256 bytes from or to x[A] + x[B]: in pieces of a word (64 bytes from or to a remote
scratchpad or device memory); a load is one access, its words from the own scratchpad sent one after the other, a store one entry of
SQ(t) that covers the register, the lowest lane at the lowest address.
R134, R135: VLD from the own scratchpad, or from live tiles of the own fleeting store, puts the 256 bytes into v[D], the
byte at the lowest address in the lowest bits, and changes nothing else. -/
def Obligations.VectorLoadsAndStores : Prop :=
  (
    ∀ (m : Marks) (d : VReg) (a b : XReg) (sp : Space) (s : State) (x : Xlate), s.Settled → s.t < 16 →
      let ea := s.x a + s.x b
      let al := if sp = .dev then 256 else 4
      let s1 := s.looked sp ea 256 al .read
      let s2 := s.looked sp ea 256 al .write
      let ld := loadPieces (Work.start s1) s1.ctl.model.nextId sp ea.toNat x 256 (vecStep sp) .none
      let st := storePieces (Work.start s2) s2.ctl.model.nextId sp ea.toNat x (natLe 256 (s2.v d).toNat) (vecStep sp)
      (s.place sp ea 256 al .read = .ok x → s1.task.fl.sq = [] → s1.Unshared → mayIssue (Work.start s1) 0 ld = true →
        s1.ctl.model.defer = true →
        ∃ u, exec (.vld m d a b sp) s = .next u ∧ Issued s1 u (.v d.toNat) sp (gapFor m sp) false (decide (sp = .flt)) false ld) ∧
      (s.place sp ea 256 al .write = .ok x → s2.Settled → mayIssue (Work.start s2) 1 st = true →
        ∃ u, exec (.vst m d a b sp) s = .next u ∧ Stored s2 u [] 0 st ∧
          (st.map (fun r => match r.acc with
            | .write l => l
            | _ => [])).flatten = natLe 256 (s2.v d).toNat)
  ) ∧
  (
    ∀ (m : Marks) (d : VReg) (a b : XReg) (s : State), s.Quiet → s.Clear →
      let ea := (s.x a + s.x b).toNat
      let reads := fun (u : State) (base : Nat) =>
        u.pc = s.pc + 8 ∧ u.mem = s.mem ∧ u.v d = BitVec.ofNat 2048 (leNat ((List.range 256).map (fun i => s.byte (base + i)))) ∧
        (∀ j, j ≠ d → u.v j = s.v j) ∧ (∀ j, u.x j = s.x j) ∧ (∀ j, u.q j = s.q j) ∧ u.sys = s.sys
      (ea % 4 = 0 → ea + 256 ≤ 0x180000 → ∃ u, exec (.vld m d a b .scr) s = .next u ∧ reads u (scrAt s.g ea)) ∧
      (ea % 4 = 0 → ea + 256 ≤ 0x400000 → expired s.ctl s.g (ea / 4096) = false → expired s.ctl s.g ((ea + 255) / 4096) = false →
        ∃ u, exec (.vld m d a b .flt) s = .next u ∧ reads u (fltAt s.g ea))
  )

/-- R137 to R139, R285: VGATH and VSCAT act on the lanes whose offset is not all ones, each at x[A] plus its offset. The first
misaligned lane traps MISALIGN. Once all lanes have passed their checks a gather is one access with a request for each
lane, in every space, and a gather of no lane writes zeros; a scatter commits one entry of SQ(t) for each lane, in ascending
order, with the lane's low bytes. A gather done at once from the own scratchpad or fleeting store puts each lane's bytes,
zero-extended, into its lane, 0 into the others, and 0 for an expired tile, which sets FE. -/
def Obligations.GatherScatter : Prop :=
  ∀ (m : Marks) (d b : VReg) (a : XReg) (sp : Space) (sz : Size) (s : State), s.Settled →
    let n := sizeOfSz sz
    let on := s.lanesOn a b
    let s1 := s.lookedLanes sp n .read on
    let s2 := s.lookedLanes sp n .write on
    let lanesRead := fun (u : State) (f : Nat → Nat) =>
      (∀ i < 64, lane 32 (u.v d) i = f i) ∧ (∀ j, j ≠ d → u.v j = s.v j) ∧ (∀ j, u.x j = s.x j) ∧ (∀ j, u.q j = s.q j) ∧
      u.pc = s.pc + 8 ∧ u.mem = s.mem
    (∀ l, on.find? (fun l => l.2.toNat % n ≠ 0) = some l → ∀ i ∈ [Instr.vgath m d a b sp sz, .vscat m d a b sp sz],
      exec i s = .next (s.trapped m 3 l.2 (BitVec.ofNat 64 n) 0)) ∧
    (∀ ls, s.placeLanes sp n .read on = .ok ls → ls.map (fun l => (l.1, l.2.1)) = on ∧
      let reqs := ls.map (fun l => mkReq (Work.start s1) s1.ctl.model.nextId sp l.2.1.toNat l.2.2 (.read n) (32 * l.1))
      (ls ≠ [] → s1.task.fl.sq = [] → s1.Unshared → mayIssue (Work.start s1) 0 reqs = true → s1.ctl.model.defer = true →
        ∃ u, exec (.vgath m d a b sp sz) s = .next u ∧
          Issued s1 u (.v d.toNat) sp (gapFor m sp) false (decide (sp = .flt)) false reqs)) ∧
    (on = [] → s.Unshared → guardsOpen s.task 0 = true →
      ∃ u, exec (.vgath m d a b sp sz) s = .next u ∧ u.sys = s.sys ∧ lanesRead u (fun _ => 0)) ∧
    (∀ ls, s.placeLanes sp n .write on = .ok ls → ls.map (fun l => (l.1, l.2.1)) = on ∧
      let reqs := (List.range ls.length).zip ls |>.map (fun p => mkReq (Work.start s2) (s2.ctl.model.nextId + p.1) sp
        p.2.2.1.toNat p.2.2.2 (.write (natLe n (lane 32 (s2.v d) p.2.1))) 0)
      (s2.Settled → mayIssue (Work.start s2) 1 reqs = true →
        ∃ u, exec (.vscat m d a b sp sz) s = .next u ∧ u.pc = s.pc + 8 ∧ u.regs = s2.regs ∧ u.sys = s2.sys ∧ u.mem = s2.mem ∧
          u.task.fl.sq = s2.task.fl.sq ++ reqs.map (fun r => { id := r.id, reqs := [r], waitFor := [], scope := 0 }) ∧
          u.task.fl.outs = s2.task.fl.outs ++ reqs.map (storeOut s2.pc))) ∧
    (s.Quiet → s.Clear → sz ≠ .dword → (∀ l ∈ on, l.2.toNat % n = 0) →
      let byLane := fun (f : Word → Nat) (i : Nat) => match on.find? (fun l => l.1 == i) with
        | some l => f l.2
        | none => 0
      let dead := fun (ea : Word) => expired s.ctl s.g (ea.toNat / 4096)
      ((∀ l ∈ on, l.2.toNat < 0x180000) → ∃ u, exec (.vgath m d a b .scr sz) s = .next u ∧ u.sys = s.sys ∧
        lanesRead u (byLane (fun ea => leNat (s.scr ea.toNat n)))) ∧
      ((∀ l ∈ on, l.2.toNat < 0x400000) → ∃ u, exec (.vgath m d a b .flt sz) s = .next u ∧
        u.sys = (if on.any (fun l => dead l.2) then { s.sys with fe := true } else s.sys) ∧
        lanesRead u (byLane (fun ea => if dead ea then 0 else
          leNat ((List.range n).map (fun i => s.byte (fltAt s.g (ea.toNat + i))))))))

/-- R200, R201, R203, R285, R290: an atomic whose address has passed its checks, with no store of the task held back on its bytes,
commits with one indivisible request at its place, in every space: its operation, its size and its operands; a release waits, with no
effect but what its walk did, while an earlier access of the task is not performed at its scope.
R200, R201, R203: an atomic on the own scratchpad, done at once: x[D] takes the old value, the bytes the new one, and
no other byte changes. -/
def Obligations.Atomics : Prop :=
  (
    ∀ (m : Marks) (dbl : Bool) (d a b c : XReg) (sp : Space) (sc : BitVec 3) (ord : Order) (s : State) (x : Xlate),
      s.Settled → ∀ p ∈ atomics m dbl d a b c sp sc ord,
      let n := if dbl then 8 else 4
      let s1 := s.looked sp (s.x a) n n .both
      let r := s1.request sp (s.x a) x (.amo p.1 n ((s1.x b).toNat % 2 ^ (8 * n)) (if p.1 = 9 then (s1.x c).toNat % 2 ^ (8 * n) else 0))
      s.place sp (s.x a) n n .both = .ok x →
      (s1.Quiet → mayIssue (Work.start s1) 2 [r] = true → s1.ctl.model.defer = true →
        ∃ u, exec p.2 s = .next u ∧ Issued s1 u (.x d.toNat) sp (gapFor m sp) true false (isAcq ord) [r]) ∧
      (isRel ord = true → (∃ o ∈ s1.task.fl.outs, performedAt s1.task sc.toNat o.id = false) →
        ∃ u, exec p.2 s = .next u ∧ u.task = s1.task ∧ u.mem = s1.mem ∧ u.ctl.model.issuing = 3)
  ) ∧
  (
    ∀ (m : Marks) (dbl : Bool) (d a b c : XReg) (sc : BitVec 3) (ord : Order) (s : State), s.Quiet → s.Clear → s.mem.wf = true →
      ∀ p ∈ atomics m dbl d a b c .scr sc ord,
      let n := if dbl then 8 else 4
      let ea := (s.x a).toNat
      let old := leNat (s.scr ea n)
      ea % n = 0 → ea < 0x180000 → s.NoBarSleeper (scrAt s.g ea) n →
      ∃ u, exec p.2 s = .next u ∧ Performed s u d (BitVec.ofNat 64 old) ∧
        u.scr ea n = natLe n (atomicValue p.1 n old ((s.x b).toNat % 2 ^ (8 * n)) ((s.x c).toNat % 2 ^ (8 * n))) ∧
        ∀ k, k < scrAt s.g ea ∨ scrAt s.g ea + n ≤ k → u.byte k = s.byte k
  )

/-- R204, R205: WAITMON on the own scratchpad: a word that differs from x[C], or a deadline that has come, ends it at once
with the word in x[D]; else the task sleeps and its bank holds a monitor on the bytes.
R204, R215, R423: a task asleep in WAITMON whose deadline has come, or in SLEEPUNTIL whose tick has come, wakes: WAITMON
reads its bytes anew into x[D], or, where one of them is poison, sleeps no more with no x register written; one whose time has not
come sleeps on. -/
def Obligations.MonitorsAndWakes : Prop :=
  (
    ∀ (m : Marks) (dbl : Bool) (d a b c : XReg) (sc : BitVec 3) (ord : Order) (s : State), s.Quiet → s.Clear →
      let n := if dbl then 8 else 4
      let ea := (s.x a).toNat
      let old := leNat (s.scr ea n)
      ea % n = 0 → ea < 0x180000 →
      (old ≠ (s.x c).toNat % 2 ^ (8 * n) ∨ (b ≠ 0 ∧ (s.x b).toNat ≤ s.ctl.tick) →
        ∃ u, exec (.waitmon m dbl d a b c .scr sc ord) s = .next u ∧ Performed s u d (BitVec.ofNat 64 old) ∧ u.mem = s.mem) ∧
      (old = (s.x c).toNat % 2 ^ (8 * n) → (b = 0 ∨ s.ctl.tick < (s.x b).toNat) →
        ∃ u, exec (.waitmon m dbl d a b c .scr sc ord) s = .next u ∧ u.pc = s.pc + 8 ∧ u.regs = s.regs ∧ u.mem = s.mem ∧
          u.task.run = .sleeping (.waitmon (scrAt s.g ea) n (if b = 0 then none else some (s.x b).toNat) d.toNat ea) ∧
          ∀ k ∈ (if dbl then [ea / 4 % 384, ea / 4 % 384 + 1] else [ea / 4 % 384]),
            { addr := scrAt s.g ea, n := n, g := s.g, t := s.t } ∈ Tab.getD u.here.mons k [])
  ) ∧
  (
    ∀ (s : State) (g t a n dl d va till : Nat) (np : Bool),
      ((s.taskAt g t).run = .sleeping (.waitmon a n (some dl) d va) → dl ≤ s.ctl.tick → s.ctl.marks.soft = [] →
        s.ctl.marks.latent = [] → (∃ p ∈ s.ctl.marks.poison, p ∈ unitsOf a n) →
        ∃ u, exec (.waitmonDeadline g t) s = .next u ∧ (u.taskAt g t).run ≠ (s.taskAt g t).run ∧ u.mem = s.mem ∧
          (u.taskAt g t).regs.x = (s.taskAt g t).regs.x) ∧
      ((s.taskAt g t).run = .sleeping (.waitmon a n (some dl) d va) → dl ≤ s.ctl.tick → s.ctl.marks.soft = [] →
        s.ctl.marks.latent = [] → s.ctl.marks.poison = [] →
        ∃ u, exec (.waitmonDeadline g t) s = .next u ∧ (u.taskAt g t).run = .runnable ∧ u.mem = s.mem ∧
          (u.taskAt g t).regs = (s.taskAt g t).regs.putX (BitVec.ofNat 5 d)
            (BitVec.ofNat 64 (leNat ((List.range n).map (fun i => s.byte (a + i)))))) ∧
      ((s.taskAt g t).run = .sleeping (.waitmon a n (some dl) d va) → s.ctl.tick < dl → exec (.waitmonDeadline g t) s = .next s) ∧
      ((s.taskAt g t).run = .sleeping (.sleepuntil till np) → till ≤ s.ctl.tick → promiseBroken (s.taskAt g t) till = false →
        ∃ u, exec (.sleepuntilWake g t) s = .next u ∧ u.mem = s.mem ∧ u.taskAt g t = { s.taskAt g t with run := .runnable }) ∧
      ((s.taskAt g t).run = .sleeping (.sleepuntil till np) → s.ctl.tick < till → exec (.sleepuntilWake g t) s = .next s)
  )

/-- R206 to R208: BAR.JOIN and BAR.DROP on the own scratchpad: a join adds a party and an entry, or answers bit 62 (a
member already) or bit 63 (no room) and changes nothing; a drop of a member takes the party (and its arrival) away and
leaves DROP, and completes the phase where everyone left has arrived. A count that a store has left at 0 stays 0 in a drop:
the model's choice, log entry 78.
R206 to R208, R210: BAR.ARRIVE, BAR.ARRWAIT and BAR.WAIT on the own scratchpad. An arrival that is not the last counts
and (ARRWAIT) sleeps on the phase; the last one turns the phase, clears the arrivals, and wakes whoever waits; a wait whose
token is not the phase returns the word, else it sleeps; one who is no member is answered bit 62. -/
def Obligations.Barriers : Prop :=
  (
    ∀ (m : Marks) (d a : XReg) (s : State), s.Quiet → s.Clear → s.mem.wf = true → s.BarOk (scrAt s.g (s.x a).toNat) →
      let ea := (s.x a).toNat
      let loc := scrAt s.g ea
      let v := leNat (s.scr ea 4)
      let member := s.task.fl.bars.any (fun e => e.addr == loc)
      ea % 4 = 0 → ea < 0x180000 →
      (member = true → ∃ u, exec (.barJoin m d a .scr) s = .next u ∧ Performed s u d (BitVec.ofNat 64 (v + 2 ^ 62)) ∧ u.mem = s.mem) ∧
      (member = false → 8 ≤ s.task.fl.bars.length ∨ v % 2 ^ 13 = 8191 →
        ∃ u, exec (.barJoin m d a .scr) s = .next u ∧ Performed s u d (BitVec.ofNat 64 (v + 2 ^ 63)) ∧ u.mem = s.mem) ∧
      (member = false → s.task.fl.bars.length < 8 → v % 2 ^ 13 < 8191 →
        ∃ u, exec (.barJoin m d a .scr) s = .next u ∧ Performed s u d (BitVec.ofNat 64 (v + 1)) ∧ u.scr ea 4 = natLe 4 (v + 1) ∧
          u.task.fl.bars = s.task.fl.bars ++ [{ addr := loc, sp := .scr, va := ea, arrived := false, phase := 0 }]) ∧
      (member = false → ∃ u, exec (.barDrop m d a .scr) s = .next u ∧ Performed s u d (BitVec.ofNat 64 (v + 2 ^ 62)) ∧ u.mem = s.mem) ∧
      (∀ e, s.task.fl.bars.find? (fun e => e.addr == loc) = some e → s.task.run = .runnable →
        let b := barOf v
        let left := { b with parties := b.parties - 1, arrived := if e.arrived then b.arrived - 1 else b.arrived, drop := true }
        ∃ u, exec (.barDrop m d a .scr) s = .next u ∧ u.pc = s.pc + 8 ∧ (d ≠ 0 → u.x d = BitVec.ofNat 64 (barNat left)) ∧
          (∀ f ∈ u.task.fl.bars, f.addr ≠ loc) ∧
          u.scr ea 4 = natLe 4 (if 0 < left.parties ∧ left.parties ≤ left.arrived then
            barNat { left with ldrop := true, drop := false, arrived := 0, phase := (left.phase + 1) % 16 } else barNat left))
  ) ∧
  (
    ∀ (m : Marks) (d a b : XReg) (s : State) (e : BarEntry), s.Quiet → s.Clear → s.mem.wf = true →
      s.BarOk (scrAt s.g (s.x a).toNat) →
      let ea := (s.x a).toNat
      let loc := scrAt s.g ea
      let v := leNat (s.scr ea 4)
      let w := barOf v
      let after := { w with arrived := w.arrived + 1 }
      let done := barNat { w with arrived := 0, ldrop := w.drop, drop := false, phase := (w.phase + 1) % 16 }
      let entry := s.task.fl.bars.find? (fun e => e.addr == loc)
      ea % 4 = 0 → ea < 0x180000 →
      (entry = none → ∀ i ∈ [Instr.barArrive m d a .scr, .barArrwait m d a .scr],
        ∃ u, exec i s = .next u ∧ Performed s u d (BitVec.ofNat 64 (v + 2 ^ 62)) ∧ u.mem = s.mem) ∧
      (entry = some e → e.arrived = false → s.task.fl.bars = [e] → w.arrived + 1 < w.parties →
        (∃ u, exec (.barArrive m d a .scr) s = .next u ∧ Performed s u d (BitVec.ofNat 64 v) ∧
          u.scr ea 4 = natLe 4 (barNat after) ∧ u.task.fl.bars = [{ e with arrived := true, phase := w.phase }]) ∧
        (∃ u, exec (.barArrwait m d a .scr) s = .next u ∧ u.pc = s.pc + 8 ∧ u.regs = s.regs ∧
          u.scr ea 4 = natLe 4 (barNat after) ∧ u.task.run = .sleeping (.bar loc w.phase d.toNat) ∧
          u.task.fl.bars = [{ e with arrived := true, phase := w.phase }])) ∧
      (entry = some e → e.arrived = false → s.task.fl.bars = [e] → 0 < w.parties → w.parties ≤ w.arrived + 1 → s.task.run = .runnable →
        (∃ u, exec (.barArrive m d a .scr) s = .next u ∧ u.pc = s.pc + 8 ∧ (d ≠ 0 → u.x d = BitVec.ofNat 64 v) ∧
          u.scr ea 4 = natLe 4 done ∧ u.task.fl.bars = [{ e with arrived := false, phase := w.phase }] ∧
          ∀ g k dd, (g ≠ s.g ∨ k ≠ s.t) → Tab.find (s.gladeAt g).ctx.tasks k = some (s.taskAt g k) →
            Tab.find s.ctl.glades g = some (s.gladeAt g) →
            (s.taskAt g k).run = .sleeping (.bar loc w.phase dd) →
            (u.taskAt g k).run = .runnable ∧ (u.taskAt g k).regs = (s.taskAt g k).regs.putX (BitVec.ofNat 5 dd) (BitVec.ofNat 64 done)) ∧
        (∃ u, exec (.barArrwait m d a .scr) s = .next u ∧ u.pc = s.pc + 8 ∧ u.task.run = .runnable ∧
          (d ≠ 0 → u.x d = BitVec.ofNat 64 done) ∧ u.scr ea 4 = natLe 4 done)) ∧
      ((s.x b).toNat / 2 ^ 26 % 16 ≠ w.phase →
        ∃ u, exec (.barWait m d a b .scr) s = .next u ∧ Performed s u d (BitVec.ofNat 64 v) ∧ u.mem = s.mem) ∧
      ((s.x b).toNat / 2 ^ 26 % 16 = w.phase →
        ∃ u, exec (.barWait m d a b .scr) s = .next u ∧ u.pc = s.pc + 8 ∧ u.regs = s.regs ∧ u.mem = s.mem ∧
          u.task.run = .sleeping (.bar loc w.phase d.toNat))
  )

/-- R1, R211, R212, R314: FRENEW, FLIFE and FCLAIM on the tile of x[A][21:12]: the life before, and what becomes of the birth
and the bytes; an offset beyond the store traps BOUND with EVAL 3. -/
def Obligations.FleetingTiles : Prop :=
  ∀ (m : Marks) (d a : XReg) (s : State), s.Quiet → s.Clear → s.mem.wf = true →
    let off := (s.x a).toNat
    let tile := off / 4096
    let life : Nat := match Tab.find s.here.ctx.births tile with
      | none => 0
      | some b => (131072 - ((s.ctl.tick : Int) - b) % 2 ^ 64).toNat
    (0x400000 ≤ off → ∀ i ∈ [Instr.frenew m d a, .flife m d a, .fclaim m d a], exec i s = .next (s.trapped m 4 (s.x a) 3 0)) ∧
    (off < 0x400000 →
      (∃ u, exec (.flife m d a) s = .next u ∧ Performed s u d (BitVec.ofNat 64 life) ∧ u.mem = s.mem ∧
        u.here.ctx.births = s.here.ctx.births) ∧
      (∃ u, exec (.frenew m d a) s = .next u ∧ Performed s u d (BitVec.ofNat 64 life) ∧ u.mem = s.mem ∧
        u.here.ctx.births = (if 0 < life then Tab.set s.here.ctx.births tile s.ctl.tick else s.here.ctx.births)) ∧
      (∃ u, exec (.fclaim m d a) s = .next u ∧ Performed s u d 131072 ∧ u.here.ctx.births = Tab.set s.here.ctx.births tile s.ctl.tick ∧
        (∀ i < 4096, u.byte (fltAt s.g (tile * 4096 + i)) = 0) ∧
        ∀ k, k < fltAt s.g (tile * 4096) ∨ fltAt s.g (tile * 4096) + 4096 ≤ k → u.byte k = s.byte k))

/-- R213: a FENCE goes on, changes no register and no byte, and from then on a later access of the kind it names (all; all;
stores and atomics; stores) waits until the earlier ones it names (all; loads and atomics; all; stores) are performed at
its scope: shown for a load, a store and an atomic of the own scratchpad.
R214, R222, R296: FENCEQ and SBAR stand as one entry in each named queue, behind the commands there now; the `.W` forms
leave the task not ready until it is released; a mask of 0 does nothing.
R296: an entry whose commands have all left their queues and whose stores are performed is released: it leaves every
queue, and a task that waits for it is ready again; one whose commands have not all completed stays. -/
def Obligations.FencesOfTasksAndQueues : Prop :=
  (
    ∀ (m : Marks) (sc : BitVec 3) (s : State),
      let ids := fun (p : Out → Bool) => (s.task.fl.outs.filter p).map (·.id)
      ∀ q ∈ [(Instr.fenceFull m sc, ids (fun _ => true), 0), (.fenceAcq m sc, ids (fun o => !o.store || o.atom), 0),
        (.fenceRel m sc, ids (fun _ => true), 1), (.fenceSt m sc, ids (fun o => o.store), 2)],
        ∃ u, exec q.1 s = .next u ∧ OnlyMine s u ∧ u.regs = s.regs ∧ u.pc = s.pc + 8 ∧ u.sys = s.sys ∧
          u.task.fl.guards = s.task.fl.guards ++ (if q.2.1 = [] then [] else [{ ids := q.2.1, scope := sc.toNat, covers := q.2.2 }]) ∧
      ∀ (d a b : XReg) (ord : Order) (G : Guard), s.Settled → s.task.fl.sq = [] → s.Unshared → G ∈ s.task.fl.guards →
        (∃ i ∈ G.ids, performedAt s.task G.scope i = false) → (s.x a).toNat % 8 = 0 → (s.x a).toNat < 0x180000 →
        (G.covers = 0 → exec (.ldD m d a .scr sc ord 0) s = .next (s.waits m)) ∧
        exec (.stD m d a .scr sc ord 0) s = .next (s.waits m) ∧
        (G.covers ≠ 2 → exec (.amoAdd m true d a b .scr sc ord) s = .next (s.waits m))
  ) ∧
  (
    ∀ (m : Marks) (mask : BitVec 10) (mask3 : BitVec 3) (sc : BitVec 3) (s : State),
      let id := s.ctl.model.nextId
      let placed := fun (u : State) (qs : List Queue) (wait : Bool) =>
        u.pc = s.pc + 8 ∧ u.regs = s.regs ∧ u.mem = s.mem ∧ u.task.wait = (if wait then some (.entry id) else s.task.wait) ∧
        (∀ q ∈ qs, ∃ c, u.queue q = s.queue q ++ [c] ∧ c.op = .fence ∧ c.id = id) ∧ (∀ q, q ∉ qs → u.queue q = s.queue q) ∧
        ∃ f ∈ u.here.ctx.eng.fences, f.id = id ∧ f.queues = qs ∧
          ∀ q ∈ qs, ∀ c ∈ s.queue q, c.op ≠ .fence → (q, c.id) ∈ f.cmds
      (mask = 0 → ∀ i ∈ [Instr.fenceq m mask sc, .fenceqW m mask sc], exec i s = .next (s.went m)) ∧
      (mask3 = 0 → ∀ i ∈ [Instr.sbar m mask3, .sbarW m mask3], exec i s = .next (s.went m)) ∧
      (mask ≠ 0 → (∃ u, exec (.fenceq m mask sc) s = .next u ∧ placed u (maskQueues mask) false) ∧
        ∃ u, exec (.fenceqW m mask sc) s = .next u ∧ placed u (maskQueues mask) true) ∧
      (mask3 ≠ 0 → (∃ u, exec (.sbar m mask3) s = .next u ∧ placed u (maskStreams mask3) false) ∧
        ∃ u, exec (.sbarW m mask3) s = .next u ∧ placed u (maskStreams mask3) true)
  ) ∧
  (
    ∀ (s : State) (g id : Nat) (f : Fence), (s.gladeAt g).ctx.eng.fences.find? (fun f => f.id == id) = some f →
      let left := f.cmds.any (fun p => (cmdsOf s.ctl g p.1).any (fun c => c.id == p.2))
      let performed := f.stores.all (performedAt (s.taskAt g f.t) f.scope)
      (left = true ∨ performed = false → exec (.fenceqEntryRelease g id) s = .next s) ∧
      (left = false → performed = true → ∃ u, exec (.fenceqEntryRelease g id) s = .next u ∧ u.mem = s.mem ∧
        (∀ q ∈ f.queues, ∀ c ∈ cmdsOf u.ctl g q, c.id ≠ id) ∧ (∀ x ∈ (u.gladeAt g).ctx.eng.fences, x.id ≠ id) ∧
        (u.taskAt g f.t).wait = (if (s.taskAt g f.t).wait = some (.entry id) then none else (s.taskAt g f.t).wait))
  )

/-- R215, R216, R218: SLEEPUNTIL goes on at once where its tick has come, traps PROMISE where a copy promised up to it has not
completed (not `.NP`), and else waits for earlier results and sleeps; YIELD ends the task's run and marks a yield point of
its launch; the generator's step, seeding and bounded draw. R85: no promise reaches across the sleep.
R209, R217: EXIT waits for the store queue, and for results still to be written (that is the model's choice, log entry 29), then
retires the task: its slot runs nothing more, its ports wait no more and its handles are unbound; its barriers are still its own, and
while it has one, or a VC word on its way, its retirement is not recorded. -/
def Obligations.TimeGeneratorExit : Prop :=
  (
    ∀ (m : Marks) (d a b : XReg) (s : State), s.Settled →
      let till := (s.x a).toNat
      let S := s.regs.rng0
      let y := s.regs.rng1
      let n := (S ^^^ (S <<< 23)) ^^^ y ^^^ ((S ^^^ (S <<< 23)) >>> 17) ^^^ (y >>> 26)
      let drawn := fun (v : Word) => s.after (fun w => next m (wx (updMe w (fun T =>
        { T with regs := { T.regs with rng0 := y, rng1 := n } })) m d v))
      (till ≤ s.ctl.tick → exec (.sleepuntilNp m a) s = .next (s.went m)) ∧
      (till ≤ s.ctl.tick → promiseBroken s.task till = false → exec (.sleepuntil m a) s = .next (s.went m)) ∧
      (till ≤ s.ctl.tick → promiseBroken s.task till = true → exec (.sleepuntil m a) s = .next (s.trapped m 0xA 0 (s.x a) 0)) ∧
      (s.ctl.tick < till → resultsPending s.task = true → exec (.sleepuntil m a) s = .next (s.waits m) ∧
        exec (.sleepuntilNp m a) s = .next (s.waits m)) ∧
      (s.ctl.tick < till → resultsPending s.task = false → ∀ p ∈ [(false, Instr.sleepuntil m a), (true, .sleepuntilNp m a)],
        ∃ u, exec p.2 s = .next u ∧ OnlyMine s u ∧ u.pc = s.pc + 8 ∧ u.regs = s.regs ∧ u.sys = s.sys ∧
          u.task.run = .sleeping (.sleepuntil till p.1)) ∧
      (∃ u, exec (.yield m) s = .next u ∧ u.task = { s.task with pc := s.pc + 8 } ∧ u.here.ctx.runEnd = true ∧ u.mem = s.mem ∧
        ∀ o l, s.here.owner = some o → s.launch o.part o.launch = some l →
          u.launch o.part o.launch = some { l with yielded := true }) ∧
      exec (.rngSeed m a b) s = .next (s.edited m (fun T => { T with regs := { T.regs with rng0 := s.x a, rng1 := s.x b } })) ∧
      exec (.rngNext m d) s = .next (drawn (n + y)) ∧
      exec (.rngGet m d a) s = .next (drawn (if s.x a = 0 then n + y else BitVec.ofNat 64 ((n + y).toNat * (s.x a).toNat / 2 ^ 64)))
  ) ∧
  (
    ∀ (m : Marks) (s : State),
      (s.task.fl.sq ≠ [] ∨ resultsPending s.task = true → exec (.exit m) s = .next (s.waits m)) ∧
      (s.task.fl.sq = [] → resultsPending s.task = false → s.sys.inh = false →
        ∃ u, exec (.exit m) s = .next u ∧ OnlyMine (s.after (fun w => endWaits w s.g (· == s.t))) u ∧ u.task.run = .retired ∧ (∀ j, u.q j = none) ∧
          (∀ j, u.x j = s.x j) ∧ u.sys = s.sys ∧ u.task.fl.bars = s.task.fl.bars ∧
          (leaving u.ctl s.g s.t = true ↔ s.task.fl.bars ≠ [] ∨ ∃ f ∈ s.ctl.net.fly, f.src = s.g ∧ f.slot = some s.t))
  )

/-- R154 to R156: QSET binds a handle, QSET.U unbinds it, QSET.CFG sets its entry up empty, QINFO reads its fields; and where
each raises QCFG, with EVAL the handle.
R157, R158, R160: QADV.C and QADV.P move HEAD or TAIL once enough slots are filled or free and the task's earlier local
loads or stores are performed, and else wait; QWAIT.C and QWAIT.P go on where the count is there, and else sleep once every
earlier result is written (R85); a count above COUNT raises QCFG, and a count of 0 does nothing. -/
def Obligations.BufferTable : Prop :=
  (
    ∀ (m : Marks) (h : QReg) (fld : BitVec 3) (d a b c : XReg) (s : State), s.Settled →
      let A := (s.x a).toNat
      let base := A % 2 ^ 22
      let sp := A / 2 ^ 32 % 4
      let slot := (s.x b).toNat
      let count := (s.x c).toNat
      let size := if sp = 1 then 0x180000 else 0x400000
      let fine := (sp = 1 ∨ sp = 3) ∧ base % 64 = 0 ∧ 0 < slot ∧ slot % 64 = 0 ∧ slot ≤ 0x400000 ∧ 0 < count ∧ count ≤ 4096 ∧
        base + slot * count ≤ size
      let qcfg := fun (n : Nat) => s.trapped m 8 0 (BitVec.ofNat 64 h.toNat) n
      (A < 64 → exec (.qset m h a) s = .next (s.wroteQ m h (some (BitVec.ofNat 6 A)))) ∧
      (64 ≤ A → exec (.qset m h a) s = .next (qcfg 2)) ∧
      exec (.qsetU m h) s = .next (s.wroteQ m h none) ∧
      (s.q h = none → exec (.qsetCfg m h a b c) s = .next (qcfg 0) ∧ exec (.qinfo m fld d h) s = .next (qcfg 0)) ∧
      (∀ e, s.q h = some e →
        (entryBusy s.ctl s.g e.toNat = true → exec (.qsetCfg m h a b c) s = .next (s.waits m)) ∧
        (entryBusy s.ctl s.g e.toNat = false → ¬(fine ∧ (s.buf e.toNat).filled = 0) → exec (.qsetCfg m h a b c) s = .next (qcfg 3)) ∧
        (entryBusy s.ctl s.g e.toNat = false → fine → (s.buf e.toNat).filled = 0 →
          ∃ u, exec (.qsetCfg m h a b c) s = .next u ∧ u.pc = s.pc + 8 ∧ u.regs = s.regs ∧ u.mem = s.mem ∧
            u.buf e.toNat = { base := base, space := sp, slot := slot, count := count, head := 0, tail := 0, filled := 0 } ∧
            ∀ k, k ≠ e.toNat → u.buf k = s.buf k) ∧
        ((s.buf e.toNat).count = 0 → exec (.qinfo m fld d h) s = .next (qcfg 1)) ∧
        ((s.buf e.toNat).count ≠ 0 →
          let B := s.buf e.toNat
          let fields := [B.filled, B.count - B.filled, B.head, B.tail, B.count, B.slot, B.space * 2 ^ 32 + B.base, e.toNat]
          exec (.qinfo m fld d h) s = .next (s.wroteX m d (BitVec.ofNat 64 ((fields[fld.toNat]?).getD 0)))))
  ) ∧
  (
    ∀ (m : Marks) (h : QReg) (a : XReg) (imm : BitVec 32) (k : BitVec 13) (e : BitVec 6) (s : State), s.Settled → s.q h = some e →
      let B := s.buf e.toNat
      let n := (s.x a).toNat + imm.toNat
      let moved := fun (i : Instr) (B' : Buf) => ∃ u, exec i s = .next u ∧ u.pc = s.pc + 8 ∧ u.regs = s.regs ∧ u.mem = s.mem ∧
        u.buf e.toNat = B' ∧ ∀ j, j ≠ e.toNat → u.buf j = s.buf j
      let local_ := fun (stores : Bool) => ∀ o ∈ s.task.fl.outs, o.store = stores → o.sp ≠ .scr ∧ o.sp ≠ .flt
      B.count ≠ 0 →
      (B.count < n → ∀ i ∈ [Instr.qadvC m h a imm, .qadvP m h a imm], exec i s = .next (s.trapped m 8 0 (BitVec.ofNat 64 h.toNat) 2)) ∧
      (n = 0 → ∀ i ∈ [Instr.qadvC m h a imm, .qadvP m h a imm], exec i s = .next (s.went m)) ∧
      (0 < n → n ≤ B.filled → n ≤ B.count → local_ false →
        moved (.qadvC m h a imm) { B with head := (B.head + n) % B.count, filled := B.filled - n }) ∧
      (0 < n → n ≤ B.count - B.filled → local_ true →
        moved (.qadvP m h a imm) { B with tail := (B.tail + n) % B.count, filled := B.filled + n }) ∧
      (0 < n → n ≤ B.filled → n ≤ B.count → ¬local_ false → exec (.qadvC m h a imm) s = .next (s.waits m)) ∧
      (0 < n → n ≤ B.count - B.filled → ¬local_ true → exec (.qadvP m h a imm) s = .next (s.waits m)) ∧
      (B.filled < n → n ≤ B.count → exec (.qadvC m h a imm) s = .next (s.waits m)) ∧
      (B.count - B.filled < n → n ≤ B.count → exec (.qadvP m h a imm) s = .next (s.waits m)) ∧
      (B.count < k.toNat → ∀ i ∈ [Instr.qwaitC m h k, .qwaitP m h k], exec i s = .next (s.trapped m 8 0 (BitVec.ofNat 64 h.toNat) 2)) ∧
      (k.toNat ≤ B.filled → k.toNat ≤ B.count → exec (.qwaitC m h k) s = .next (s.went m)) ∧
      (k.toNat ≤ B.count - B.filled → exec (.qwaitP m h k) s = .next (s.went m)) ∧
      (B.filled < k.toNat → k.toNat ≤ B.count → resultsPending s.task = true → exec (.qwaitC m h k) s = .next (s.waits m)) ∧
      (B.count - B.filled < k.toNat → k.toNat ≤ B.count → resultsPending s.task = true →
        exec (.qwaitP m h k) s = .next (s.waits m)) ∧
      (B.filled < k.toNat → k.toNat ≤ B.count → resultsPending s.task = false →
        ∃ u, exec (.qwaitC m h k) s = .next u ∧ OnlyMine s u ∧ u.pc = s.pc + 8 ∧ u.regs = s.regs ∧
          u.task.run = .sleeping (.qwait true e.toNat k.toNat)) ∧
      (B.count - B.filled < k.toNat → k.toNat ≤ B.count → resultsPending s.task = false →
        ∃ u, exec (.qwaitP m h k) s = .next u ∧ OnlyMine s u ∧ u.pc = s.pc + 8 ∧ u.regs = s.regs ∧
          u.task.run = .sleeping (.qwait false e.toNat k.toNat))
  )

/-- R159, R160: VLDQ reads part p of the slot k places behind HEAD into v[D], VSTQ writes v[A] to part p of the slot k places
behind TAIL, in one step with the advance of the `.ADV` forms; on a scratchpad ring, with enough slots filled or free. -/
def Obligations.BufferSlots : Prop :=
  ∀ (m : Marks) (h : QReg) (d : VReg) (k : BitVec 12) (p : BitVec 8) (e : BitVec 6) (s : State), s.Quiet → s.Clear →
    s.mem.wf = true → s.q h = some e →
    let B := s.buf e.toNat
    let off := fun (first : Nat) => B.base + (first + k.toNat) % B.count * B.slot + 256 * p.toNat
    B.space = 1 → k.toNat < B.count → 256 * (p.toNat + 1) ≤ B.slot → B.base % 64 = 0 → B.slot % 64 = 0 →
    B.base + B.slot * B.count ≤ 0x180000 →
    (k.toNat + 1 ≤ B.filled →
      (∃ u, exec (.vldq m d h k p) s = .next u ∧ u.pc = s.pc + 8 ∧ u.mem = s.mem ∧ u.buf e.toNat = B ∧
        u.v d = BitVec.ofNat 2048 (leNat (s.scr (off B.head) 256)) ∧ (∀ j, j ≠ d → u.v j = s.v j) ∧ ∀ j, u.x j = s.x j) ∧
      (∃ u, exec (.vldqAdv m d h k p) s = .next u ∧ u.pc = s.pc + 8 ∧ u.mem = s.mem ∧
        u.buf e.toNat = { B with head := (B.head + 1) % B.count, filled := B.filled - 1 } ∧
        u.v d = BitVec.ofNat 2048 (leNat (s.scr (off B.head) 256)) ∧ (∀ j, j ≠ d → u.v j = s.v j) ∧ ∀ j, u.x j = s.x j)) ∧
    (k.toNat + 1 ≤ B.count - B.filled → s.task.run = .runnable →
      let written := fun (u : State) => u.pc = s.pc + 8 ∧ u.regs = s.regs ∧ u.scr (off B.tail) 256 = natLe 256 (s.v d).toNat ∧
        ∀ b, b < scrAt s.g (off B.tail) ∨ scrAt s.g (off B.tail) + 256 ≤ b → u.byte b = s.byte b
      (∃ u, exec (.vstq m h d k p) s = .next u ∧ written u ∧ u.buf e.toNat = B) ∧
      (∃ u, exec (.vstqAdv m h d k p) s = .next u ∧ written u ∧
        u.buf e.toNat = { B with tail := (B.tail + 1) % B.count, filled := B.filled + 1 })) ∧
    (B.filled < k.toNat + 1 → ∀ i ∈ [Instr.vldq m d h k p, .vldqAdv m d h k p], exec i s = .next (s.waits m)) ∧
    (B.count - B.filled < k.toNat + 1 → ∀ i ∈ [Instr.vstq m h d k p, .vstqAdv m h d k p], exec i s = .next (s.waits m))

/-- R169, R170: KLD is on its way to its key, and from the own scratchpad fills it; KST enters SQ(t) with the key's 64 bytes,
w0 lowest; KSET writes one word of a key, or two; KINV clears VALID of a key or of a range and nothing else; a key number of
1,024 or more raises KEYINV with DETAIL 0.
R102, R162, R164: a key whose number is 1,024 or more, or whose VALID is clear, raises KEYINV at every engine and stream command
that uses it, as its KA, its KB or its KC, the first of these that is bad, with EVAL its number and DETAIL 0 or 1; in a bundle the
COPY's keys come before the MMA's. -/
def Obligations.Keyring : Prop :=
  (
    ∀ (m : Marks) (ka kb : KIdx) (wd : BitVec 4) (dbl range : Bool) (x : XReg) (sp : Space) (p : Xlate) (s : State), s.Settled → s.t < 16 →
      let inv := fun (k : KIdx) => s.trapped m 6 0 (BitVec.ofNat 64 k.toNat) 0
      let s1 := s.looked sp (s.x x) 64 64 .read
      let s2 := s.looked sp (s.x x) 64 64 .write
      let ld := loadPieces (Work.start s1) s1.ctl.model.nextId sp (s.x x).toNat p 64 (vecStep sp) .none
      let st := storePieces (Work.start s2) s2.ctl.model.nextId sp (s.x x).toNat p (natLe 64 (s2.key ka.toNat).toNat) (vecStep sp)
      let hi := if range then kb.toNat else ka.toNat
      (1024 ≤ ka.toNat → ∀ i ∈ [Instr.kld m ka x sp, .kst m ka x sp, .kset m ka wd dbl x, .kinv m ka kb range], exec i s = .next (inv ka)) ∧
      (ka.toNat < 1024 → s.place sp (s.x x) 64 64 .read = .ok p → s1.task.fl.sq = [] → s1.Unshared →
        mayIssue (Work.start s1) 0 ld = true → s1.ctl.model.defer = true →
        ∃ u, exec (.kld m ka x sp) s = .next u ∧ Issued s1 u (.key ka.toNat) sp (gapFor m sp) false (decide (sp = .flt)) false ld) ∧
      (ka.toNat < 1024 → sp = .scr → s.Quiet → s.Clear → (s.x x).toNat % 64 = 0 → (s.x x).toNat < 0x180000 →
        ∃ u, exec (.kld m ka x sp) s = .next u ∧ u.pc = s.pc + 8 ∧ u.mem = s.mem ∧ (∀ j, u.x j = s.x j) ∧
          u.key ka.toNat = BitVec.ofNat 512 (leNat (s.scr (s.x x).toNat 64)) ∧ ∀ k, k ≠ ka.toNat → u.key k = s.key k) ∧
      (ka.toNat < 1024 → s.place sp (s.x x) 64 64 .write = .ok p → mayIssue (Work.start s2) 1 st = true →
        ∃ u, exec (.kst m ka x sp) s = .next u ∧ Stored s2 u [] 0 st) ∧
      (ka.toNat < 1024 →
        ∃ u, exec (.kset m ka wd dbl x) s = .next u ∧ u.pc = s.pc + 8 ∧ u.regs = s.regs ∧ u.mem = s.mem ∧
          (∀ i < 16, kWord (u.key ka.toNat) i = if i = wd.toNat then (s.x x).toNat % 2 ^ 32
            else if dbl = true ∧ i = wd.toNat + 1 then (s.x x).toNat / 2 ^ 32 else kWord (s.key ka.toNat) i) ∧
          ∀ k, k ≠ ka.toNat → u.key k = s.key k) ∧
      (ka.toNat < 1024 → hi < 1024 →
        ∃ u, exec (.kinv m ka kb range) s = .next u ∧ u.pc = s.pc + 8 ∧ u.regs = s.regs ∧ u.mem = s.mem ∧
          ∀ k, u.key k = if ka.toNat ≤ k ∧ k ≤ hi then s.key k &&& ~~~(1#512 <<< 31) else s.key k)
  ) ∧
  (
    ∀ (m : Marks) (q dep : BitVec 2) (slot : BitVec 4) (z dir nanm clr prom cv : Bool) (rm : Rnd) (rm3 : BitVec 3) (opr : FoldOp)
      (ka kb kc ma mb : KIdx) (x : XReg) (s : State),
      let bad := fun (k : KIdx) => 1024 ≤ k.toNat ∨ kValid (s.key k.toNat) = false
      let inv := fun (k : KIdx) => s.trapped m 6 0 (BitVec.ofNat 64 k.toNat) (if 1024 ≤ k.toNat then 0 else 1)
      let pair := fun (k : KIdx) (mmaWord : Bool) => s.after (fun w => trapC w m
        { code := 6, epc := s.pc, eaddr := 0, eval := BitVec.ofNat 64 k.toNat, detail := if 1024 ≤ k.toNat then 0 else 1
          bundle := mmaWord })
      let three := [Instr.mma m z ka kb kc, .gather m q ka kb kc, .scatter m q ka kb kc]
      let two := three ++ [Instr.mout m rm nanm clr ka kb x, .copy m q prom cv rm3 nanm ka kb x, .packNz m q ka kb x,
        .packThr m q ka kb x, .packTop m q ka kb x, .packSto m q ka kb x, .unpack m q ka kb, .collAllred m slot opr ka kb,
        .collRedscat m slot opr ka kb, .collAllgath m slot opr ka kb, .collBcast m slot opr ka kb x]
      (bad ka → ∀ i ∈ two ++ [Instr.strmSr m dep ka x, .strmSw m dep ka x, .strmMs m dir dep ka x], exec i s = .next (inv ka)) ∧
      (¬bad ka → bad kb → ∀ i ∈ two, exec i s = .next (inv kb)) ∧
      (¬bad ka → ¬bad kb → bad kc → ∀ i ∈ three, exec i s = .next (inv kc)) ∧
      (bad kb → exec (.fill m q kb x) s = .next (inv kb)) ∧ (bad kc → exec (.mzero m kc) s = .next (inv kc)) ∧
      (bad ka → exec (.copyMmaBundle m q prom cv rm3 nanm ka kb x z ma mb kc) s = .next (pair ka false)) ∧
      (¬bad ka → bad kb → exec (.copyMmaBundle m q prom cv rm3 nanm ka kb x z ma mb kc) s = .next (pair kb false)) ∧
      (¬bad ka → ¬bad kb → bad ma → exec (.copyMmaBundle m q prom cv rm3 nanm ka kb x z ma mb kc) s = .next (pair ma true))
  )

/-- R42, R102, R165, R172 to R195: an engine command whose keys pass their checks enters its queue behind the commands there, with
its keys as they stand; a full queue leaves it not ready; a key that fails raises its cause, or waits where the walk that looks at its
place meets a stack or a unit that has to be waited for (R432, R436). PACK.STO steps the task's generator once, and its command's own generator is
seeded from the output; no other of them moves the task's. -/
def Obligations.EngineCommands : Prop :=
  ∀ (m : Marks) (q : BitVec 2) (slot : BitVec 4) (z nanm clr : Bool) (rm : Rnd) (opr : FoldOp) (ka kb kc : KIdx) (x : XReg) (s : State),
    s.Settled →
    let W := Work.start s
    let A := s.key ka.toNat
    let B := s.key kb.toNat
    let C := s.key kc.toNat
    let cq := if q = 0 then Queue.cq0 else if q = 1 then .cq1 else if q = 2 then .cq2 else .cq3
    let n := slot.toNat
    let v := s.x x
    ∀ p ∈ [(Instr.mma m z ka kb kc, keyFault W (mmaUses W ka kb kc) (mmaDesync W ka kb), Queue.mq, CmdOp.mma z, A, B, C, 0),
      (.mzero m kc, keyFault W [{ ix := kc, k := C, role := accRole .write, rel := [] }] none, .mq, .mzero, 0, 0, C, 0),
      (.mout m rm nanm clr ka kb x, keyFault W (moutUses W ka kb) (if desyncs B (kLog B 1) (kLog B 0) then some kb else none), .mq,
        .mout rm nanm clr (v.setWidth 32), A, B, 0, 0),
      (.packNz m q ka kb x, keyFault W (packUses W ka kb) none, cq, .pack 0 v, A, B, 0, 0),
      (.packThr m q ka kb x, keyFault W (packUses W ka kb) none, cq, .pack 1 v, A, B, 0, 0),
      (.packTop m q ka kb x, keyFault W (packUses W ka kb) none, cq, .pack 2 v, A, B, 0, 0),
      (.packSto m q ka kb x, keyFault W (packUses W ka kb) none, cq, .pack 3 v, A, B, 0, 0),
      (.unpack m q ka kb, keyFault W (unpackUses W ka kb) none, cq, .unpack, A, B, 0, 0),
      (.gather m q ka kb kc, keyFault W (gatherUses W ka kb kc) none, cq, .gather, A, B, C, 0),
      (.scatter m q ka kb kc, keyFault W (scatterUses W ka kb kc) none, cq, .scatter, A, B, C, 0),
      (.fill m q kb x, keyFault W [{ ix := kb, k := B, role := memRole .write, rel := [] }] none, cq, .fill v, 0, B, 0, 0),
      (.collAllred m slot opr ka kb, keyFault W (collUses W ka kb) none, .xq, .coll 0 opr 0, A, B, 0, n),
      (.collRedscat m slot opr ka kb, keyFault W (collUses W ka kb) none, .xq, .coll 1 opr 0, A, B, 0, n),
      (.collAllgath m slot opr ka kb, keyFault W (collUses W ka kb) none, .xq, .coll 2 opr 0, A, B, 0, n),
      (.collBcast m slot opr ka kb x, keyFault W (collUses W ka kb) none, .xq, .coll 3 opr v, A, B, 0, n)],
      match p with
      | (i, fault, Q, op, a, b, c, k) =>
        (∀ t, fault = some t → t.code ≠ 0 → exec i s = .next (s.trapped m t.code t.eaddr t.eval t.detail)) ∧
        (∀ t, fault = some t → t.code = 0 → exec i s = .next (s.waits m)) ∧
        (fault = none → qRoom s.ctl s.g Q = false → exec i s = .next (s.waits m)) ∧
        (fault = none → qRoom s.ctl s.g Q = true → ∃ u, exec i s = .next u ∧ u.pc = s.pc + 8 ∧ Entered s u Q op a b c k none ∧
          if i = .packSto m q ka kb x then
            let a := s.regs.rng0 ^^^ (s.regs.rng0 <<< 23)
            let y := s.regs.rng1
            let o := a ^^^ y ^^^ (a >>> 17) ^^^ (y >>> 26)
            u.regs.rng0 = y ∧ u.regs.rng1 = o ∧
              ∃ c ∈ u.queue Q, c.id = s.ctl.model.nextId ∧ c.s0 = o + y ∧ c.s1 = (o + y) ^^^ 0x9E3779B97F4A7C15
          else u.regs = s.regs)

/-- R1, R92, R182 to R184: COPY enters its queue; with a promise, x[X] takes Tprom, the tick by which every byte ahead of it and
its own are written at 16 bytes a tick and 1,024 ticks more; a stochastic conversion moves the task's generator. A bundle
enters COPY and MMA at once, the MMA behind the COPY, and control passes both words. Which bytes of a destination count in Tprom, and
that the generator moves by the destination's elements at the entry, are the model's choice, log entries 59 and 68. -/
def Obligations.CopyCommands : Prop :=
  ∀ (m : Marks) (q : BitVec 2) (prom cv z : Bool) (rm : BitVec 3) (nanm : Bool) (ka kb ma mb mc : KIdx) (x : XReg) (s : State),
    s.Settled →
    let W := Work.start s
    let B := s.key kb.toNat
    let tprom := (s.ctl.tick + 1024 + (bytesAhead (s.queue (cqOf q)) + keyBytesOf B + 15) / 16) % 2 ^ 64
    let pr := if prom then some tprom else none
    let copied := fun (u : State) => Entered s u (cqOf q) (.copy cv rm nanm) (s.key ka.toNat) B 0 0 pr
    (keyFault W (copyUses W cv ka kb) none = none → qRoom s.ctl s.g (cqOf q) = true →
      ∃ u, exec (.copy m q prom cv rm nanm ka kb x) s = .next u ∧ u.pc = s.pc + 8 ∧ copied u ∧
        (prom = true → x ≠ 0 → u.x x = BitVec.ofNat 64 tprom) ∧ (∀ j, j ≠ x → u.x j = s.x j) ∧
        (u.regs.rng0, u.regs.rng1) = if cv = true ∧ rm = 4 then rngAdvance ((kCount B + 3) / 4) s.regs.rng0 s.regs.rng1
          else (s.regs.rng0, s.regs.rng1)) ∧
    (keyFault W (copyUses W cv ka kb) none = none → qRoom s.ctl s.g (cqOf q) = false →
      exec (.copy m q prom cv rm nanm ka kb x) s = .next (s.waits m)) ∧
    (bundleFault W (copyUses W cv ka kb) (mmaUses W ma mb mc) none (mmaDesync W ma mb) = none →
      qRoom s.ctl s.g (cqOf q) = true → qRoom s.ctl s.g .mq = true →
      ∃ u c d, exec (.copyMmaBundle m q prom cv rm nanm ka kb x z ma mb mc) s = .next u ∧ u.pc = s.pc + 16 ∧ u.mem = s.mem ∧
        u.queue (cqOf q) = s.queue (cqOf q) ++ [c] ∧ u.queue .mq = s.queue .mq ++ [d] ∧
        c.op = .copy cv rm nanm ∧ c.ka = s.key ka.toNat ∧ c.kb = B ∧ d.op = .mma z ∧ d.ka = s.key ma.toNat ∧
        d.kb = s.key mb.toNat ∧ d.kc = s.key mc.toNat ∧ d.after = some c.id ∧ c.id ≠ d.id ∧
        (prom = true → x ≠ 0 → u.x x = BitVec.ofNat 64 tprom))

/-- R193, R197: COLLGRP.FORM and REFORM take a 64-byte descriptor of the own scratchpad: MISALIGN (DETAIL 2) and BOUND
otherwise; RELEASE takes none. Each enters XQ for its slot.
R172, R178: MWAIT, CPWAIT and COLLWAIT cover the task's unreported commands of MQ, of the named copy queues (none named:
all four), of XQ (one slot or all). Where all are done, x[X] takes the OR of their flags below the COUNT of the last, and they
are reported; else the task sleeps on them, once every earlier result is written (R85). MPROG reads the engine's progress. -/
def Obligations.CollectiveCommandsAndWaits : Prop :=
  (
    ∀ (m : Marks) (slot : BitVec 4) (x : XReg) (s : State), s.Settled →
      let v := s.x x
      (∀ i ∈ [Instr.collgrpForm m slot x, .collgrpReform m slot x],
        (v.toNat % 64 ≠ 0 → exec i s = .next (s.trapped m 3 v 64 2)) ∧
        (v.toNat % 64 = 0 → 0x180000 ≤ v.toNat → exec i s = .next (s.trapped m 4 v 1 0))) ∧
      (∀ p ∈ [(Instr.collgrpForm m slot x, CmdOp.form v.toNat, true), (.collgrpReform m slot x, .reform v.toNat, true),
          (.collgrpRelease m slot, .release, false)],
        (p.2.2 = true → v.toNat % 64 = 0 ∧ v.toNat < 0x180000) →
        (qRoom s.ctl s.g .xq = false → exec p.1 s = .next (s.waits m)) ∧
        (qRoom s.ctl s.g .xq = true → ∃ u, exec p.1 s = .next u ∧ u.pc = s.pc + 8 ∧ Entered s u .xq p.2.1 0 0 0 slot.toNat none))
  ) ∧
  (
    ∀ (m : Marks) (x : XReg) (mask : BitVec 4) (slot : BitVec 4) (one : Bool) (s : State),
      let cq : Queue → Option Nat := fun q => match q with
        | .cq0 => some 0
        | .cq1 => some 1
        | .cq2 => some 2
        | .cq3 => some 3
        | _ => none
      let copies := fun (r : Rec) => match cq r.q with
        | some k => decide (mask = 0) || mask.getLsbD k
        | none => false
      let waits := fun (i : Instr) (p : Rec → Bool) (mk : List Nat → Nat → Sleep) =>
        let rs := s.task.fl.recs.filter p
        let flags := rs.foldl (fun a r => a ||| r.flags) 0
        let count := ((rs.getLast?.map (·.count)).getD 0) % 2 ^ 32
        ((∀ r ∈ rs, r.done = true) → ∃ u, exec i s = .next u ∧ OnlyMine s u ∧ u.pc = s.pc + 8 ∧
          (x ≠ 0 → u.x x = BitVec.ofNat 64 (count * 2 ^ 32 + flags)) ∧ (∀ j, j ≠ x → u.x j = s.x j) ∧
          ∀ r ∈ u.task.fl.recs, r.id ∉ rs.map (·.id)) ∧
        ((∃ r ∈ rs, r.done = false) → resultsPending s.task = true → exec i s = .next (s.waits m)) ∧
        ((∃ r ∈ rs, r.done = false) → resultsPending s.task = false → ∃ u, exec i s = .next u ∧ OnlyMine s u ∧ u.pc = s.pc + 8 ∧ u.regs = s.regs ∧
          u.task.fl.recs = s.task.fl.recs ∧ u.task.run = .sleeping (mk (rs.map (·.id)) x.toNat))
      waits (.mwait m x) (fun r => decide (r.q = .mq)) .mwait ∧
      waits (.cpwait m x mask) copies .cpwait ∧
      waits (.collwait m x slot one) (fun r => decide (r.q = .xq) && (!one || decide (r.slot = slot.toNat))) .collwait ∧
      exec (.mprog m x) s = .next (s.wroteX m x (BitVec.ofNat 64 ((if s.here.ctx.eng.prog.busy then 2 ^ 63 else 0) +
        ((s.queue .mq).filter (fun c => decide (c.op ≠ .fence))).length * 2 ^ 48 + s.here.ctx.eng.prog.kgroup % 2 ^ 32)))
  )

/-- R219, R231 to R233, R236, R237, R252: CFGW applies one command to one field of one element, empties the arcs it
concerns, and validates the plane: a refused command or a plane that fails is ERROR with the lowest reason, which x[D]
reports; otherwise x[D] takes 0. R238: a plane that passes takes its arc numbers anew, one that fails keeps them. R253: DONE comes with the
KIND write that leaves only finished sinks.
R219, R232: CFGS checks its count (QCFG, DETAIL 4), the alignment of its span (MISALIGN, DETAIL 2) and its bounds and
permissions; it waits while the port is busy, a store of the task is in flight or a guard holds back the task's loads (R290), and
where a walk has to (R432, R436); otherwise the port takes the span and the task waits for its last command. The port applies its
commands one at a time, and none while its glade is stopped; that a command's word is read at its home in one step is the model's
choice, log entry 11. -/
def Obligations.PlaneConfiguration : Prop :=
  (
    ∀ (m : Marks) (d a : XReg) (s : State), s.Settled →
      let cmd := (s.x a).toNat % 2 ^ 32
      let p := cmd / 2 ^ 30
      let e := cmd / 2 ^ 22 % 256
      let f := cmd / 2 ^ 16 % 64
      let v := cmd % 2 ^ 16
      let X := s.element p e
      let refused : Option Nat := if 14 ≤ f then some 1
        else if (f = 0 ∧ 16 < v) ∨ (1 ≤ f ∧ f ≤ 9 ∧ v / 2 ^ 12 % 8 ≠ 0) ∨ (f = 10 ∧ (256 ≤ v ∨ (X.kind ≠ 0 ∧ opOk X.kind v = false))) ∨
          (f = 13 ∧ X.kind ≠ 0 ∧ cfgOk X.kind v = false) then some 2
        else none
      let X' := if f = 0 then { X with kind := v, mode := 0, n := 0, i := 0, fifo := [] }
        else if f ≤ 9 then { X with ins := X.ins.setIfInBounds (f - 1) (BitVec.ofNat 16 v) }
        else if f = 10 then { X with op := v } else if f = 11 then { X with klo := v }
        else if f = 12 then { X with khi := v } else { X with cfg := v }
      (s.here.ctx.net.port ≠ none → exec (.cfgw m d a) s = .next (s.waits m)) ∧
      (s.here.ctx.net.port = none → ∃ u, exec (.cfgw m d a) s = .next u ∧ u.pc = s.pc + 8 ∧ u.mem = s.mem ∧
        (∀ j, j ≠ d → u.x j = s.x j) ∧ (∀ j, u.v j = s.v j) ∧ (∀ r, r ≠ p → u.plane r = s.plane r) ∧
        (∀ k, k ≠ e → u.element p k = s.element p k) ∧ u.element p e = (if refused = none then X' else X) ∧
        (∀ k j, j < 9 → arcOf (u.plane p) k j =
          if refused = none ∧ k = e ∧ (f = 0 ∨ (f = j + 1 ∧ inOf X j ≠ v)) then Arc.empty else arcOf (s.plane p) k j) ∧
        let fault := if refused = none then planeFault u.ctl s.g p none else refused
        let old := (s.plane p).st
        (u.plane p).err = fault.getD 0 ∧
        ((u.plane p).done = true ↔ (s.plane p).done = true ∨ (refused = none ∧ f = 0 ∧ sinksDone (u.plane p) = true)) ∧
        (u.plane p).nums = (if fault = none then arcKeys (u.plane p) else (s.plane p).nums) ∧
        (u.plane p).st = (if fault ≠ none then .error else if liveElems (u.plane p) = [] then .empty
          else if old = .empty ∨ old = .error then .halted else old) ∧
        (d ≠ 0 → u.x d = match fault with
          | some r => BitVec.ofNat 64 (2 ^ 63 + r)
          | none => 0))
  ) ∧
  (
    ∀ (m : Marks) (d a b : XReg) (sp : Space) (g : Nat) (s : State), s.Settled →
      let ea := (s.x a).toNat
      let n := (s.x b).toNat
      let i := Instr.cfgs m d a b sp
      let fault := spanFault (Work.start s) sp ea (4 * n) .read
      let busy := s.here.ctx.net.port ≠ none ∨ (∃ o ∈ s.task.fl.outs, o.store = true) ∨ guardsOpen s.task 0 = false
      (n = 0 ∨ 65536 < n → exec i s = .next (s.trapped m 8 0 (BitVec.allOnes 64) 4)) ∧
      (0 < n → n ≤ 65536 → ea % 4 ≠ 0 → exec i s = .next (s.trapped m 3 (s.x a) 4 2)) ∧
      (0 < n → n ≤ 65536 → ea % 4 = 0 → ∀ t, fault = some t →
        exec i s = .next (if t.code = 0 then s.waits m else s.trapped m t.code t.eaddr t.eval t.detail)) ∧
      (0 < n → n ≤ 65536 → ea % 4 = 0 → fault = none → busy → exec i s = .next (s.waits m)) ∧
      (0 < n → n ≤ 65536 → ea % 4 = 0 → fault = none → ¬busy →
        ∃ u, exec i s = .next u ∧ u.pc = s.pc + 8 ∧ u.regs = s.regs ∧ u.mem = s.mem ∧ u.task.wait = some (.cfgs d.toNat) ∧
          (∀ r, u.plane r = s.plane r) ∧
          u.here.ctx.net.port =
            some { t := s.t, sp := sp, ea := ea, count := n, idx := 0, failed := [], named := [], stop := none }) ∧
      ((s.gladeAt g).halted = true ∨ (s.gladeAt g).ctx.net.port = none → exec (.configCommandApply g) s = .next s) ∧
      (∀ pt v, (s.gladeAt g).halted = false → (s.gladeAt g).ctx.net.port = some pt → pt.sp = .scr → pt.idx + 1 < pt.count →
        s.ctl.marks.poison = [] → s.ctl.marks.latent = [] → s.ctl.marks.soft = [] → pt.failed = [] → (s.gladeAt g).banks = [] →
        v = leNat ((List.range 4).map (fun k => s.byte (scrAt g (pt.ea + 4 * pt.idx + k)))) → v / 2 ^ 16 % 64 = 11 → g < 2 ^ 33 →
        pt.ea + 4 * pt.idx + 4 ≤ 0x180000 →
        ∃ u, exec (.configCommandApply g) s = .next u ∧ u.mem = s.mem ∧
          elemOf (planeOf u.ctl g (v / 2 ^ 30)) (v / 2 ^ 22 % 256) =
            { elemOf (planeOf s.ctl g (v / 2 ^ 30)) (v / 2 ^ 22 % 256) with klo := v % 2 ^ 16 } ∧
          (u.gladeAt g).ctx.net.port = some { pt with idx := pt.idx + 1, named := (pt.named.filter (fun k => k.1 != v / 2 ^ 30)) ++ [(v / 2 ^ 30, pt.idx)] })
  )

/-- R220, R252, R253, R255: PLANE.RUN makes a HALTED plane ELIGIBLE, PLANE.HALT an ELIGIBLE one HALTED, its pass-over count
0, and neither changes a plane
in another state; PLANE.STAT reads the status word; PLANE.CLR clears the sticky bits and the finished marks; PLANE.FREE
empties the plane and ends its begun streams.
R102, R221: STRM.SR, STRM.SW and STRM.MS enter their queue with their key as it stands, for the plane and element of x[X];
a key that fails raises its cause (or waits with its walk, R432, R436), an x[X] of 1,024 or more QCFG with DETAIL 4, and a full queue
leaves them not ready. -/
def Obligations.PlaneControlAndStreams : Prop :=
  (
    ∀ (m : Marks) (d : XReg) (p : BitVec 2) (s : State),
      let n := p.toNat
      let P := s.plane n
      let b := fun (x : Bool) (k : Nat) => if x = true then k else 0
      let filled := match (liveElems P).filter (fun q => decide (q.2.kind = 16)) with
        | [] => 0
        | q :: _ => (s.buf (q.2.cfg % 64)).filled
      let cut := ∃ q ∈ [Queue.sr, .sw, .ms], ∃ c ∈ s.queue q, ofPlane n c = true ∧ c.begun = true ∧ c.fin = false
      let becomes := fun (i : Instr) (P' : Plane) (u : State) => exec i s = .next u ∧ u.pc = s.pc + 8 ∧ u.regs = s.regs ∧
        u.mem = s.mem ∧ u.sys = s.sys ∧ (∀ r, r ≠ n → u.plane r = s.plane r) ∧ u.plane n = P'
      (∃ u, becomes (.planeRun m p) (if P.st = .halted then { P with st := .eligible } else P) u) ∧
      (∃ u, becomes (.planeHalt m p) (if P.st = .eligible then { P with st := .halted, passed := 0 } else P) u ∧
        (P.st = .eligible → u.here.ctx.net.active ≠ some n)) ∧
      exec (.planeStat m d p) s = .next (s.wroteX m d (BitVec.ofNat 64
        (b (decide (P.st = .error)) (2 ^ 63) + P.err % 16 * 2 ^ 48 + arcCount P % 1024 * 2 ^ 32 + filled % 8192 * 2 ^ 16 +
          b (decide (s.here.ctx.net.active = some n)) 4096 +
          (match P.st with
            | .empty => 0
            | .halted => 256
            | .eligible => 512
            | .error => 768) +
          b P.exp 64 + b P.arberr 32 + b P.strmerr 16 + b P.kinderr 4 + b P.eosmis 2 + b P.done 1))) ∧
      (∃ u, becomes (.planeClr m p)
        { P with exp := false, arberr := false, strmerr := false, kinderr := false, eosmis := false, done := false
                 elems := P.elems.map (fun q => (q.1, { q.2 with fin := false })) } u) ∧
      (∃ u P', becomes (.planeFree m p) P' u ∧ P'.elems = [] ∧ P'.arcs = [] ∧ P'.nums = [] ∧ P'.st = .empty ∧
        (P'.strmerr = true ↔ P.strmerr = true ∨ cut) ∧ u.here.ctx.net.active ≠ some n ∧
        ∀ q ∈ [Queue.sr, .sw, .ms], ∀ c ∈ u.queue q, ofPlane n c = true → c.begun = true → c.fin = true)
  ) ∧
  (
    ∀ (m : Marks) (dep : BitVec 2) (ka : KIdx) (x : XReg) (s : State), s.Settled →
      let W := Work.start s
      let v := (s.x x).toNat
      ∀ p ∈ [(Instr.strmSr m dep ka x, Queue.sr, 0, false), (.strmSw m dep ka x, .sw, 1, true),
          (.strmMs m false dep ka x, .ms, 2, false), (.strmMs m true dep ka x, .ms, 2, true)],
        match p with
        | (i, q, cls, toMem) =>
          let need := if toMem = true then Need.write else .read
          let uses := (streamUses W cls ka).map (fun u => { u with role := { u.role with need := need } })
          (∀ t, v < 1024 → keyFault W uses none = some t →
            exec i s = .next (if t.code = 0 then s.waits m else s.trapped m t.code t.eaddr t.eval t.detail)) ∧
          (1024 ≤ v → keyFault W uses none = none → exec i s = .next (s.trapped m 8 0 (BitVec.allOnes 64) 4)) ∧
          (v < 1024 → keyFault W uses none = none → qRoom s.ctl s.g q = false → exec i s = .next (s.waits m)) ∧
          (v < 1024 → keyFault W uses none = none → qRoom s.ctl s.g q = true →
            ∃ u, exec i s = .next u ∧ u.pc = s.pc + 8 ∧
              Entered s u q (.stream cls toMem dep.toNat (v / 256) (v % 256)) (s.key ka.toNat) 0 0 0 none)
  )

/-- R223, R331, R402: SENDVC to a channel the task may not send on, and a receive from one it is not the receiver of, raise
VCFAULT (DETAIL 0 and 1); SENDVC waits for its earlier accesses at the joining scope, then puts its word on its way to the
receiver of the binding, or notes that its port waits where there is no room, which a port that waits for anything else does not
(R70); a full event ring of the guard it would meet holds it (R383, R404); RECVVC takes the word at the head, or waits; RECVVC.NB without one writes bit 63 alone; WAITVC
answers the lowest channel of its mask that holds a word, all ones for an empty mask, and else sleeps once every earlier
result is written (R85). -/
def Obligations.Channels : Prop :=
  ∀ (m : Marks) (d a : XReg) (vc : BitVec 5) (kind : BitVec 3) (mask : BitVec 32) (s : State), s.Settled →
    let W := Work.start s
    let n := vc.toNat
    let bind := bindOf s.ctl s.g n
    let sends := ∃ b, bind = some b ∧ b.1.testBit (32 + s.t) = true
    let gets := fun (k : Nat) => ∃ b, bindOf s.ctl s.g k = some b ∧ b.1.testBit 16 = false ∧ b.1 / 2 ^ 20 % 16 = s.t
    let fault := fun (detail : Nat) => s.trapped m 0xC 0 (BitVec.ofNat 64 n) detail
    let tok : Token := { k := kind, d := if kind = 0 then (s.x a).setWidth 32 else 0 }
    let word := fun (t : Token) => BitVec.ofNat 64 (t.k.toNat * 2 ^ 32 + t.d.toNat)
    let heads := fun (k : Nat) => (s.inbound k).hold = false ∧ (s.inbound k).toks ≠ []
    let taken := fun (i : Instr) (t : Token) => ∃ u, exec i s = .next u ∧ u.pc = s.pc + 8 ∧ u.mem = s.mem ∧
      (d ≠ 0 → u.x d = word t) ∧ (∀ j, j ≠ d → u.x j = s.x j) ∧ (u.inbound n).toks = (s.inbound n).toks.tail ∧
      ∀ k, k ≠ n → u.inbound k = s.inbound k
    (¬sends → exec (.sendvc m vc kind a) s = .next (fault 0)) ∧
    (sends → s.task.fl.outs = [] → s.task.fl.sq = [] → ∀ o r t, s.here.owner = some o → destOf s.ctl s.g n = some (r, t) →
      sendWay W s.g n = .direct → gladeGuard s.ctl s.g o.part r = true →
      ∃ u, exec (.sendvc m vc kind a) s = .next u ∧ u.pc = s.pc + 8 ∧ u.regs = s.regs ∧ u.mem = s.mem ∧
        u.ctl.net = { s.ctl.net with fly := s.ctl.net.fly ++ [
          { src := s.g, svc := n, dst := r, dvc := t, tok := tok, part := o.part, launch := o.launch, lg := o.lglade
            slot := some s.t, hop := flyStart s.ctl s.g r, redir := (vxOf s.ctl o.part o.launch n).testBit 63 }] }) ∧
    (sends → (∃ i ∈ s.task.fl.outs.map (·.id),
        performedAt s.task (joinLevel s.g (((destOf s.ctl s.g n).map (·.1)).getD s.g)) i = false) →
      exec (.sendvc m vc kind a) s = .next (s.after (fun w => notReady m (portSends w s.g n s.t)))) ∧
    (sends → s.task.fl.outs = [] → sendWay W s.g n = .held →
      exec (.sendvc m vc kind a) s = .next (s.after (fun w => notReady m (portSends w s.g n s.t)))) ∧
    (sends → s.task.fl.outs = [] → sendWay W s.g n = .wait →
      exec (.sendvc m vc kind a) s = .next (s.after (fun w => notReady m (portWaits w s.g n s.t)))) ∧
    (¬gets n → ∀ i ∈ [Instr.recvvc m d vc, .recvvcNb m d vc], exec i s = .next (fault 1)) ∧
    (gets n → ∀ t r, (s.inbound n).hold = false → (s.inbound n).toks = t :: r →
      taken (.recvvc m d vc) t ∧ taken (.recvvcNb m d vc) t) ∧
    (gets n → ¬heads n → exec (.recvvc m d vc) s = .next (s.waits m) ∧
      exec (.recvvcNb m d vc) s = .next (s.wroteX m d (BitVec.ofNat 64 (2 ^ 63)))) ∧
    (mask = 0 → exec (.waitvc m d mask) s = .next (s.wroteX m d (BitVec.allOnes 64))) ∧
    (∀ k < 32, mask.getLsbD k = true → ¬gets k → (∀ j < k, mask.getLsbD j = true → gets j) →
      exec (.waitvc m d mask) s = .next (s.trapped m 0xC 0 (BitVec.ofNat 64 k) 1)) ∧
    (mask ≠ 0 → (∀ k < 32, mask.getLsbD k = true → gets k) →
      (∀ k < 32, mask.getLsbD k = true → heads k → (∀ j < k, mask.getLsbD j = true → ¬heads j) →
        exec (.waitvc m d mask) s = .next (s.wroteX m d (BitVec.ofNat 64 k))) ∧
      ((∀ k < 32, mask.getLsbD k = true → ¬heads k) → resultsPending s.task = true →
        exec (.waitvc m d mask) s = .next (s.waits m)) ∧
      ((∀ k < 32, mask.getLsbD k = true → ¬heads k) → resultsPending s.task = false →
        ∃ u, exec (.waitvc m d mask) s = .next u ∧ OnlyMine s u ∧ u.pc = s.pc + 8 ∧ u.regs = s.regs ∧
          u.task.run = .sleeping (.waitvc mask (some d.toNat))))

/-- R69, R70, R327, R328 (a record read in one step at its home and a wait of 1,024 ticks without a break: the model's choice, log
entries 11 and 62): the oldest word at the door of a channel that can be delivered, and is the oldest of its binding,
enters the buffer of 16 words when there is room, and none does otherwise; a binding whose port has been held back for 1,024
ticks spills if it has a region; the record at the head of a region comes back, in order, once every word sent before it has
arrived, and one that is lost ends the launch with a record of kind 5. -/
def Obligations.ChannelTransport : Prop :=
  ∀ (g v : Nat) (s : State),
    let full := 16 ≤ (vcBuf s.ctl g v).toks.length
    let S := spillOf s.ctl g v
    let door := fun (f : Fly) => f.dst = g ∧ f.dvc = v ∧ f.hop = none
    ((∀ f ∈ s.ctl.net.fly, ¬door f) → exec (.vcWordArrive g v) s = .next s) ∧
    ((s.gladeAt g).owner ≠ none → full → exec (.vcWordArrive g v) s = .next s) ∧
    (∀ before f after, s.ctl.net.fly = before ++ f :: after →
      (∀ x ∈ before, (¬door x ∨ canDeliver s.ctl x = false) ∧ sameBinding f x = false) → door f →
      switchedOut s.ctl f = false → (s.gladeAt g).owner ≠ none → ¬full → admits s.ctl g = true →
      ∃ u, exec (.vcWordArrive g v) s = .next u ∧ u.mem = s.mem ∧ u.ctl.net = { s.ctl.net with fly := before ++ after } ∧
        vcBuf u.ctl g v = { vcBuf s.ctl g v with toks := (vcBuf s.ctl g v).toks ++ [f.tok] }) ∧
    (∃ u, exec (.vcPersistentBackpressure g v) s = .next u ∧ u.mem = s.mem ∧
      spillOf u.ctl g v = if backPressed s.ctl g v = true ∧ 0 < spillRecs s.ctl g v ∧
          (∃ x ∈ S.waits, 1024 ≤ (s.ctl.tick + 2 ^ 64 - x.2 % 2 ^ 64) % 2 ^ 64) then { S with on := true } else S) ∧
    (S.count = 0 ∨ 0 < flyCount s.ctl g v → exec (.spillRecordReinject g v) s = .next s) ∧
    (0 < S.count → flyCount s.ctl g v = 0 → ∀ o y x, (s.gladeAt g).owner = some o → spillWord s.ctl g v o = some y →
      spillPlace (Work.start s) g v S.head = some x → canDeliver s.ctl y = true → (s.gladeAt y.dst).owner ≠ none →
      s.ctl.marks.poison = [] → s.ctl.marks.latent = [] → s.ctl.marks.soft = [] →
      let seen := homeVerdict s.ctl (devReq (Work.start s) g 0 x (.read 8))
      (seen = some .perform →
        ∃ u, exec (.spillRecordReinject g v) s = .next u ∧ u.mem = s.mem ∧
          (vcBuf u.ctl y.dst y.dvc).toks =
            (vcBuf s.ctl y.dst y.dvc).toks ++ [tokOf (leNat (readBytes (Work.start s) x.key x.addr 8))] ∧
          (spillOf u.ctl g v).head = (S.head + 1) % spillRecs s.ctl g v ∧ (spillOf u.ctl g v).count = S.count - 1) ∧
      (seen = some .lost →
        ∃ u, exec (.spillRecordReinject g v) s = .next u ∧ u.mem = s.mem ∧ spillOf u.ctl g v = S ∧
          ∃ e ∈ u.ctl.net.events, e.ring = some o.part ∧ e.d0 = evHead o.launch 0xFF 0 0xB 5))

/-- R101, R103: a cause enters the handler at TVEC with EPC, ECAUSE, EADDR, EVAL and ESTAT written and INH set, and the
registers as they were; without a handler (TVEC 0, or INH set) a fatal cause retires the task with a record of kind 1, and a
recoverable one leaves it held with a record of kind 2. R85, R381: while a result is still to be written, or the task is held,
the cause waits; one that comes after its instruction waits for that instruction's stores to the glade's own stores (R102). That
MEMRANGE leaves a record of kind 6 for the monitor with INH set too is the model's choice, log entry 85. -/
def Obligations.TrapEntry : Prop :=
  ∀ (m : Marks) (code : Nat) (eaddr eval : Word) (detail g t : Nat) (s : State),
    let S := s.sys
    let u := s.trapped m code eaddr eval detail
    let open_ := S.tvec ≠ 0 ∧ S.inh = false
    let flags := fun (A : Sys) (k : Nat) => (if k = 1 then 2 ^ 16 else 0) + A.priv * 256 + (if A.inh = true then 128 else 0) +
      (if A.clamp = true then 4 else 0) + (if A.sat = true then 2 else 0) + (if A.fe = true then 1 else 0)
    let isFatal := code ∈ [1, 2, 3, 4, 5, 6, 7, 8, 9, 0xB, 0xC, 0x11, 0x14]
    let record := fun (ring : Option Nat) (kind : Nat) (pc : Word) => ∃ e ∈ u.ctl.net.events, e.ring = ring ∧
      e.tick = s.ctl.tick ∧ e.d0.toNat % 256 = kind ∧ e.d0.toNat / 256 % 256 = code % 256 ∧
      e.d0.toNat / 2 ^ 32 = S.launch % 2 ^ 32 ∧ e.d1 = pc ∧ e.d2 = eaddr ∧ e.d3 = eval
    let ring := if S.priv = 0 then some S.part else none
    ((∀ o ∈ s.task.fl.outs, o.store = true) → s.task.held = none → code ≠ 0x11 → (s.task.dbg.attach = false ∨ code ∉ [0xE, 0xF, 0x10]) →
      (open_ → u.pc = S.tvec ∧ u.regs = s.regs ∧ u.mem = s.mem ∧ u.sys = { S with
        epc := s.pc, trapEpc := s.pc, ecause := BitVec.ofNat 64 code, eaddr := eaddr, eval := eval, inh := true
        estat := BitVec.ofNat 64 (detail * 2 ^ 18 + flags S (if isFatal then 1 else 0)) }) ∧
      (¬open_ → isFatal → u.task.run = .retired ∧ record ring 1 s.pc) ∧
      (¬open_ → ¬isFatal → u.pc = s.pc ∧ u.regs = s.regs ∧ u.sys = S ∧ u.mem = s.mem ∧ record ring 2 s.pc ∧
        u.task.held = some ⟨⟨code, s.pc, eaddr, eval, detail, false, s.ctl.model.nextId⟩, true, false⟩)) ∧
    ((∀ o ∈ s.task.fl.outs, o.store = true) → s.task.held = none → code = 0x11 → u.task.run = .retired ∧ record none 6 0) ∧
    ((∃ o ∈ s.task.fl.outs, o.store = false) ∨ s.task.held ≠ none → OnlyMine s u ∧ u.pc = s.pc ∧ u.regs = s.regs ∧ u.sys = S ∧
      u.task.pend = some ⟨code, s.pc, eaddr, eval, detail, false, s.ctl.model.nextId⟩) ∧
    -- the event that takes a cause which waited for earlier results
    (let T := s.taskAt g t
     let i := Instr.trapEntry g t
     let after := fun (c : Cause) => c.code ∈ [0xD, 0xF, 0x10]
     let stores := ∃ o ∈ T.fl.outs, o.store = true ∧ (o.sp = .scr ∨ o.sp = .flt)
     (T.pend = none ∨ (∃ o ∈ T.fl.outs, o.store = false) ∨ T.run ≠ .runnable ∨ T.wait ≠ none ∨ T.held ≠ none ∨
       (stores ∧ ∃ c, T.pend = some c ∧ after c) → exec i s = .next s) ∧
     (∀ c, T.pend = some c → (∀ o ∈ T.fl.outs, o.store = true) → T.run = .runnable → T.wait = none → T.held = none →
       (after c → ¬stores) → c.code ≠ 0x11 →
       (T.dbg.attach = false ∨ c.code ∉ [0xE, 0xF, 0x10]) → T.sys.tvec ≠ 0 → T.sys.inh = false →
       let epc := if after c then T.pc else c.epc
       ∃ u, exec i s = .next u ∧ u.mem = s.mem ∧ (u.taskAt g t).pc = T.sys.tvec ∧ (u.taskAt g t).regs = T.regs ∧
         (u.taskAt g t).pend = none ∧ (u.taskAt g t).sys = { T.sys with
           epc := epc, trapEpc := epc, ecause := BitVec.ofNat 64 c.code, eaddr := c.eaddr, eval := c.eval, inh := true
           estat := BitVec.ofNat 64 (c.detail * 2 ^ 18 + (if c.bundle = true then 2 ^ 17 else 0) +
             flags T.sys (if c.code ∈ [1, 2, 3, 4, 5, 6, 7, 8, 9, 0xB, 0xC, 0x11, 0x14] then 1 else 0)) }))

/-- R103, R224: TRAP and BKPT trap after their commit, EPC the next address; RTE outside a handler raises ILLEGAL with DETAIL 7,
waits for earlier results, and in a handler clears INH and goes to EPC, or retires the task where ESTAT.FATAL is set. -/
def Obligations.TrapInstructions : Prop :=
  ∀ (m : Marks) (imm : BitVec 28) (s : State),
    let S := s.sys
    let quiet := ∀ o ∈ s.task.fl.outs, o.store = true
    (quiet → s.task.held = none → S.tvec ≠ 0 → S.inh = false → ∀ p ∈ [(Instr.trap m imm, 0xD, (0 : Word)), (.bkpt m imm, 0xE, s.pc)],
      (p.2.1 = 0xE → s.task.dbg.attach = false) →
      ∃ u, exec p.1 s = .next u ∧ u.pc = S.tvec ∧ u.regs = s.regs ∧ u.mem = s.mem ∧ u.sys.epc = s.pc + 8 ∧
        u.sys.ecause = BitVec.ofNat 64 p.2.1 ∧ u.sys.eaddr = p.2.2 ∧ u.sys.eval = imm.setWidth 64 ∧ u.sys.inh = true ∧
        u.sys.priv = S.priv ∧ u.sys.estat = BitVec.ofNat 64 (S.priv * 256 + (if S.clamp = true then 4 else 0) +
          (if S.sat = true then 2 else 0) + (if S.fe = true then 1 else 0))) ∧
    (S.inh = false → exec (.rte m) s = .next (s.trapped m 1 0 (wordOf (.rte m)) 7)) ∧
    (S.inh = true → ¬quiet → exec (.rte m) s = .next (s.waits m)) ∧
    (S.inh = true → quiet → S.estat.getLsbD 16 = false → ∃ u, exec (.rte m) s = .next u ∧ OnlyMine s u ∧ u.pc = S.epc ∧
      u.regs = s.regs ∧ u.sys = { S with inh := false }) ∧
    (S.inh = true → quiet → S.estat.getLsbD 16 = true → ∃ u, exec (.rte m) s = .next u ∧ u.task.run = .retired)

/-- R94 to R100, R225: SPRR below the privilege of its register raises PRIV with DETAIL 1, SPRW with DETAIL 2; STATUS waits for
the loads that can set FE, BARCNT for the barrier operations in flight (R84). DBGRSEL reads 0 and keeps its value without a valid
selection (R389). SPRR reads the task's, the partition's and the package's registers; SPRW of STATUS sets FE and
clears SAT and CLAMP where a 1 is written, of EPC and TVEC keeps bits 63 to 3, and of a read-only register does nothing. -/
def Obligations.SpecialRegisters : Prop :=
  ∀ (m : Marks) (d a : XReg) (spr : BitVec 12) (s : State), s.Settled →
    let n := spr.toNat
    let S := s.sys
    let P := s.part (if S.priv = 2 then s.ctl.psel else S.part)
    let v := s.x a
    let b := fun (x : Bool) (k : Nat) => if x = true then k else 0
    let quiet := ∀ o ∈ s.task.fl.outs, o.fe = false
    (S.priv = 0 ∧ 0x140 ≤ n ∨ S.priv < 2 ∧ (0x280 ≤ n ∨ 0x188 ≤ n ∧ n ≤ 0x18C) →
      exec (.sprr m d spr) s = .next (s.trapped m 2 0 (wordOf (.sprr m d spr)) 1)) ∧
    (S.priv = 0 → 0x100 ≤ n → exec (.sprw m spr a) s = .next (s.trapped m 2 0 (wordOf (.sprw m spr a)) 2)) ∧
    (S.priv < 2 → (0x200 ≤ n ∨ n ∈ [0x108, 0x109, 0x10A, 0x10B, 0x188, 0x189, 0x18A, 0x18B, 0x18C, 0x190, 0x191, 0x192, 0x1C0,
        0x1C1, 0x1C5, 0x1E1, 0x1F0, 0x1F1, 0x1F3, 0x1F4, 0x1F5, 0x1F6, 0x1F7]) →
      exec (.sprw m spr a) s = .next (s.trapped m 2 0 (wordOf (.sprw m spr a)) 2)) ∧
    (¬quiet → exec (.sprr m d 0) s = .next (s.waits m) ∧ exec (.sprw m 0 a) s = .next (s.waits m)) ∧
    (quiet → exec (.sprr m d 0) s = .next (s.wroteX m d (BitVec.ofNat 64
      (S.priv * 256 + b S.inh 128 + b S.clamp 4 + b S.sat 2 + b S.fe 1)))) ∧
    (∀ p ∈ [(0x010#12, S.epc), (0x011, S.ecause), (0x012, S.eaddr), (0x013, S.eval), (0x014, S.tvec), (0x015, S.estat),
        (0x020, S.crd), (0x021, S.shape), (0x022, BitVec.ofNat 64 (S.part * 2 ^ 32 + S.launch)),
        (0x028, (s.regs.loops.head?).getD 0), (0x029, BitVec.ofNat 64 s.regs.loops.length), (0x040, BitVec.ofNat 64 s.ctl.tick),
        (0x041, s.regs.rng0), (0x042, s.regs.rng1), (0x102, BitVec.ofNat 64 ((s.part S.part).sched.next % 2 ^ 32))],
      exec (.sprr m d p.1) s = .next (s.wroteX m d p.2)) ∧
    exec (.sprr m d 0x043) s = .next (if resultsPending s.task = true then s.waits m
      else s.wroteX m d (BitVec.ofNat 64 s.task.fl.bars.length)) ∧
    (1 ≤ S.priv → ∀ p ∈ [(0x140#12, P.sched.ptroot), (0x141, P.sched.pvbase), (0x142, P.sched.pvlen), (0x180, P.trap.evbase),
        (0x182, P.trap.evhead), (0x183, P.trap.evtail), (0x184, P.trap.evbell), (0x1C0, P.ten.pgroves), (0x1C1, P.ten.pkeys),
        (0x1D3, P.ten.mbhead), (0x1E1, BitVec.ofNat 64 (Tab.getD s.ctl.links.scval s.ctl.links.scsel.toNat 0)), (0x1F0, s.ctl.links.pkgid), (0x249, BitVec.ofNat 64 s.ctl.power.tthr)],
      exec (.sprr m d p.1) s = .next (s.wroteX m d p.2)) ∧
    (S.priv = 2 → ∀ p ∈ [(0x188#12, s.ctl.mring.base), (0x18A, s.ctl.mring.head), (0x284, (s.ctl.boot.meas.toList[0]?).getD 0),
        (0x298, s.ctl.sec.nonce0), (0x2AC, s.ctl.sec.mptroot), (0x301, s.ctl.dbg.sel),
        (0x306, if (dbgTask s.ctl).isSome then s.ctl.dbg.rsel else 0)],
      exec (.sprr m d p.1) s = .next (s.wroteX m d p.2)) ∧
    (quiet → exec (.sprw m 0 a) s = .next (s.edited m (fun T => { T with sys := { T.sys with
      fe := v.getLsbD 0, sat := T.sys.sat && !v.getLsbD 1, clamp := T.sys.clamp && !v.getLsbD 2 } }))) ∧
    exec (.sprw m 0x010 a) s = .next (s.edited m (fun T => { T with sys := { T.sys with epc := v &&& ~~~7#64 } })) ∧
    exec (.sprw m 0x014 a) s = .next (s.edited m (fun T => { T with sys := { T.sys with tvec := v &&& ~~~7#64 } })) ∧
    exec (.sprw m 0x041 a) s = .next (s.edited m (fun T => { T with regs := { T.regs with rng0 := v } })) ∧
    exec (.sprw m 0x042 a) s = .next (s.edited m (fun T => { T with regs := { T.regs with rng1 := v } })) ∧
    (∀ r ∈ [0x011#12, 0x012, 0x013, 0x015, 0x020, 0x021, 0x022, 0x029, 0x040, 0x043],
      exec (.sprw m r a) s = .next (s.edited m (fun T => T))) ∧
    (1 ≤ S.priv →
      (∃ u, exec (.sprw m 0x140 a) s = .next u ∧ u.pc = s.pc + 8 ∧ u.regs = s.regs ∧ u.mem = s.mem ∧
        (u.part (if S.priv = 2 then s.ctl.psel else S.part)).sched.ptroot = (v &&& 0x000FFFFFFFFF0000)) ∧
      (∃ u, exec (.sprw m 0x182 a) s = .next u ∧ u.pc = s.pc + 8 ∧ u.regs = s.regs ∧ u.mem = s.mem ∧
        (u.part (if S.priv = 2 then s.ctl.psel else S.part)).trap.evhead = (v &&& 0xFFFFFFFF))) ∧
    (S.priv = 2 →
      (∃ u, exec (.sprw m 0x10B a) s = .next u ∧ u.pc = s.pc + 8 ∧ u.regs = s.regs ∧ u.mem = s.mem ∧
        u.ctl.psel = v.toNat % 32) ∧
      (∃ u, exec (.sprw m 0x249 a) s = .next u ∧ u.pc = s.pc + 8 ∧ u.regs = s.regs ∧ u.mem = s.mem ∧
        u.ctl.power.tthr = Nat.min 94 (Nat.max 70 (v.toNat % 256))) ∧
      (∃ u, exec (.sprw m 0x1E1 a) s = .next u ∧ u.pc = s.pc + 8 ∧ u.regs = s.regs ∧ u.mem = s.mem ∧
        Tab.getD u.ctl.links.scval s.ctl.links.scsel.toNat 0 = v.toNat % 8) ∧
      (∃ u, exec (.sprw m 0x306 a) s = .next u ∧ u.pc = s.pc + 8 ∧ u.regs = s.regs ∧ u.mem = s.mem ∧
        u.ctl.dbg.rsel = if (dbgTask s.ctl).isSome then v &&& 0x0FFF8FFF else s.ctl.dbg.rsel) ∧
      (∃ u, exec (.sprw m 0x10A a) s = .next u ∧ u.pc = s.pc + 8 ∧ u.regs = s.regs ∧ u.mem = s.mem ∧
        (u.part s.ctl.psel).sched.quantum = Nat.max 50000 (v.toNat % 2 ^ 32)))

/-- R227, R229, R372 to R374, R431: these instructions raise PRIV with DETAIL 0 below their privilege. A lease operation answers
1 for a launch that is not RUNNING or PREEMPTED, 2 for a missing extent, 3 for one in the wrong state; REVOKE marks the
extent, GET takes the pages' present leaves, RELEASE ends the launch with status 4 and CAUSE 0x05. INVPG drops the cached
translations of the page; RETIRE.BEGIN starts a retirement or answers 1, 2 or 3; HOLD.SET and HOLD.REL set and clear the hold
of an arc or an inbound buffer. REVOKE is not ready while an access that has passed a bridge is not performed whole, nor GET while its
walk waits (R436). That each is one step, and what RELEASE does, is the model's choice, log entries 24 and 26. -/
def Obligations.PrivilegedOperations : Prop :=
  ∀ (m : Marks) (d a b : XReg) (big : Bool) (s : State), s.Settled →
    let p := if s.sys.priv = 2 then s.ctl.psel else s.sys.part
    let n := (s.x a).toNat
    let i := (s.x b).toNat
    let target := fun (l : Launch) (e : Extent) => s.launch p n = some l ∧ (l.st = .running ∨ l.st = .preempted) ∧ l.exts[i]? = some e
    let code := fun (c : Nat) => s.wroteX m d (BitVec.ofNat 64 c)
    let extentIs := fun (u : State) (e : Extent) => ∃ l, u.launch p n = some l ∧ l.exts[i]? = some e
    let size := if big = true then 2 ^ 28 else 2 ^ 16
    let lo := (s.x a).toNat / size * size
    let R := s.ctl.repair
    let live := liveCount s.ctl
    let g := n % 256
    let arc := i % 8192
    let hold := fun (on : Bool) => if on = true then Instr.holdSet m d a b else .holdRel m d a b
    (s.sys.priv = 0 → ∀ j ∈ [Instr.leaseGet m d a b, .leaseRevoke m d a b, .leaseRelease m d a b, .invpg m a b big],
      exec j s = .next (s.trapped m 2 0 (wordOf j) 0)) ∧
    (s.sys.priv < 2 → ∀ j ∈ [Instr.retireBegin m d a, .holdSet m d a b, .holdRel m d a b],
      exec j s = .next (s.trapped m 2 0 (wordOf j) 0)) ∧
    (0 < s.sys.priv → revokeWaits s.ctl p n i = true → exec (.leaseRevoke m d a b) s = .next (s.waits m)) ∧
    (0 < s.sys.priv → ∀ j ∈ [Instr.leaseGet m d a b, .leaseRevoke m d a b, .leaseRelease m d a b],
      (j = .leaseRevoke m d a b → revokeWaits s.ctl p n i = false) →
      ((∀ l, s.launch p n = some l → l.st ≠ .running ∧ l.st ≠ .preempted) → exec j s = .next (code 1)) ∧
      (∀ l, s.launch p n = some l → (l.st = .running ∨ l.st = .preempted) → l.exts[i]? = none → exec j s = .next (code 2))) ∧
    (0 < s.sys.priv → ∀ l e, target l e →
      (e.revoked = true → revokeWaits s.ctl p n i = false → exec (.leaseRevoke m d a b) s = .next (code 3)) ∧
      (e.revoked = false → exec (.leaseGet m d a b) s = .next (code 3) ∧ exec (.leaseRelease m d a b) s = .next (code 3)) ∧
      (e.revoked = false → revokeWaits s.ctl p n i = false → ∃ u, exec (.leaseRevoke m d a b) s = .next u ∧ u.pc = s.pc + 8 ∧ u.mem = s.mem ∧
        (d ≠ 0 → u.x d = 0) ∧ (∀ j, j ≠ d → u.x j = s.x j) ∧ extentIs u { e with revoked := true }) ∧
      (e.revoked = true → l.st = .running → ∃ u, exec (.leaseRelease m d a b) s = .next u ∧ u.pc = s.pc + 8 ∧ u.mem = s.mem ∧
        (d ≠ 0 → u.x d = 0) ∧ (∀ j, j ≠ d → u.x j = s.x j) ∧
        u.launch p n = some { l with st := .ending, endWith := 4, cause := 5, stopping := true }) ∧
      (e.revoked = true → ∀ r va, (walkSpan (Work.start s) p e.perm e.pages e.va).1 = .error (some (r, va)) →
        ∃ u, exec (.leaseGet m d a b) s = .next u ∧ u.pc = s.pc + 8 ∧ (d ≠ 0 → u.x d = BitVec.ofNat 64 (4 + r * 256)) ∧
          (u.part p).sched.lfva = BitVec.ofNat 64 va ∧ extentIs u e) ∧
      (e.revoked = true → (walkSpan (Work.start s) p e.perm e.pages e.va).1 = .error none →
        ∃ u, exec (.leaseGet m d a b) s = .next u ∧ u.task = s.task ∧ extentIs u e ∧ u.ctl.model.issuing = 3) ∧
      (e.revoked = true → ∀ ls, (walkSpan (Work.start s) p e.perm e.pages e.va).1 = .ok ls → (runsOf (ls.map (·.toNat))).length = 1 →
        let f := ((ls.map (·.toNat))[0]?).getD 0
        ∃ u, exec (.leaseGet m d a b) s = .next u ∧ u.pc = s.pc + 8 ∧ (d ≠ 0 → u.x d = 0) ∧
          extentIs u { e with pa := pteAddr f, indexed := false, keyid := pteKey f, tier := pteTier f, revoked := false })) ∧
    (0 < s.sys.priv → ∃ u, exec (.invpg m a b big) s = .next u ∧ u.pc = s.pc + 8 ∧ u.regs = s.regs ∧ u.mem = s.mem ∧
      ∀ k, (∀ x ∈ (u.gladeAt k).tlb, x.part = some i → x.va * 2 ^ x.size + 2 ^ x.size ≤ lo ∨ lo + size ≤ x.va * 2 ^ x.size) ∧
        ∀ x ∈ (s.gladeAt k).tlb, x.part ≠ some i → x ∈ (u.gladeAt k).tlb) ∧
    (s.sys.priv = 2 →
      (R.phaseAct = true → exec (.retireBegin m d a) s = .next (code 1)) ∧
      (R.phaseAct = false → 11 < n ∨ R.live.testBit n = false → exec (.retireBegin m d a) s = .next (code 2)) ∧
      (R.phaseAct = false → n ≤ 11 → R.live.testBit n = true → live = 1 → exec (.retireBegin m d a) s = .next (code 3)) ∧
      (R.phaseAct = false → n ≤ 11 → R.live.testBit n = true → live ≠ 1 →
        ∃ u, exec (.retireBegin m d a) s = .next u ∧ u.pc = s.pc + 8 ∧ u.mem = s.mem ∧ (d ≠ 0 → u.x d = 0) ∧
          u.ctl.repair = { R with phase := (R.phase + 1) % 2 ^ 32, phaseAct := true, frontier := (live - 1) * 49152, rstate := true
                                  rstack := n, copying := none })) ∧
    (s.sys.priv = 2 → ∀ on,
      (arc.testBit 12 = true → ∃ u, exec (hold on) s = .next u ∧ u.pc = s.pc + 8 ∧ u.mem = s.mem ∧
        vcBuf u.ctl g (arc % 32) = { vcBuf s.ctl g (arc % 32) with hold := on }) ∧
      (arc.testBit 12 = false → (arcPorts (planeOf s.ctl g (arc % 4)))[arc / 4 % 1024]? = none →
        ∃ u, exec (hold on) s = .next u ∧ u.pc = s.pc + 8 ∧ u.mem = s.mem ∧ (d ≠ 0 → u.x d = 1)) ∧
      (∀ e j, arc.testBit 12 = false → (arcPorts (planeOf s.ctl g (arc % 4)))[arc / 4 % 1024]? = some (e, j) →
        ∃ u, exec (hold on) s = .next u ∧ u.pc = s.pc + 8 ∧ u.mem = s.mem ∧
          arcOf (planeOf u.ctl g (arc % 4)) e j = { arcOf (planeOf s.ctl g (arc % 4)) e j with hold := on }))

/-- R229, R395, R396: PCTR.RD reads a counter once every earlier access has given its result, all ones for a number above 7;
PCTR.SEL selects an assigned event and zeroes the counter, PCTR.CLR zeroes it; HIST.RD reads a bin, the minimum, the maximum
or the count, HIST.ARM arms a monitor empty for a source, HIST.CLR empties it. Numbers, events, sources and shifts that are
not assigned change nothing. -/
def Obligations.CountersAndMonitors : Prop :=
  ∀ (m : Marks) (d a b c : XReg) (s : State), s.Settled →
    let n := (s.x a).toNat
    let k := (s.x b).toNat
    let ev := k % 256
    let sh := (s.x c).toNat
    let H := histOf s.ctl s.g n
    let ctr := (s.task.dbg.ctr.toList[n]?).getD 0
    let item := if k < 16 then BitVec.ofNat 64 (Tab.getD H.bins k 0) else if k = 16 then H.min
      else if k = 17 then BitVec.ofNat 64 H.max else if k = 18 then BitVec.ofNat 64 H.count else BitVec.allOnes 64
    let armed := fun (i : Instr) (src shift : Nat) => ∃ u, exec i s = .next u ∧ u.pc = s.pc + 8 ∧ u.regs = s.regs ∧ u.mem = s.mem ∧
      histOf u.ctl s.g n = ⟨src, shift, [], BitVec.allOnes 64, 0, 0⟩ ∧ ∀ j, j ≠ n → histOf u.ctl s.g j = histOf s.ctl s.g j
    let source := (1 ≤ k ∧ k ≤ 0xA) ∨ (0x10 ≤ k ∧ k ≤ 0x1B)
    (7 < n → exec (.pctrRd m d a) s = .next (s.wroteX m d (BitVec.allOnes 64))) ∧
    (n ≤ 7 → s.task.fl.outs ≠ [] → exec (.pctrRd m d a) s = .next (s.waits m)) ∧
    (n ≤ 7 → s.task.fl.outs = [] → exec (.pctrRd m d a) s = .next (s.wroteX m d ctr)) ∧
    (n ≤ 7 → ev ≤ 10 → exec (.pctrSel m a b) s = .next (s.edited m (fun T => { T with dbg := { T.dbg with
      ctrEvent := T.dbg.ctrEvent.setIfInBounds n (BitVec.ofNat 8 ev), ctr := T.dbg.ctr.setIfInBounds n 0 } }))) ∧
    (7 < n ∨ 10 < ev → exec (.pctrSel m a b) s = .next (s.went m)) ∧
    (n ≤ 7 → exec (.pctrClr m a) s = .next (s.edited m (fun T => { T with dbg := { T.dbg with ctr := T.dbg.ctr.setIfInBounds n 0 } }))) ∧
    (7 < n → exec (.pctrClr m a) s = .next (s.went m)) ∧
    exec (.histRd m d a b) s = .next (s.wroteX m d (if 15 < n then BitVec.allOnes 64 else item)) ∧
    (n ≤ 15 → sh ≤ 40 → source → armed (.histArm m a b c) k sh) ∧
    (15 < n ∨ 40 < sh ∨ ¬source → exec (.histArm m a b c) s = .next (s.went m)) ∧
    (n ≤ 15 → armed (.histClr m a) H.src H.shift) ∧
    (15 < n → exec (.histClr m a) s = .next (s.went m))

/-- R226, R330, R332, R352: LAUNCH of a record that is not 64-byte aligned raises MISALIGN with DETAIL 2, waits for the task's
earlier stores, and answers 2^63 + 2, 1, 3 or 4 for a record that is malformed, over quota, over depth or after the last number;
an accepted record becomes the partition's next launch, READY once its dependences are met; a record that cannot be read raises
MEMUNC. What else LAUNCH waits for, and which faults of a record count, is the model's choice, log entries 39 and 69. LWAIT answers all ones for a number not given out, the completion word of a finished launch, and else sleeps once every
earlier result is written (R85). -/
def Obligations.Launching : Prop :=
  ∀ (m : Marks) (d a : XReg) (s : State), s.Settled →
    let va := (s.x a).toNat
    let part := s.sys.part
    let Q := s.part part
    let W := touchRecord (Work.start s) va
    let P := partOf W.ctl part
    let ps := recordPlaces W va
    let fine := ∀ mem, rangeFault (Work.start s) .read mem (va + 2432) 3 va = none
    let answer := fun (l : List Byte) => launchAnswer P s.sys.priv (dwords l)
    let n := (s.x a).toNat
    let own := fun (o : Out) => o.store = true
    (va % 64 ≠ 0 → exec (.launch m d a) s = .next (s.trapped m 3 (s.x a) 2432 2)) ∧
    (va % 64 = 0 → fine → s.task.fl.sq ≠ [] → ∃ u, exec (.launch m d a) s = .next u ∧ u.pc = s.pc ∧ u.regs = s.regs ∧
      u.part part = P ∧ u.ctl.model.issuing = 3) ∧
    (va % 64 = 0 → fine → s.task.fl.sq = [] → (∀ o ∈ s.task.fl.outs, own o) → recordOpen W va ps = true →
      ∀ l, (readRecord W ps va).1 = .ok l →
      (∀ r, answer l = .error r → ∃ u, exec (.launch m d a) s = .next u ∧ u.pc = s.pc + 8 ∧ u.part part = P ∧
        (d ≠ 0 → u.x d = BitVec.ofNat 64 (2 ^ 63 + r)) ∧ ∀ j, j ≠ d → u.x j = s.x j) ∧
      (∀ r, answer l = .ok r → ∃ u L, exec (.launch m d a) s = .next u ∧ u.pc = s.pc + 8 ∧
        (d ≠ 0 → u.x d = BitVec.ofNat 64 P.sched.next) ∧ (∀ j, j ≠ d → u.x j = s.x j) ∧
        (u.part part).sched.next = P.sched.next + 1 ∧ u.launch part P.sched.next = some L ∧ L.rec_ = r ∧
        (L.st = .ready ↔ ∀ k ∈ r.deps, 0 < k ∧ k < P.sched.next ∧ launchOf W.ctl part k = none) ∧ (L.st = .ready ∨ L.st = .waitdep))) ∧
    (va % 64 = 0 → fine → s.task.fl.sq = [] → (∀ o ∈ s.task.fl.outs, own o) → recordOpen W va ps = true → s.task.held = none →
      s.sys.tvec ≠ 0 → s.sys.inh = false → ∀ ea loc dt, (readRecord W ps va).1 = .error (ea, loc, dt) →
      ∃ u, exec (.launch m d a) s = .next u ∧ u.pc = s.sys.tvec ∧ u.regs = s.regs ∧ u.sys.epc = s.pc ∧ u.sys.ecause = 0xB ∧
        u.sys.eaddr = BitVec.ofNat 64 ea) ∧
    (n = 0 ∨ Q.sched.next ≤ n → exec (.lwait m d a) s = .next (s.wroteX m d (BitVec.allOnes 64))) ∧
    (0 < n → n < Q.sched.next → s.launch part n = none → exec (.lwait m d a) s = .next (s.wroteX m d
      (if n + 65536 < Q.sched.next then 0x80000000000000FF else Tab.getD Q.words n 0))) ∧
    (0 < n → n < Q.sched.next → s.launch part n ≠ none → resultsPending s.task = true →
      exec (.lwait m d a) s = .next (s.waits m)) ∧
    (0 < n → n < Q.sched.next → s.launch part n ≠ none → resultsPending s.task = false → ∃ u, exec (.lwait m d a) s = .next u ∧ u.pc = s.pc + 8 ∧
      u.regs = s.regs ∧ u.mem = s.mem ∧ u.task.run = .sleeping (.lwait n d.toNat))

/-- R60, R61, R64, R65, R239 to R249: each kind of element fires on the heads its rule reads, when every output it writes has a
free slot: the tokens taken, the tokens written, its own state after it. Where a slot is missing nothing happens. The clauses on
ends of streams and on tokens of the wrong kind name each kind that reads through the table of R65; that a DONE which stands at a
head is discarded before anything else is looked at is the model's choice (log entry 60), and so is the resetting of pass-over
counts with each firing (log entry 94). -/
def Obligations.ElementFirings : Prop :=
  ∀ (g e p : Nat) (s : State), ActivePlane s g p →
    let P := planeOf s.ctl g p
    let x := elemOf P e
    let beat := (s.gladeAt g).ctx.net.beats
    let D := fun (v : BitVec 32) => (⟨0, v⟩ : Token)
    let E := fun (n : Nat) => (⟨BitVec.ofNat 3 (4 + n), 0⟩ : Token)
    let data := fun (j : Nat) (v : BitVec 32) => headTok P e j = some ⟨0, v⟩
    let kb := x.cfg.testBit 0
    let K := BitVec.ofNat 32 (x.klo + 65536 * x.khi)
    let dn := if x.cfg.testBit 15 = true then [(7, (⟨1, 0⟩ : Token))] else []
    let first := fun (n j : Nat) (t : Token) => j < n ∧ ∃ b, headAt P e j = some (t, b) ∧
      ∀ k < n, ∀ t' b', headAt P e k = some (t', b') → b < b' ∨ (b = b' ∧ j ≤ k)
    let firesAs := fun (i : Instr) (takes : List Nat) (writes : List (Nat × Token)) (y : Elem) (flag : Plane → Plane) =>
      ((∀ o ∈ writes, outFree P e o.1 = true) → ∃ u, exec i s = .next u ∧ Fired s u g p (flag (P.afterFiring e takes writes y beat))) ∧
      ((∃ o ∈ writes, outFree P e o.1 = false) → exec i s = .next s)
    let fires := fun (i : Instr) (takes : List Nat) (writes : List (Nat × Token)) (y : Elem) => firesAs i takes writes y id
    let alu := fun (op : Nat) (a b : BitVec 32) =>
      match op with
      | 0x00 => a + b
      | 0x01 => a - b
      | 0x02 => a &&& b
      | 0x03 => a ||| b
      | 0x04 => a ^^^ b
      | 0x05 => a <<< (b.toNat % 32)
      | 0x06 => a >>> (b.toNat % 32)
      | 0x07 => a.sshiftRight (b.toNat % 32)
      | 0x08 => a.rotateLeft (b.toNat % 32)
      | 0x09 => a.rotateRight (b.toNat % 32)
      | 0x0A => if b.slt a = true then b else a
      | 0x0B => if a.slt b = true then b else a
      | 0x0C => if b.ult a = true then b else a
      | 0x0D => if a.ult b = true then b else a
      | 0x0E => if a.slt b = true then 1 else 0
      | 0x0F => if a.ult b = true then 1 else 0
      | 0x10 => if a = b then 1 else 0
      | _ => if a = b then 0 else 1
    let real := fun (op rm cmp a b c : Nat) =>
      let R := match rm with
        | 0 => Rnd.rne
        | 1 => Rnd.rz
        | 2 => Rnd.rd
        | _ => Rnd.ru
      let A := fp32.val a
      let B := fp32.val b
      let un := A.isNan || B.isNan
      match op with
      | 0 => fp32.ieee R (A.add R B)
      | 1 => fp32.ieee R (A.add R B.neg)
      | 2 => fp32.ieee R (A.mul B)
      | 3 => fp32.ieee R ((A.mul B).add R (fp32.val c))
      | 4 => fp32.ieee .rne (Num.minMax false A B)
      | 5 => fp32.ieee .rne (Num.minMax true A B)
      | _ => if (match cmp with
          | 0 => A.eq B
          | 1 => un || !(A.eq B)
          | 2 => A.lt B
          | 3 => !un && !(A.lt B)
          | _ => un) = true then 1 else 0
    let lvl := x.cfg % 4
    let j := if x.mode = 0 then 0 else 1
    let wrong := fun (Q : Plane) => { Q with kinderr := true }
    let merged := match headTok P e 0 with
      | none => [0]
      | some t => if t.k.getLsbD 2 = true then [0, 1, 2] else if t.k = 1 then [0] else [0, if t.d = 0 then 1 else 2]
    let routed := (List.range 4).filter (fun j => inRouted (inOf x j))
    x.klo < 65536 → x.khi < 65536 →
    (x.kind = 1 → ∀ a b, data 0 a → (if kb = true then b = K else data 1 b) →
      fires (.aluFire g e) (if kb = true then [0] else [0, 1]) ((0, D (alu x.op a b)) :: dn) x) ∧
    (x.kind = 2 → ∀ v : List (BitVec 32), v.length = (if x.op = 3 then 3 else 2) - (if kb = true then 1 else 0) →
      (∀ k, ∀ h : k < v.length, data k v[k]) →
      let w := (if kb = true then v ++ [K] else v).map (·.toNat)
      fires (.faluFire g e) (List.range v.length)
        ((0, D (BitVec.ofNat 32 (real x.op (x.cfg / 2 % 4) (x.cfg / 8 % 8) (nthD w 0) (nthD w 1) (nthD w 2)))) :: dn) x) ∧
    (x.kind = 3 → ∀ a, data 0 a → fires (.constFire g e) [0] ((0, D K) :: dn) x) ∧
    (x.kind = 4 → ∀ t, headTok P e 0 = some t → fires (.dupFire g e) [0] [(0, t), (1, t), (2, t), (3, t)] x) ∧
    (x.kind = 5 → ∀ a c, data 0 a → data 1 c → fires (.steerFire g e) [0, 1] [(if c = 0 then 1 else 0, D a)] x) ∧
    (x.kind = 6 → ∀ c v, data 0 c → data (if c = 0 then 1 else 2) v → fires (.mergeFire g e) [0, if c = 0 then 1 else 2] [(0, D v)] x) ∧
    (x.kind = 7 → ∀ k t, first 4 k t → fires (.amergeFire g e) [k] [(0, t)] x) ∧
    (x.kind = 8 → ∀ v c, data j v → data 2 c →
      fires (.carryFire g e) [j, 2] [(if c = 0 then 1 else 0, D v)] { x with mode := if c = 0 then 0 else 1 }) ∧
    (x.kind = 9 → x.mode = 0 → data 0 0 → fires (.lceFire g e) [0] [(1, D 0), (2, E lvl)] { x with n := 0 }) ∧
    (x.kind = 9 → x.mode = 0 → ∀ c, c ≠ 0 → data 0 c →
      fires (.lceFire g e) [0] [(0, D 0), (1, D 1)] { x with n := c.toNat, i := 1, mode := 1 }) ∧
    (x.kind = 9 → x.mode = 0 → ∀ t, headTok P e 0 = some t → t.k.getLsbD 2 = true →
      fires (.lceFire g e) [0] [(2, E (Nat.min 3 (t.k.toNat % 4 + lvl + 1)))] x) ∧
    (x.kind = 9 → x.mode ≠ 0 → ∀ d, headTok P e 1 = some ⟨1, d⟩ →
      (x.i < x.n → fires (.lceFire g e) [1] [(0, D (BitVec.ofNat 32 x.i)), (1, D 1)] { x with i := x.i + 1 }) ∧
      (x.n ≤ x.i → fires (.lceFire g e) [1] [(1, D 0), (2, E lvl)] { x with mode := 0 })) ∧
    (x.kind = 10 → (∀ k ∈ routed, ∃ d, headTok P e k = some ⟨1, d⟩) → fires (.djoinFire g e) routed [(0, ⟨1, 0⟩)] x) ∧
    (x.kind = 11 → ∀ t, headTok P e 8 = some t →
      (x.fifo = [] → firesAs (.arbReplyFire g e) [8] [] x (fun P => { P with arberr := true })) ∧
      (∀ k r, x.fifo = k :: r → fires (.arbReplyFire g e) [8] [(k, t)] { x with fifo := r })) ∧
    (x.kind = 11 → headTok P e 8 = none → x.fifo.length < 16 → ∀ k t, first 8 k t →
      fires (.arbGrantFire g e) [k] [(8, t)] { x with fifo := x.fifo ++ [k] }) ∧
    -- R65: the ends of streams, their mismatch, and a token of the wrong kind, by what each kind reads and forwards to
    (∀ q ∈ [(Instr.aluFire g e, 1, if kb = true then [0] else [0, 1], [0], x),
        (.faluFire g e, 2, List.range ((if x.op = 3 then 3 else 2) - (if kb = true then 1 else 0)), [0], x),
        (.constFire g e, 3, [0], [0], x), (.steerFire g e, 5, [0, 1], [0, 1], x), (.mergeFire g e, 6, merged, [0], x),
        (.carryFire g e, 8, [j, 2], [0, 1], { x with mode := 0 })], x.kind = q.2.1 →
      let js := q.2.2.1
      (∀ ts : List Token, js.map (headTok P e) = ts.map some → (∀ t ∈ ts, t.k = 0 ∨ t.k.getLsbD 2 = true) →
        let top := (ts.map (fun t => t.k.toNat % 4)).foldl Nat.max 0
        ((∀ t ∈ ts, t.k.getLsbD 2 = true) → firesAs q.1 js (q.2.2.2.1.map (fun o => (o, E top))) q.2.2.2.2
          (fun Q => { Q with eosmis := P.eosmis || decide (∃ t ∈ ts, t.k.toNat % 4 ≠ top) })) ∧
        ((∃ t ∈ ts, t.k = 0) → (∃ t ∈ ts, t.k.getLsbD 2 = true) →
          firesAs q.1 (js.filter (fun k => (headTok P e k).any (fun t => decide (t.k = 0)))) [] x
            (fun Q => { Q with eosmis := true }))) ∧
      (∀ k ∈ js, ∀ d, headTok P e k = some ⟨1, d⟩ → (∀ k' ∈ js, k' < k → ∀ d', headTok P e k' ≠ some ⟨1, d'⟩) →
        firesAs q.1 [k] [] x wrong)) ∧
    (x.kind = 9 → x.mode = 0 → ∀ d, headTok P e 0 = some ⟨1, d⟩ → firesAs (.lceFire g e) [0] [] x wrong) ∧
    (x.kind = 9 → x.mode ≠ 0 → ∀ t, headTok P e 1 = some t → t.k ≠ 1 → firesAs (.lceFire g e) [1] [] x wrong) ∧
    (x.kind = 10 → ∀ k ∈ routed, ∀ t, headTok P e k = some t → t.k ≠ 1 →
      (∀ k' ∈ routed, k' < k → ∀ t', headTok P e k' = some t' → t'.k = 1) → firesAs (.djoinFire g e) [k] [] x wrong)

/-- R65, R70, R243, R250, R251, R253: SRC writes the next token of its stream command, SNK gives its token to its command, VCI
writes the word at the head of its channel, VCO sends its token, or notes since when it waits where its channel has no room; a
DONE is discarded at either, whatever room there is; ENTRY writes the word of its entry's head slot and advances it. That the
DONE goes at the head, that a writing stream takes no token after an end of its depth, and since when a port waits are the
model's choice (log entries 60, 62); so is that a word which a held guard stops waits for no room (log entries 11, 62).
R254 to R256: at a decision point (no active plane, the first after a restore, 256 beats of the active plane) with no
candidate passed over four times, the scheduler takes the candidate of the highest score, the lowest number first, counts the
others as passed over and its beats anew; while the active plane can fire and its 256 beats are not over, nothing changes. A
plane that is no candidate loses its pass-over count at once; a stopped glade decides nothing. What counts as a beat, and that
every decision starts the 256 anew, are the model's choice (log entry 94). -/
def Obligations.PortFirings : Prop :=
  (
    ∀ (g e p : Nat) (s : State), ActivePlane s g p →
      let P := planeOf s.ctl g p
      let x := elemOf P e
      let beat := (s.gladeAt g).ctx.net.beats
      let dn := if x.cfg.testBit 15 = true then [(7, (⟨1, 0⟩ : Token))] else []
      let after := fun (takes : List Nat) (writes : List (Nat × Token)) (y : Elem) => P.afterFiring e takes writes y beat
      let eos := fun (t : Token) (n : Nat) => t.k.getLsbD 2 && decide (n ≤ t.k.toNat % 4)
      let sunk := fun (t : Token) => after [0] (if t.k = 0 then dn else []) { x with fin := x.fin || eos t (x.cfg / 4 % 4) }
      let vc := x.cfg / 16 % 32
      (x.kind = 12 → admits s.ctl g = true → ∀ q c t r, boundCmd s.ctl g p e = some (q, c) → c.toks = t :: r → cmdToMem c = false →
        outFree P e 0 = true → ∃ u, exec (.srcFire g e) s = .next u ∧ Fired s u g p (after [] [(0, t)] x) ∧
          ∀ k ∈ cmdsOf u.ctl g q, k.id = c.id → k.toks = r) ∧
      (x.kind = 13 → ∀ q c t, boundCmd s.ctl g p e = some (q, c) → headTok P e 0 = some t → t.k ≠ 1 → cmdToMem c = true →
        c.toks.length < Config.streamDepth → (∀ k ∈ c.toks, eos k (cmdDepth c) = false) → (t.k = 0 → ∀ o ∈ dn, outFree P e o.1 = true) →
        ∃ u, exec (.snkFire g e) s = .next u ∧ Fired s u g p (sunk t) ∧ ∀ k ∈ cmdsOf u.ctl g q, k.id = c.id →
          ∃ k' ∈ cmdsOf s.ctl g q, k'.id = c.id ∧ k.toks = k'.toks ++ [t]) ∧
      (x.kind = 13 → boundCmd s.ctl g p e = none → exec (.snkFire g e) s = .next s) ∧
      (x.kind = 14 → admits s.ctl g = true → ∀ t, vcHead s.ctl g vc = some t → outFree P e 0 = true →
        ∃ u, exec (.vciFire g e) s = .next u ∧ Fired s u g p (after [] [(0, t)] x) ∧
          (vcBuf u.ctl g vc).toks = (vcBuf s.ctl g vc).toks.tail) ∧
      (x.kind = 13 → ∀ q c d, boundCmd s.ctl g p e = some (q, c) → cmdToMem c = true → headTok P e 0 = some ⟨1, d⟩ →
        ∃ u, exec (.snkFire g e) s = .next u ∧ Fired s u g p { after [0] [] x with kinderr := true }) ∧
      (x.kind = 15 → ∀ d, headTok P e 0 = some ⟨1, d⟩ →
        ∃ u, exec (.vcoFire g e) s = .next u ∧ Fired s u g p { after [0] [] x with kinderr := true }) ∧
      (x.kind = 15 → headTok P e 0 = none → exec (.vcoFire g e) s = .next s) ∧
      (x.kind = 15 → sendWay (Work.start s) g vc = .wait → ∀ t, headTok P e 0 = some t → t.k ≠ 1 →
        exec (.vcoFire g e) s = .next (s.after (fun w => portWaits w g vc (vcoPort p e)))) ∧
      (x.kind = 15 → sendWay (Work.start s) g vc = .held → ∀ t, headTok P e 0 = some t → t.k ≠ 1 →
        exec (.vcoFire g e) s = .next (s.after (fun w => portSends w g vc (vcoPort p e)))) ∧
      (x.kind = 15 → sendWay (Work.start s) g vc = .direct → ∀ t o d dv, headTok P e 0 = some t → t.k ≠ 1 → (s.gladeAt g).owner = some o →
        destOf s.ctl g vc = some (d, dv) → gladeGuard s.ctl g o.part d = true → (t.k = 0 → ∀ w ∈ dn, outFree P e w.1 = true) →
        ∃ u, exec (.vcoFire g e) s = .next u ∧ Fired s u g p (sunk t) ∧
          u.ctl.net = { s.ctl.net with fly := s.ctl.net.fly ++ [
            { src := g, svc := vc, dst := d, dvc := dv, tok := t, part := o.part, launch := o.launch, lg := o.lglade
              slot := none, hop := flyStart s.ctl g d, redir := (vxOf s.ctl o.part o.launch vc).testBit 63 }] }) ∧
      (x.kind = 16 → admits s.ctl g = true → s.CtlGood g [.buf (x.cfg % 64)] → s.ctl.marks.poison = [] → s.ctl.marks.latent = [] → s.ctl.marks.soft = [] →
        let n := x.cfg % 64
        let B := bufOf s.ctl g n
        (B.count = 0 ∨ B.filled = 0 → exec (.entryFire g e) s = .next s) ∧
        (B.count ≠ 0 → 0 < B.filled → B.space = 1 → B.base + B.head * B.slot < 0x180000 → (s.gladeAt g).banks = [] →
          outFree P e 0 = true →
          ∃ u, exec (.entryFire g e) s = .next u ∧ u.mem = s.mem ∧
            Fired s u g p (after []
              [(0, ⟨0, BitVec.ofNat 32 (leNat ((List.range 4).map (fun k => s.byte (scrAt g (B.base + B.head * B.slot) + k))))⟩)] x) ∧
            bufOf u.ctl g n = { B with head := (B.head + 1) % B.count, filled := B.filled - 1 }))
  ) ∧
  (
    ∀ (g p : Nat) (s : State),
      let score := planeScore s.ctl g
      let N := (s.gladeAt g).ctx.net
      let i := Instr.planeScheduleDecision g
      let settled := ∀ r < 4, score r = 0 → (planeOf s.ctl g r).passed = 0
      let due := N.active = none ∨ N.redecide = true ∨ ∃ q, N.active = some q ∧ 256 ≤ (planeOf s.ctl g q).beats
      ((s.gladeAt g).halted = true → ∃ u, exec i s = .next u ∧ u.mem = s.mem ∧ (u.gladeAt g).ctx.net.active = N.active ∧
        ∀ r < 4, planeOf u.ctl g r = { planeOf s.ctl g r with passed := if score r = 0 then 0 else (planeOf s.ctl g r).passed }) ∧
      (settled → (s.gladeAt g).halted = true → exec i s = .next s) ∧
      (settled → N.active = none → N.redecide = false → (∀ r < 4, score r = 0) → exec i s = .next s) ∧
      (settled → ActivePlane s g p → canFire (Work.start s) g = true → exec i s = .next s) ∧
      ((s.gladeAt g).halted = false → due → p < 4 → 0 < score p →
        (∀ r < 4, score r ≤ score p ∧ (score r = score p → p ≤ r)) → (∀ r < 4, (planeOf s.ctl g r).passed < 4) →
        ∃ u, exec i s = .next u ∧ u.mem = s.mem ∧ (u.gladeAt g).ctx.net.active = some p ∧ (u.gladeAt g).ctx.net.redecide = false ∧
          ∀ r < 4, planeOf u.ctl g r = { planeOf s.ctl g r with
            passed := if r = p ∨ score r = 0 then 0 else (planeOf s.ctl g r).passed + 1, beats := 0 })
  )

/-- R68, R72, R284 to R286, R307, R308, R311, R312, R375, R403, R433: the head of a hop goes to the next hop, or to the inbox or
bridge of its home where there is room, the service lane past a full one; a message its guard drops is counted; a hop with no
request moves its oldest word of a virtual channel; the inbox fills the message queue of its glade, whose head enters every bank
it touches as its credit starts back; a credit on its way returns to its sender; the head of a bank, at the head of each queue it
is in, and the head of a bridge are performed there, a read giving its register the bytes as they stand; at a bridge a request of
several words goes word by word, and one whose home has moved is sent again, as is a replayed one; a hop with nothing else moves
its oldest collective message. An empty queue does nothing. How many requests of the service lane pass a full bridge is the
model's choice (log entry 87). -/
def Obligations.RequestsTravel : Prop :=
  ∀ (h : Hop) (home : Home) (g b n target : Nat) (s : State),
    let G := s.gladeAt g
    let reqs := hopReqs s.ctl.net h home
    let B := bridgeOf s.ctl b
    let loaded := fun (r : Req) (u : State) => ∀ k o d, r.acc = .read k → r.eng = none → (∀ a off, whereIs r.addr ≠ .flt a off) →
      s.ctl.marks.poison = [] → s.ctl.marks.latent = [] → s.ctl.marks.soft = [] → findOut (s.taskAt r.g r.t) r.id = some o →
      o.left = 1 → o.bad = none → o.dest = .x d →
      u.mem = s.mem ∧ (u.taskAt r.g r.t).regs = (s.taskAt r.g r.t).regs.putX (BitVec.ofNat 5 d)
        ((o.stage ||| BitVec.ofNat 2048 (leNat (readBytes (Work.start s) r.key r.addr k) * 2 ^ r.lane)).setWidth 64)
    let counted := fun (r : Req) (u : State) =>
      (u.part r.part).ten.gdrops = Nat.min (2 ^ 48 - 1) ((s.part r.part).ten.gdrops + 1)
    let again := fun (r : Req) (u : State) =>
      let r' := { reroute s.ctl r with resent := true }
      let k := Hop.dieSwitch (dieOfBridge b)
      u.mem = s.mem ∧ if guardDrops s.ctl r' (homeOf s.ctl r') = true then counted r' u
        else hopReqs u.ctl.net k (homeOf s.ctl r') = hopReqs s.ctl.net k (homeOf s.ctl r') ++ [r']
    let noWord := ∀ d, home = .glade d → flyAt s.ctl h d = []
    (reqs = [] → noWord → (∀ x ∈ s.ctl.net.colls, x.hop = h → x.home ≠ home) → exec (.requestHop h home) s = .next s) ∧
    (∀ x k before after, reqs = [] → noWord → s.ctl.net.colls = before ++ x :: after → x.hop = h → x.home = home →
      (∀ y ∈ before, y.hop = h → y.home ≠ home) → x ∉ before → x ∉ after → nextHop s.ctl home h = some k →
      (∀ t, k ≠ .gladeIn t) → ∃ u, exec (.requestHop h home) s = .next u ∧ u.mem = s.mem ∧
        u.ctl.net.colls = before ++ { x with hop := k } :: after) ∧
    (∀ d f before after, home = .glade d → reqs = [] → s.ctl.net.fly = before ++ f :: after → f.hop = some h → f.dst = d →
      (∀ x ∈ before, x.hop = some h → x.dst ≠ d) →
      ∃ u, exec (.requestHop h home) s = .next u ∧ u.mem = s.mem ∧
        (∀ t, nextHop s.ctl home h = some (.gladeIn t) → u.ctl.net.fly = before ++ { f with hop := none } :: after) ∧
        ((∀ t, nextHop s.ctl home h ≠ some (.gladeIn t)) →
          u.ctl.net.fly = before ++ { f with hop := nextHop s.ctl home h } :: after)) ∧
    (∀ r rest, reqs = r :: rest →
      let dropped := guardAt h r && guardDrops s.ctl r home
      let held := guardAt h r && egressHeldFor s.ctl r home
      (∀ k, nextHop s.ctl home h = some k →
        (k ≠ h → held = false → dropped = false → ∃ u, exec (.requestHop h home) s = .next u ∧ u.mem = s.mem ∧ hopReqs u.ctl.net h home = rest ∧
          hopReqs u.ctl.net k home = hopReqs s.ctl.net k home ++ [r]) ∧
        (held = true → exec (.requestHop h home) s = .next s) ∧
        (held = false → dropped = true → ∃ u, exec (.requestHop h home) s = .next u ∧ u.mem = s.mem ∧
          hopReqs u.ctl.net h home = rest ∧ counted r u)) ∧
      (∀ t, nextHop s.ctl home h = none → home = .glade t →
        ∃ u, exec (.requestHop h home) s = .next u ∧ u.mem = s.mem ∧ hopReqs u.ctl.net h home = rest ∧
          (u.gladeAt t).inbox = (s.gladeAt t).inbox ++ [r]) ∧
      ((∀ t, home ≠ .glade t) → nextHop s.ctl home h = none →
        let k := bridgeAtHop h home
        let F := (bridgeOf s.ctl k).fifo
        let enters := fun (q : Req) (l : List Req) => ∃ u, exec (.requestHop h home) s = .next u ∧ u.mem = s.mem ∧
          hopReqs u.ctl.net h home = l ∧ (bridgeOf u.ctl k).fifo = F ++ [q]
        let full := Config.bridgeDepth ≤ F.length ∨ Config.replayDepth ≤ (bridgeOf s.ctl k).replay.length
        (¬full → enters r rest) ∧
        (full →
          (reqs.find? (·.svc) = none ∨ (∃ q ∈ F, q.svc = true) → exec (.requestHop h home) s = .next s) ∧
          (∀ q, reqs.find? (·.svc) = some q → (∀ x ∈ F, x.svc = false) → enters q (reqs.filter (· != q)))))) ∧
    (bridgeNext s.ctl b = none → exec (.bridgePerform b) s = .next s) ∧
    (∀ r rest, B.fifo = r :: rest → bridgeNext s.ctl b = if verdict s.ctl b r = .stay then rest.find? (·.svc) else some r) ∧
    (∀ r, bridgeNext s.ctl b = some r →
      let gone := fun (u : State) => (bridgeOf u.ctl b).fifo = replaceReq r [] B.fifo
      (verdict s.ctl b r = .stay → exec (.bridgePerform b) s = .next s) ∧
      (verdict s.ctl b r = .perform → cutReq r = (r, none) → ∃ u, exec (.bridgePerform b) s = .next u ∧ loaded r u) ∧
      (∀ p more k, verdict s.ctl b r = .perform → cutReq r = (p, some more) → r.acc = .read k →
        ∃ u, exec (.bridgePerform b) s = .next u ∧ u.mem = s.mem ∧ (bridgeOf u.ctl b).fifo = replaceReq r [more] B.fifo) ∧
      (verdict s.ctl b r = .hold → ∃ u, exec (.bridgePerform b) s = .next u ∧ u.mem = s.mem ∧ gone u ∧
        (bridgeOf u.ctl b).held = B.held ++ [{ r with heldAt := s.ctl.tick }]) ∧
      (verdict s.ctl b r = .replay → ∃ u, exec (.bridgePerform b) s = .next u ∧ u.mem = s.mem ∧ gone u ∧
        (bridgeOf u.ctl b).replay = B.replay ++ [{ r with heldAt := s.ctl.tick }]) ∧
      (verdict s.ctl b r = .resend → ∃ u, exec (.bridgePerform b) s = .next u ∧ gone u ∧ again r u) ∧
      (verdict s.ctl b r = .vacated ∨ (verdict s.ctl b r = .lost ∧ ∀ q, r.eng = some q → rowOpen s.ctl r q = false) →
        ∃ u, exec (.bridgePerform b) s = .next u ∧ u.mem = s.mem ∧ gone u)) ∧
    (B.replay = [] → exec (.replayRelease b) s = .next s) ∧
    (∀ r rest, B.replay = r :: rest →
      let v := revokedOr s.ctl b r (moveVerdict s.ctl b r [])
      let copying := s.ctl.repair.copying = some (r.addr % 2 ^ 44 / 2 ^ 20)
      (copying ∨ v = .stay → exec (.replayRelease b) s = .next s) ∧
      (¬copying → v = .resend →
        ∃ u, exec (.replayRelease b) s = .next u ∧ (bridgeOf u.ctl b).replay = rest ∧ again r u) ∧
      (¬copying → v = .perform → cutReq r = (r, none) → ∃ u, exec (.replayRelease b) s = .next u ∧ loaded r u)) ∧
    (G.inbox = [] ∨ Config.rmqDepth ≤ G.rmq.length → exec (.remoteMessageArrive g) s = .next s) ∧
    (∀ r rest, G.inbox = r :: rest → G.rmq.length < Config.rmqDepth → ∃ u, exec (.remoteMessageArrive g) s = .next u ∧
      u.mem = s.mem ∧ (u.gladeAt g).inbox = rest ∧ (u.gladeAt g).rmq = G.rmq ++ [r]) ∧
    (G.rmq = [] → exec (.remoteMessageDispatch g) s = .next s) ∧
    (∀ r rest, G.rmq = r :: rest →
      ((∃ q ∈ splitMsg r, banksRoom s.ctl g q = false) → exec (.remoteMessageDispatch g) s = .next s) ∧
      ((∀ q ∈ splitMsg r, banksRoom s.ctl g q = true) → ∃ u, exec (.remoteMessageDispatch g) s = .next u ∧ u.mem = s.mem ∧
        (u.gladeAt g).rmq = rest ∧
        (r.sp = .rscr → Tab.getD (u.gladeAt g).returns r.g 0 = Tab.getD G.returns r.g 0 + 1) ∧
        (r.sp ≠ .rscr → (u.gladeAt g).returns = G.returns) ∧
        ∀ q ∈ splitMsg r, ∀ k ∈ bankKeys q, q ∈ bankQ u.ctl g k)) ∧
    (let due := Tab.getD (s.gladeAt target).returns g 0
     (due = 0 → exec (.creditReturnReceive g target) s = .next s) ∧
     (due ≠ 0 → ∃ u, exec (.creditReturnReceive g target) s = .next u ∧ u.mem = s.mem ∧
       creditsOf u.ctl g target = creditsOf s.ctl g target + due ∧ Tab.getD (u.gladeAt target).returns g 0 = 0)) ∧
    (bankQ s.ctl g n = [] → exec (.bankPerform g n) s = .next s) ∧
    (∀ r rest, bankQ s.ctl g n = r :: rest →
      ((∃ k ∈ bankKeys r, (bankQ s.ctl g k).head? ≠ some r) → exec (.bankPerform g n) s = .next s) ∧
      ((∀ k ∈ bankKeys r, (bankQ s.ctl g k).head? = some r) → ∃ u, exec (.bankPerform g n) s = .next u ∧ loaded r u))

/-- R165, R166, R171, R294, R295: a command begins at the head of its queue once its task's earlier local stores are out, its
COPY is done and its buffers have their slots; its accesses are made one at a time, none while one is on its way (the model's
choice, log entry 11), its pending writes first, each of which reaches its bytes (at once where nothing stands before it: log entry
10); FILL's next unit is its value at the element's place; a command whose work is done leaves its queue, and its task sees it done
with its flags and count. A monitor counts a sample of its source in the bin of the value. -/
def Obligations.EnginesRun : Prop :=
  ∀ (g id src v : Nat) (q : Queue) (s : State),
    let cmd := findCmd s.ctl g q id
    let unbound := fun (c : Cmd) => kQb c.ka = false ∧ kQb c.kb = false ∧ kQb c.kc = false
    (cmd = none → exec (.engineBegin g q id) s = .next s ∧ exec (.engineAccess g q id) s = .next s ∧
      exec (.engineComplete g q id) s = .next s) ∧
    (∀ c, cmd = some c →
      (c.begun = true ∨ admits s.ctl g = false ∨ hasTurn s.ctl g q c = false ∨ storesDrained s.ctl g c = false ∨
        copyDone s.ctl g c = false ∨ (bindCmd s.ctl g c = none ∧
          s.CtlGood g (.queue q :: ([c.ka, c.kb, c.kc].filter kQb).map (fun k => .buf (kQent k)))) →
        exec (.engineBegin g q id) s = .next s) ∧
      (∀ w, c.op = .fill w → unbound c → c.begun = false → admits s.ctl g = true → hasTurn s.ctl g q c = true →
        storesDrained s.ctl g c = true → copyDone s.ctl g c = true → s.CtlGood g [.queue q] →
        ∃ u, exec (.engineBegin g q id) s = .next u ∧ u.mem = s.mem ∧
          ∀ k ∈ cmdsOf u.ctl g q, k.id = id → k = { c with begun := true, starts := s.ctl.tick }) ∧
      (c.begun = false ∨ c.flying = true ∨ (admits s.ctl g = false ∧ midChunk c = false) →
        exec (.engineAccess g q id) s = .next s) ∧
      (∀ p r, c.begun = true → c.flying = false → admits s.ctl g = true → c.puts = p :: r → isRows c = false ∨ c.opened = true → p.sp = .scr → p.nib = 0 →
        p.poison = false → 0 < p.bytes.length → p.bytes.length ≤ 8 → s.mem.wf = true → s.ctl.marks.poison = [] →
        s.ctl.marks.latent = [] → s.ctl.model.defer = false → (s.gladeAt g).banks = [] → s.ctl.net.hops = [] → p.ea + p.bytes.length ≤ 0x180000 → g < 2 ^ 33 →
        ∃ u, exec (.engineAccess g q id) s = .next u ∧
          (∀ k, ∀ hk : k < p.bytes.length, u.byte (scrAt g p.ea + k) = p.bytes[k]) ∧
          (∀ a, a < scrAt g p.ea ∨ scrAt g p.ea + p.bytes.length ≤ a → u.byte a = s.byte a) ∧
          ∀ k ∈ cmdsOf u.ctl g q, k.id = id → k.puts = r ∧ k.flying = false ∧ k.off = c.off + 2 * p.bytes.length) ∧
      (∀ w, c.begun = true → c.flying = false → admits s.ctl g = true → c.puts = [] → c.fin = false → c.cut = false → c.op = .fill w →
        isMx (kFmt c.kb) = false → c.unit < kCount c.kb →
        ∃ u, exec (.engineAccess g q id) s = .next u ∧ u.mem = s.mem ∧ ∀ k ∈ cmdsOf u.ctl g q, k.id = id →
          k.unit = c.unit + 1 ∧ k.puts = [putElem' c.kb (elemStored c.kb c.unit) (w.toNat % 2 ^ kBits c.kb) false]) ∧
      (engDone c = false ∨ ((s.gladeAt g).halted = true ∧ midChunk c = false ∧ c.fin = false) →
        exec (.engineComplete g q id) s = .next s) ∧
      (engDone c = true → (s.gladeAt g).halted = false → unbound c → ∃ u, exec (.engineComplete g q id) s = .next u ∧
        u.mem = s.mem ∧ (∀ k ∈ cmdsOf u.ctl g q, k.id ≠ id) ∧
        ∀ r ∈ (u.taskAt g c.t).fl.recs, r.id = id → r.done = true ∧ r.flags = c.flags ∧ r.count = c.count)) ∧
    (∃ u, exec (.engineCommitSample g src v) s = .next u ∧ u.mem = s.mem ∧ ∀ n, src ≠ 0 →
      let H := histOf s.ctl g n
      let bin := Nat.min 15 (v / 2 ^ H.shift)
      (H.src ≠ src → histOf u.ctl g n = H) ∧
      (H.src = src → (histOf u.ctl g n).count = Nat.min (2 ^ 48 - 1) (H.count + 1) ∧ (histOf u.ctl g n).max = Nat.max H.max v ∧
        Tab.getD (histOf u.ctl g n).bins bin 0 = Nat.min (2 ^ 48 - 1) (Tab.getD H.bins bin 0 + 1) ∧
        ∀ k, k ≠ bin → Tab.getD (histOf u.ctl g n).bins k 0 = Tab.getD H.bins k 0))

/-- R196, R197, R405, R412: a round not complete by its TIMEOUT ends TIMEOUT and leaves the group stale; a message of another package
goes to the group of its partition that has its TAG and destination rank, or is counted as dropped: there a contribution joins its
round, a probe adds its rank to those heard, a report is kept for the decision, and by the result a member takes the new group or
is EXCLUDED, as is one that hears no result in time; probes go out once every TIMEOUT / 16 ticks of their phase, and the phases end
by time; a group whose member holds another TAG does not form; a guard whose record waits holds a member's messages (R383). Times
are 64-bit tick counts. Which bits a timed-out round leaves, when a FORM that waits for its members ends, and that a report is
taken in the probe phase too are the model's choice (log entries 19, 30, 65). -/
def Obligations.CollectiveRounds : Prop :=
  ∀ (g slot rank part tag dest : Nat) (heard members : List Nat) (hd : CollHdr) (el : List (BitVec 64)) (po : List Bool) (s : State),
    let group := groupOf s.ctl g slot
    let ids := members.foldl insertRank []
    let ended := fun (u : State) (c : Cmd) (flag : Nat) => ∀ k ∈ cmdsOf u.ctl g .xq, k.id = c.id →
      k.fin = true ∧ ∃ k' ∈ cmdsOf s.ctl g .xq, k'.id = c.id ∧ k.flags = k'.flags ||| flag
    let past := fun (t : Nat) (G : Group) => G.timeout ≤ sinceTick s.ctl t
    let free := fun (G : Group) => egressHeld s.ctl g G.ranks = false
    let contrib := Instr.collMessageReceive part (.contrib tag dest rank hd el po)
    let probe := Instr.reformProbeReceive part ⟨tag, dest⟩ rank
    let report := Instr.reformReportReceive part ⟨tag, dest⟩ rank heard
    let result := Instr.reformResultReceive part ⟨tag, dest⟩ members
    -- from other packages
    (memberOf s.ctl part tag dest = [] → ∀ i ∈ [contrib, probe, report, result], ∃ u, exec i s = .next u ∧ u.mem = s.mem ∧
      (u.part part).ten.gdrops = Nat.min (2 ^ 48 - 1) ((s.part part).ten.gdrops + 1)) ∧
    (∀ G, memberOf s.ctl part tag dest = [(g, slot)] → group = some G →
      (∃ u, exec contrib s = .next u ∧ u.mem = s.mem ∧
        groupOf u.ctl g slot = some { G with contribs := G.contribs ++ [⟨rank, hd, el, po⟩] }) ∧
      (∀ t h n, G.reform = .probe t h n → rank < G.nranks → ∃ u, exec probe s = .next u ∧ u.mem = s.mem ∧
        groupOf u.ctl g slot = some { G with reform := .probe t (insertRank h rank) n }) ∧
      ((∃ t h n, G.reform = .probe t h n) ∨ (∃ t h, G.reform = .report t h) → ∃ u, exec report s = .next u ∧ u.mem = s.mem ∧
        groupOf u.ctl g slot = some { G with reports := G.reports.filter (fun x => x.1 != rank) ++ [(rank, heard)] }) ∧
      (waitingResult s.ctl g slot = false → exec result s = .next s) ∧
      (∀ c, waitingResult s.ctl g slot = true → reformCmd s.ctl g slot = some c →
        (G.myrank ∈ ids → ∃ u H, exec result s = .next u ∧ groupOf u.ctl g slot = some H ∧
          u.mem = s.mem ∧ H.nranks = ids.length ∧ ids[H.myrank]? = some G.myrank ∧ H.stale = false ∧ H.contribs = [] ∧
          H.ranks = ids.map (fun r => (G.ranks[r]?).getD 0) ∧ ended u c 0 ∧
          ∀ k ∈ cmdsOf u.ctl g .xq, k.id = c.id → k.count = ids.length) ∧
        (G.myrank ∉ ids → ∃ u, exec result s = .next u ∧ groupOf u.ctl g slot = none ∧ u.mem = s.mem ∧ ended u c 1024))) ∧
    -- a member's own steps
    (group = none → ∀ i ∈ [Instr.collRoundTimeout g slot, .reformProbeSend g slot, .reformProbePhaseEnd g slot,
        .reformReportPhaseEnd g slot, .reformResultTimeout g slot], exec i s = .next s) ∧
    (∀ G, group = some G →
      (∀ c kind op root, openCmd s.ctl g slot = some c → c.op = .coll kind op root →
        (¬past c.starts G → exec (.collRoundTimeout g slot) s = .next s) ∧
        (past c.starts G → ∃ u, exec (.collRoundTimeout g slot) s = .next u ∧ u.mem = s.mem ∧
          groupOf u.ctl g slot = some { G with stale := true, contribs := [] } ∧ (ended u c 128 ∨ ended u c 136))) ∧
      (∀ c d, openCmd s.ctl g slot = some c → c.op = .form d →
        (G.clash = true → ∃ u, exec (.collRoundTimeout g slot) s = .next u ∧ u.mem = s.mem ∧ groupOf u.ctl g slot = none ∧
          ended u c 512) ∧
        (G.clash = false → G.formed.length ≠ G.nranks → ¬past c.starts G → exec (.collRoundTimeout g slot) s = .next s) ∧
        (G.clash = false → G.formed.length = G.nranks ∨ past c.starts G → ∃ u, exec (.collRoundTimeout g slot) s = .next u ∧
          u.mem = s.mem ∧ groupOf u.ctl g slot = some { G with live := true } ∧ ended u c 0 ∧
          ∀ k ∈ cmdsOf u.ctl g .xq, k.id = c.id → k.count = G.nranks)) ∧
      (∀ t h n, G.reform = .probe t h n →
        (¬past t G → exec (.reformProbePhaseEnd g slot) s = .next s) ∧
        (past t G → free G → ∃ u, exec (.reformProbePhaseEnd g slot) s = .next u ∧ u.mem = s.mem ∧
          groupOf u.ctl g slot = some { G with reform := .report s.ctl.tick h }) ∧
        (past t G ∨ (∃ k, n = some k ∧ sinceTick s.ctl k < G.timeout / 16) → exec (.reformProbeSend g slot) s = .next s) ∧
        -- a probe that is due: a member of the package that probes too hears of this one where nothing stands on the way
        (¬past t G → (∀ k, n = some k → G.timeout / 16 ≤ sinceTick s.ctl k) → free G → ∃ u, exec (.reformProbeSend g slot) s = .next u ∧
          u.mem = s.mem ∧ groupOf u.ctl g slot = some { G with reform := .probe t h (some s.ctl.tick) } ∧
          (s.ctl.model.defer = false → s.ctl.net.hops = [] → s.ctl.net.colls = [] → ∀ r < G.nranks, r ≠ G.myrank →
            let e := ((G.ranks[r]?).getD 0).toNat
            entStand e = myStand s.ctl → entPkg e = myPkg s.ctl → ∀ d, memberGlade s.ctl g e = some d →
            ∀ x ∈ rankSlots s.ctl d G.tag r, ∀ H t' h' n', groupOf s.ctl x.1 x.2 = some H → H.reform = .probe t' h' n' →
            G.myrank < H.nranks → ∃ H' h'', groupOf u.ctl x.1 x.2 = some H' ∧ H'.reform = .probe t' h'' n' ∧ G.myrank ∈ h''))) ∧
      (∀ t h, G.reform = .report t h →
        (¬past t G → exec (.reformReportPhaseEnd g slot) s = .next s) ∧
        (past t G → free G → h.head? ≠ some G.myrank → ∃ u, exec (.reformReportPhaseEnd g slot) s = .next u ∧
          u.mem = s.mem ∧ groupOf u.ctl g slot = some { G with reform := .result s.ctl.tick })) ∧
      (¬free G → ∀ i ∈ [Instr.reformProbeSend g slot, .reformProbePhaseEnd g slot, .reformReportPhaseEnd g slot],
        exec i s = .next s) ∧
      (G.reform = .idle → ∀ i ∈ [Instr.reformProbeSend g slot, .reformProbePhaseEnd g slot,
        .reformReportPhaseEnd g slot, .reformResultTimeout g slot], exec i s = .next s) ∧
      (∀ c t, G.reform = .result t → reformCmd s.ctl g slot = some c →
        (¬past t G → exec (.reformResultTimeout g slot) s = .next s) ∧
        (past t G → ∃ u, exec (.reformResultTimeout g slot) s = .next u ∧ groupOf u.ctl g slot = none ∧
          u.mem = s.mem ∧ ended u c 1024)))

/-- R335, R337, R338, R341 to R344, R347 to R351, R366, R367: the scheduler leases the first launch that fits, or stops others for
it; a lease walk takes a page's leaf, or reports the lease fault; a leased launch is dispatched onto its glades with the
tasks its ENTRYs start, and the partition's other RUNNING launches may rotate in its tick; a rotation begins at a yield point; two
equal waves complete an idle launch with status 0; LTERM and LRESUME complete one that waits, and start the end of one that runs,
LRESUME not before the fault's record is written; an ENDING launch completes once its glades have stopped, its tasks have left
their barriers and their records are written. A completion waits while the memory of its word does. Which launches are chosen and
stopped (`pick`, `preemptFor`), that a rotation begins in the tick of its yield point, and that LRESUME waits for the record are
the model's choice where R337, R338, R342 and R367 leave it open (log entries 28, 37, 96). -/
def Obligations.LaunchLifecycle : Prop :=
  ∀ (p n : Nat) (v : BitVec 64) (s : State),
    let P := s.part p
    let launch := s.launch p n
    let memWaits := s.ctl.repair.sref ≠ [] ∨ s.ctl.repair.copying ≠ none
    let completed := fun (u : State) (l : Launch) (status cause : Nat) =>
      (u.launch p n = none ∧ Tab.getD (u.part p).words n 0 = BitVec.ofNat 64 (2 ^ 63 +
        (if l.rec_.hasdl = true ∧ l.rec_.deadline < s.ctl.tick then 2 ^ 62 else 0) + l.faults % 2 ^ 16 * 2 ^ 32 + cause % 256 * 256 + status)) ∨
      (memWaits ∧ ∃ l', u.launch p n = some l' ∧ l'.fini = some (status, cause))
    -- nothing to do
    (launch = none → ∀ i ∈ [Instr.quantumExpire p n, .launchDispatch p n, .leaseWalk p n, .launchRotation p n,
      .completionWave p n, .launchEndingDone p n], exec i s = .next s) ∧
    (pick s.ctl p = none → preemptFor s.ctl p = none → exec (.schedulerEvaluate p) s = .next s) ∧
    (∀ ns, pick s.ctl p = none → preemptFor s.ctl p = some ns → ∃ u, exec (.schedulerEvaluate p) s = .next u ∧ u.mem = s.mem ∧
      ∀ k ∈ ns, ∀ l, s.launch p k = some l → u.launch p k = some { l with stopping := true, rotate := false }) ∧
    (∀ l b, pick s.ctl p = some (n, b) → launch = some l → l.st = .ready → ∃ u, exec (.schedulerEvaluate p) s = .next u ∧
      u.mem = s.mem ∧ u.launch p n = some { l with st := .leasing, walk := (0, 0), leaves := [], backfill := b }) ∧
    (∀ l, launch = some l →
      -- quantum and rotation
      (l.st ≠ .running ∨ l.quantumUp = true ∨ sinceTick s.ctl l.since < P.sched.quantum → exec (.quantumExpire p n) s = .next s) ∧
      (l.st = .running → l.quantumUp = false → P.sched.quantum ≤ sinceTick s.ctl l.since →
        ∃ u l', exec (.quantumExpire p n) s = .next u ∧ u.mem = s.mem ∧ u.launch p n = some l' ∧ l'.quantumUp = true) ∧
      (l.st ≠ .running ∨ l.yielded = false ∨ l.stopping = true → exec (.launchRotation p n) s = .next s) ∧
      (l.st = .running → l.yielded = true → l.stopping = false → l.map.length ≤ freeSlots P →
        (∀ t, l.rotated = some t → 4000000 ≤ sinceTick s.ctl t) → ∃ u, exec (.launchRotation p n) s = .next u ∧ u.mem = s.mem ∧
          u.launch p n = some { l with stopping := true, rotate := true, rotated := some s.ctl.tick }) ∧
      -- leases
      (l.st ≠ .leasing ∨ l.walked = true ∨ l.fini ≠ none ∨ P.sched.lfault.getLsbD 63 = true → exec (.leaseWalk p n) s = .next s) ∧
      (l.st = .leasing → l.walked = false → l.fini = none → P.sched.lfault.getLsbD 63 = false → ∀ sp, (spansOf l.rec_)[l.walk.1]? = some sp →
        let va := sp.va + l.walk.2 * 65536
        let leaf := (schedLeaf (Work.start s) p n va).1
        let swap := (walkerSet (schedLeaf (Work.start s) p n va).2 schedCache p (ptRoot s.ctl p) (some p) va 4 2).1
        (leaf = .error .wait → ∃ u, exec (.leaseWalk p n) s = .next u ∧ u.mem = s.mem ∧ u.launch p n = some l) ∧
        (∀ r, (∃ x, leaf = .error x ∧ x ≠ .wait ∧ r = 1) ∨ (∃ lf, leaf = .ok lf ∧ leafReason s.ctl p sp.perm va lf = some r) →
          ∃ u, exec (.leaseWalk p n) s = .next u ∧ u.mem = s.mem ∧
          u.launch p n = some l ∧ (u.part p).sched.lfva = BitVec.ofNat 64 va ∧
          (u.part p).sched.lfault = BitVec.ofNat 64 (2 ^ 63 + (r - 1) % 4 * 2 ^ 48 + sp.idx % 64 * 2 ^ 40 + n % 2 ^ 32) ∧
          ∃ e ∈ u.ctl.net.events, e.ring = some p ∧ e.d0.toNat % 256 = 3 ∧ e.d2 = BitVec.ofNat 64 va ∧ e.d3 = BitVec.ofNat 64 r) ∧
        (∀ lf, leaf = .ok lf → leafReason s.ctl p sp.perm va lf = none → ∃ u l', exec (.leaseWalk p n) s = .next u ∧
          u.launch p n = some l' ∧ l'.st = .leasing ∧ (swap = .wait → l' = l) ∧
          (swap ≠ .wait → l'.walk = (if l.walk.2 + 1 < sp.pages then (l.walk.1, l.walk.2 + 1) else (l.walk.1 + 1, 0)) ∧
            (l.walk.1 ≤ l.leaves.length → (l'.leaves[l.walk.1]?).getD [] = pieceOf lf va :: (l.leaves[l.walk.1]?).getD [])))) ∧
      -- dispatch
      (l.st ≠ .leasing ∨ l.walked = false ∨ (pick s.ctl p).map (·.1) ≠ some n → exec (.launchDispatch p n) s = .next s) ∧
      (∀ b gs im w, l.st = .leasing → l.walked = true → pick s.ctl p = some (n, b) → placement s.ctl p l.rec_ [] = some gs →
        loadImages (Work.start s) p n l.rec_ = (.ok im, w) → (∀ x ∈ im.planes, x = []) →
        ∃ u, exec (.launchDispatch p n) s = .next u ∧ u.launch p n = some { l with
            st := .running, map := mapOf gs, since := s.ctl.tick, quantumUp := false, yielded := false, backfill := b, dirty := [] } ∧
          (∀ k r, k ≠ n → s.launch p k = some r → r.st = .running → u.launch p k = some { r with yielded := true }) ∧
          ∀ lg g, gs[lg]? = some g → (u.gladeAt g).owner = some ⟨p, n, lg⟩ ∧ (u.gladeAt g).halted = false ∧
            (u.gladeAt g).ctx.eng.keys = im.keys ∧ (u.gladeAt g).ctx.eng.bufs = im.bufs ∧
            ∀ t < 16, entStart (launchEntry l.rec_ t) = true →
              let T := u.taskAt g t
              T.pc = BitVec.ofNat 64 ((launchEntry l.rec_ t).toNat / 8 % 2 ^ 49 * 8) ∧ T.regs.x = Vector.replicate 32 0 ∧
              T.sys.crd = BitVec.ofNat 64 (crdOf l.rec_ lg t) ∧ T.sys.priv = 0 ∧ T.sys.part = p ∧ T.sys.launch = n ∧
              (entSleep (launchEntry l.rec_ t) = false → T.run = .runnable)) ∧
      (∀ b gs w, l.st = .leasing → l.walked = true → pick s.ctl p = some (n, b) → placement s.ctl p l.rec_ [] = some gs →
        (loadImages (Work.start s) p n l.rec_ = (.error .wait, w) →
          ∃ u, exec (.launchDispatch p n) s = .next u ∧ u.mem = s.mem ∧ u.launch p n = some l) ∧
        (∀ x, x ≠ .wait → loadImages (Work.start s) p n l.rec_ = (.error x, w) →
          ∃ u, exec (.launchDispatch p n) s = .next u ∧ completed u l 4 0x22)) ∧
      -- the waves
      (let gs := l.map.map (·.2)
       let sent := gs.foldl (fun a g => a + (s.gladeAt g).ctx.net.sent) 0
       let recv := gs.foldl (fun a g => a + (s.gladeAt g).ctx.net.recv) 0
       l.st = .running → l.map.length = gladesOf l.rec_ →
       ((∃ g ∈ gs, gladeIdle s.ctl gs (creditStart gs.length) g = false) ∨ recordsWait s.ctl p n = true ∨ sent ≠ recv → ∃ u, exec (.completionWave p n) s = .next u ∧
         u.mem = s.mem ∧ u.launch p n = some { l with wave := none }) ∧
       ((∀ g ∈ gs, gladeIdle s.ctl gs (creditStart gs.length) g = true) → recordsWait s.ctl p n = false → sent = recv →
         (l.wave ≠ some (sent, recv) → ∃ u, exec (.completionWave p n) s = .next u ∧ u.mem = s.mem ∧
           u.launch p n = some { l with wave := some (sent, recv) }) ∧
         (l.wave = some (sent, recv) → storesDone s.ctl gs = false → exec (.completionWave p n) s = .next s) ∧
         (l.wave = some (sent, recv) → storesDone s.ctl gs = true →
           ∃ u, exec (.completionWave p n) s = .next u ∧ completed u l 0 l.cause))) ∧
      -- the ends
      (v.toNat % 2 ^ 32 = n →
        (l.st = .running → ∃ u, exec (.ltermWrite p v) s = .next u ∧ u.mem = s.mem ∧
          u.launch p n = some { l with st := .ending, endWith := 2, stopping := true }) ∧
        (l.fini ≠ none → l.st ≠ .running → exec (.ltermWrite p v) s = .next s) ∧
        (l.st ∈ [LState.waitdep, .ready, .leasing, .preempted] → l.fini = none → ∃ u, exec (.ltermWrite p v) s = .next u ∧ completed u l 2 l.cause)) ∧
      (P.sched.lfault.getLsbD 63 = true → P.sched.lfault.toNat % 2 ^ 32 = n → faultWaits s.ctl p n = true →
        exec (.lresumeWrite p v) s = .next s) ∧
      (P.sched.lfault.getLsbD 63 = true → P.sched.lfault.toNat % 2 ^ 32 = n → faultWaits s.ctl p n = false → l.st = .leasing →
        (v.getLsbD 0 = true → ∃ u, exec (.lresumeWrite p v) s = .next u ∧ completed u l 4 5 ∧
          (u.part p).sched.lfault.getLsbD 63 = false) ∧
        (v.getLsbD 0 = false → ∃ u, exec (.lresumeWrite p v) s = .next u ∧ u.mem = s.mem ∧ u.launch p n = some l ∧
          (u.part p).sched.lfault.getLsbD 63 = false)) ∧
      (l.st ≠ .ending ∨ launchAtStop s.ctl l = false → exec (.launchEndingDone p n) s = .next s) ∧
      (l.st = .ending → launchAtStop s.ctl l = true →
        (recordsWait s.ctl p n = true → ∃ u e, exec (.launchEndingDone p n) s = .next u ∧ u.mem = s.mem ∧
          u.launch p n = some { l with eprio := e } ∧
          ∀ m ∈ l.map, ∀ t T, Tab.find (s.gladeAt m.2).ctx.tasks t = some T → T.sys.launch = n → (u.taskAt m.2 t).run = .retired) ∧
        (recordsWait s.ctl p n = false → (∀ m ∈ l.map, ∀ q ∈ (s.gladeAt m.2).ctx.tasks, q.2.fl.bars = []) →
          ∃ u, exec (.launchEndingDone p n) s = .next u ∧ completed u l l.endWith l.cause))) ∧
    (P.sched.lfault.getLsbD 63 = false → exec (.lresumeWrite p v) s = .next s)

/-- R130, R335, R382 to R388: a stopped launch's glade issues no more, and a load or atomic not performed after which nothing
issued is withdrawn, its task at the instruction again; once the launch is at its stop points a glade goes out to the lowest free
save slot; when all are out the launch is PREEMPTED and its glades are free; a restored launch runs on its new glades. R369, R371:
the walker sets A or D in a leaf that still stands as it was read, or counts a walk without one; a page-vector entry enters the
glade's cache. R382: a record goes to its ring after its tick, and TAIL counts it. An access that meets a stack in self-refresh
or a unit under copy waits (R432, R436). That a save and a restore of a glade are one step each, and which accesses a stop
withdraws, are the model's choice (log entries 23, 24, 25). -/
def Obligations.Contexts : Prop :=
  ∀ (g p n va : Nat) (dirty : Bool) (ring : Option Nat) (s : State),
    let G := s.gladeAt g
    let clean := s.ctl.marks.poison = [] ∧ s.ctl.marks.latent = [] ∧ s.ctl.marks.soft = []
    (G.owner = none ∨ G.halted = true → exec (.gladeStopRequest g) s = .next s) ∧
    (G.owner = none → exec (.contextSave g) s = .next s) ∧
    (∀ o l, G.owner = some o → s.launch o.part o.launch = some l →
      (l.stopping = false → exec (.gladeStopRequest g) s = .next s ∧ exec (.contextSave g) s = .next s) ∧
      (l.stopping = true → G.halted = false → ∃ u, exec (.gladeStopRequest g) s = .next u ∧
        u.mem = s.mem ∧ (u.gladeAt g).halted = true ∧
        ∀ t x, (s.taskAt g t).fl.outs = [x] → x.store = false → x.last = true →
          (u.taskAt g t).pc = x.pc ∧ (u.taskAt g t).fl.outs = [] ∧ (u.taskAt g t).regs = (s.taskAt g t).regs) ∧
      (∀ k r, l.st = .running → l.stopping = true → l.rotate = false →
        (∀ m ∈ l.map, atStop s.ctl m.2 = true ∨ (Tab.find l.saved m.1).isSome = true) → Tab.find l.map o.lglade = some g →
        openSlots (s.part o.part) = k :: r → spanMeets s.ctl (slotAddr s.ctl o.part k) Config.slotBytes ≠ .wait → clean →
        G.ctlBad = [] → G.ctlSoft = [] → s.mem.wf = true → ∃ u l' im, exec (.contextSave g) s = .next u ∧ u.mem = s.mem ∧
          u.launch o.part o.launch = some l' ∧ Tab.find l'.saved o.lglade = some im ∧ im.slot = k ∧
          (∀ t, Tab.find im.ctx.tasks t = (Tab.find G.ctx.tasks t).map savedTask) ∧ im.ctx.eng = G.ctx.eng ∧
          (∀ off b, (off, b) ∈ im.cells ↔ off < l.rec_.live ∧ b = s.byte (scrAt g off) ∧ b ≠ 0) ∧ k ∈ (u.part o.part).slots ∧
          (l'.saved.length < l.map.length → l'.st = .running ∧ (u.gladeAt g).owner = some o) ∧
          (l.map.length ≤ l'.saved.length → l'.st = .preempted ∧ l'.stopping = false ∧
            ∀ m ∈ l.map, (u.gladeAt m.2).owner = none ∧ (u.gladeAt m.2).ctx = GladeCtx.empty)) ∧
      (∀ k r, openSlots (s.part o.part) = k :: r → spanMeets s.ctl (slotAddr s.ctl o.part k) Config.slotBytes = .wait →
        exec (.contextSave g) s = .next s)) ∧
    (∀ l, s.launch p n = some l →
      (l.st ≠ .preempted ∨ (pick s.ctl p).map (·.1) ≠ some n ∨ imagesWait s.ctl p l = true → exec (.contextRestore p n) s = .next s) ∧
      (∀ b gs, l.st = .preempted → pick s.ctl p = some (n, b) → placement s.ctl p l.rec_ [] = some gs → clean →
        (∀ x ∈ l.saved, spanMeets s.ctl (slotAddr s.ctl p x.2.slot) (imageSize l x.2) = .clear) → l.faults = 0 →
        ∃ u l', exec (.contextRestore p n) s = .next u ∧ u.launch p n = some l' ∧ l'.st = .running ∧ l'.map = mapOf gs ∧
          l'.saved = [] ∧ l'.stopping = false ∧ l'.since = s.ctl.tick ∧
          ∀ x ∈ l.saved, ∀ d, gs[x.1]? = some d → (u.gladeAt d).owner = some ⟨p, n, x.1⟩ ∧ (u.gladeAt d).halted = false)) ∧
    (let bit := if dirty = true then 5 else 4
     let leaf := (walk (Work.start s) (some schedCache) p (ptRoot s.ctl p) va).1
     (leaf = .error .wait → ∃ u, exec (.walkerSetBit p va dirty) s = .next u ∧ u.mem = s.mem ∧
       (u.part p).sched.walkerr = (s.part p).sched.walkerr) ∧
     (∀ x, x ≠ .wait → leaf = .error x → ∃ u, exec (.walkerSetBit p va dirty) s = .next u ∧ u.mem = s.mem ∧
       (u.part p).sched.walkerr = Nat.min (2 ^ 32 - 1) ((s.part p).sched.walkerr + 1)) ∧
     (∀ f, leaf = .ok f → f.e.testBit bit = true → ∃ u, exec (.walkerSetBit p va dirty) s = .next u ∧ u.mem = s.mem) ∧
     (∀ f, leaf = .ok f → f.e.testBit bit = false → pte (Work.start s) f.at_ = f.e → clean → s.ctl.marks.spans = [] →
       s.mem.wf = true → f.at_ + 8 ≤ 2 ^ 52 →
       ∃ u, exec (.walkerSetBit p va dirty) s = .next u ∧
         (List.range 8).map (fun k => u.byte (f.at_ + k)) = natLe 8 (f.e + 2 ^ bit) ∧
         ∀ a, a < f.at_ ∨ f.at_ + 8 ≤ a → u.byte a = s.byte a)) ∧
    (ownLaunch s.ctl g = none → exec (.pageVectorMiss g va) s = .next s) ∧
    (∀ l, ownLaunch s.ctl g = some l → (findExtent l false va).or (findExtent l true va) = none →
      exec (.pageVectorMiss g va) s = .next s) ∧
    (∀ l i e, ownLaunch s.ctl g = some l → (findExtent l false va).or (findExtent l true va) = some (i, e) →
      let a := e.pa + 8 * ((va - e.va) / 65536)
      (e.indexed = false → exec (.pageVectorMiss g va) s = .next s) ∧
      (devMeets s.ctl a ≠ .clear → exec (.pageVectorMiss g va) s = .next s) ∧
      (e.indexed = true → (∀ c ∈ G.pvc, c.1 ≠ a) → devMeets s.ctl a = .clear → clean → ∃ u, exec (.pageVectorMiss g va) s = .next u ∧ u.mem = s.mem ∧
        (u.gladeAt g).pvc = ((a, BitVec.ofNat 64 (pte (Work.start s) a)) :: G.pvc).take 256)) ∧
    ((∀ e ∈ s.ctl.net.events, e.ring ≠ ring) ∨ ringFull s.ctl ring = true → exec (.eventRecordWrite ring) s = .next s) ∧
    (∀ e, s.ctl.net.events.find? (fun e => decide (e.ring = ring)) = some e →
      let t := (ringTail s.ctl ring).toNat
      let a := (ringBase s.ctl ring).toNat + 32 * (t % 2 ^ ringLog s.ctl ring)
      (s.ctl.tick = e.tick ∨ devMeets s.ctl a = .wait → exec (.eventRecordWrite ring) s = .next s) ∧
      (ringFull s.ctl ring = false → s.ctl.tick ≠ e.tick → devMeets s.ctl a = .gone → ∃ u, exec (.eventRecordWrite ring) s = .next u ∧
        ringTail u.ctl ring = BitVec.ofNat 64 ((t + 1) % 2 ^ 32)) ∧
      (ringFull s.ctl ring = false → s.ctl.tick ≠ e.tick → devMeets s.ctl a = .clear → clean → s.ctl.marks.spans = [] → s.mem.wf = true →
        a + 32 ≤ 2 ^ 52 →
        ∃ u, exec (.eventRecordWrite ring) s = .next u ∧ ringTail u.ctl ring = BitVec.ofNat 64 ((t + 1) % 2 ^ 32) ∧
          (List.range 32).map (fun k => u.byte (a + k)) =
            natLe 8 e.d0.toNat ++ natLe 8 e.d1.toNat ++ natLe 8 e.d2.toNat ++ natLe 8 e.d3.toNat))

/-- R1, R27, R342, R438, R448: TICK counts one step as a 64-bit count; no register, PC or byte moves; a rail change that is under
way ends, with a droop trip that met it, and what a yield point of the tick allowed is over; a new window shifts the counts, and its
boundary is then due. A package that has lost every reference has no tick. What cycles take is left out, and the ends of the tick
are the model's choice (log entries 21, 28, 33, 97). -/
def Obligations.TimebaseTick : Prop :=
  ∀ (s : State),
    (s.ctl.power.lostRef = true → exec .tick s = .next s) ∧
    (s.ctl.power.lostRef = false → ∃ u, exec .tick s = .next u ∧ u.ctl.tick = (s.ctl.tick + 1) % 2 ^ 64 ∧
      (∀ p n, u.launch p n = (s.launch p n).map (fun l => { l with yielded := false })) ∧
      (s.ctl.elog.pend = [] → u.mem = s.mem ∧ u.ctl.elog = s.ctl.elog ∧
        (∀ g t, (u.taskAt g t).pc = (s.taskAt g t).pc ∧
          (u.taskAt g t).regs = (s.taskAt g t).regs ∧ (u.taskAt g t).sys = (s.taskAt g t).sys ∧ (u.taskAt g t).fl = (s.taskAt g t).fl) ∧
        (s.ctl.power.due = false → u.ctl.tick / 1048576 = s.ctl.power.win → ∀ g, (u.gladeAt g).power =
          match (s.gladeAt g).power.changing with
          | some b =>
            let p := { (s.gladeAt g).power with low := b, changing := none }
            if p.tripPend = true then { p with droop := Nat.max 2 p.droop, trips := Nat.min (2 ^ 48 - 1) (p.trips + 1), tripPend := false }
            else p
          | none => (s.gladeAt g).power)) ∧
      (u.ctl.tick / 1048576 ≠ s.ctl.power.win → u.ctl.power.due = true ∧ u.ctl.power.win = u.ctl.tick / 1048576))

/-- R380, R381, R383, R385, R391, R397: DBG_HALT holds the selected task with a record of kind 7 and cause 0, during a stop at the
restore; DBG_RESUME and TCMD 1 release what the debugger or the supervisor holds, the task's next instruction unchecked against
breakpoints; DBG_STEP releases an attached task for one instruction, a sleeper with STEP to come unless it is in a handler; a task
whose record waits stays held, under TCMD too (the model's choice, log entry 37); TCMD 2 retires a task that the supervisor holds,
with a record of kind 1. R390: PDATA and PARG are written at any time; an operation of the debug port is ignored while one is in
progress; RESULT is 1 without DBGAUTH, 2 for a register out of reach and for DBGAUTH, and 3 for an OP that is not assigned; its end
clears BUSY and interrupts. That an operation acts at the write of PCMD is the model's choice (log entry 48). -/
def Obligations.DebugPort : Prop :=
  ∀ (p g t : Nat) (T : Task) (c : Cause) (deb go : Bool) (op : BitVec 4) (spr : BitVec 12) (v : BitVec 64) (s : State),
    let chosen := dbgTask s.ctl
    let picked := findSel s.ctl p (s.part p).trap.tsel true
    let C := s.ctl.dbg
    let waits := selWaits s.ctl (.loaded g t, T)
    let port : (DbgCtl → DbgCtl) → Out3 := fun f => .next { s with ctl := { s.ctl with dbg := f C } }
    let stopping := (ownLaunch s.ctl g).any (·.stopping)
    let becomes := fun (i : Instr) (f : Task → Task) => ∃ u, exec i s = .next u ∧ u.mem = s.mem ∧ u.taskAt g t = f T ∧
      ∀ h k, h ≠ g ∨ k ≠ t → u.taskAt h k = s.taskAt h k
    -- DBGCMD
    (chosen = none → ∀ i ∈ [Instr.dbgHalt, .dbgResume, .dbgStep], exec i s = .next s) ∧
    (chosen = some (.loaded g t, T) →
      (T.run = .retired ∨ (T.held.map (·.dbg)) = some true → exec .dbgHalt s = .next s) ∧
      (T.run ≠ .retired → T.held = some ⟨c, true, false⟩ → stopping = false →
        becomes .dbgHalt (fun T => { T with held := some ⟨c, true, true⟩, halt := false })) ∧
      (T.run ≠ .retired → T.held = none → stopping = true → becomes .dbgHalt (fun T => { T with halt := true })) ∧
      (T.run ≠ .retired → T.held = none → stopping = false →
        becomes .dbgHalt (fun T => { T with held := some ⟨⟨0, T.pc, 0, 0, 0, false, 0⟩, false, true⟩, halt := false }) ∧
        ∃ u, exec .dbgHalt s = .next u ∧ ∃ e ∈ u.ctl.net.events, e.ring = none ∧ e.tick = s.ctl.tick ∧
          e.d0.toNat % 65536 = 7 ∧ e.d1 = T.pc) ∧
      (waits = true → exec .dbgResume s = .next s) ∧
      (waits = false → T.held = some ⟨c, false, true⟩ →
        becomes .dbgResume (fun T => { T with held := none, skipBp := true, halt := false })) ∧
      (waits = false → T.held = some ⟨c, true, true⟩ →
        becomes .dbgResume (fun T => { T with held := some ⟨c, true, false⟩, halt := false })) ∧
      (T.dbg.attach = false ∨ waits = true → exec .dbgStep s = .next s) ∧
      (T.dbg.attach = true → waits = false → T.held = some ⟨c, false, true⟩ → T.run = .runnable →
        becomes .dbgStep (fun T => { T with held := none, skipBp := true, oneStep := true })) ∧
      (∀ why, T.dbg.attach = true → waits = false → T.held = some ⟨c, false, true⟩ → T.run = .sleeping why → T.pend = none →
        becomes .dbgStep (fun T => { T with held := none, skipBp := true
                                            pend := if T.sys.inh then none else some ⟨0x10, T.pc, 0, 0, 0, false, 0⟩ }))) ∧
    -- TCMD
    (picked = none → exec (.tcmdResume p) s = .next s ∧
      ∃ u, exec (.tcmdRetire p) s = .next u ∧ u.mem = s.mem ∧ u.ctl.glades = s.ctl.glades) ∧
    (picked = some (.loaded g t, T) →
      (waits = true → exec (.tcmdResume p) s = .next s) ∧
      (waits = false → T.held = some ⟨c, true, false⟩ → becomes (.tcmdResume p) (fun T => { T with held := none, skipBp := true })) ∧
      (waits = false → T.held = some ⟨c, true, true⟩ → becomes (.tcmdResume p) (fun T => { T with held := some ⟨c, false, true⟩ })) ∧
      (waits = true ∨ T.held = none ∨ T.held = some ⟨c, false, deb⟩ → ∃ u, exec (.tcmdRetire p) s = .next u ∧ u.mem = s.mem ∧ u.ctl.glades = s.ctl.glades) ∧
      (waits = false → T.held = some ⟨c, true, deb⟩ → ∃ u, exec (.tcmdRetire p) s = .next u ∧ (u.taskAt g t).run = .retired ∧
        (u.taskAt g t).held = none ∧ ∃ e ∈ u.ctl.net.events, e.ring = (if T.sys.priv = 0 then some T.sys.part else none) ∧
          e.d0.toNat % 256 = 1 ∧ e.d0.toNat / 256 % 256 = c.code % 256 ∧ e.d1 = c.epc ∧ e.d2 = c.eaddr ∧ e.d3 = c.eval)) ∧
    -- the port
    exec (.portSprWrite (some v) none) s = port (fun d => { d with pdata := v }) ∧
    (∀ i ∈ [Instr.portHoldSet ⟨some v, false⟩, .portHoldRel ⟨some v, false⟩], exec i s = port (fun d => { d with parg := v })) ∧
    (C.pbusy = true →
      (∀ i ∈ [Instr.portSprRead ⟨op, spr⟩, .portSprWrite none (some spr), .portHoldSet ⟨none, go⟩, .portHoldRel ⟨none, go⟩], exec i s = .next s) ∧
      exec (.portSprWrite (some v) (some spr)) s = port (fun d => { d with pdata := v }) ∧
      (∀ i ∈ [Instr.portHoldSet ⟨some v, true⟩, .portHoldRel ⟨some v, true⟩], exec i s = port (fun d => { d with parg := v })) ∧
      exec .portOpComplete s = port (fun d => { d with pbusy := false, pfIrq := d.pfIrq + 1 })) ∧
    (C.pbusy = false →
      exec .portOpComplete s = .next s ∧
      (op = 0 ∨ 4 < op.toNat → exec (.portSprRead ⟨op, spr⟩) s = port (fun d => { d with pbusy := true, pres := 3 })) ∧
      (C.auth = false →
        exec (.portSprRead ⟨1, spr⟩) s = port (fun d => { d with pbusy := true, pres := 1, pdata := 0 }) ∧
        exec (.portSprWrite (some v) (some spr)) s = port (fun d => { d with pbusy := true, pres := 1, pdata := v }) ∧
        ∀ i ∈ [Instr.portHoldSet ⟨some v, true⟩, .portHoldRel ⟨some v, true⟩],
          exec i s = port (fun d => { d with pbusy := true, pres := 1, parg := v })) ∧
      (C.auth = true → portReg spr.toNat = false → exec (.portSprRead ⟨1, spr⟩) s = port (fun d => { d with pbusy := true, pres := 2 })) ∧
      (C.auth = true → portReg spr.toNat = false ∨ spr = 0x300 →
        exec (.portSprWrite (some v) (some spr)) s = port (fun d => { d with pbusy := true, pres := 2, pdata := v })) ∧
      (C.auth = true → portReg spr.toNat = true →
        exec (.portSprRead ⟨1, spr⟩) s =
          port (fun d => { d with pbusy := true, pres := 0, pdata := readFar s.ctl (portGlade s.ctl) s.ctl.psel 0 0 spr.toNat }) ∧
        (spr ≠ 0x300 → ∃ u, exec (.portSprWrite (some v) (some spr)) s = .next u ∧ u.ctl.dbg.pbusy = true ∧ u.ctl.dbg.pres = 0)) ∧
      (C.auth = true → v.getLsbD 44 = true → ∀ p ∈ [(Instr.portHoldSet ⟨some v, true⟩, true), (.portHoldRel ⟨some v, true⟩, false)],
        ∃ u, exec p.1 s = .next u ∧ u.mem = s.mem ∧ u.ctl.dbg = { C with pbusy := true, pres := 0, parg := v } ∧
          (vcBuf u.ctl (v.toNat % 256) (v.toNat / 2 ^ 32 % 32)).hold = p.2))

/-- R400 to R402, R407: PGROVES takes groves no other partition has and gives up those no launch uses, which a waiting partition
takes; PKEYS is ignored where it holds key ID 0 or runs past 4,095; VXDEST writes the entry VXSEL names; a doorbell sets the
mailbox's tail and rings its bell, and MBRING and MBLEN show the host's RINGBASE and RINGLOG; MBRESP holds RESPTAIL. The waiting
for a grove and the effect of each host write at once are the model's choice (log entries 46, 67).
R405, R408 to R410, R414: a failed port is down, and logs its event, and no word of a virtual channel is on its way through it; a
failed route of an Ethernet port loses what waits for its stand and logs its event; a port that came ready comes back; lost lanes
are shown, and retransmitted flits counted; a frame is taken only by the live Ethernet port with its addresses, IP version and UDP
port, as a message of its partition, table traffic going flit by flit from the port's die on its way; ETHMAP drops what was kept of
the map. How table traffic of other packages goes is the model's choice (log entry 71). -/
def Obligations.PartitionsAndPorts : Prop :=
  (
    ∀ (p gr : Nat) (v base : BitVec 64) (tail : BitVec 32) (log : BitVec 5) (s : State),
      let shown := fun (base : Option (BitVec 64)) (log : Option (BitVec 5)) (f : PartTen → PartTen) =>
        ∃ u, exec (.mailboxDoorbell p none base log) s = .next u ∧ u.mem = s.mem ∧ (u.part p).ten = f (s.part p).ten
      let P := (s.part p).ten
      let holds := fun (gr : Nat) => (List.range 8).any (fun k => decide (((s.gladeAt (8 * gr + k)).owner.map (·.part)) = some p))
      (∃ u, exec (.pgrovesWrite p v) s = .next u ∧ u.mem = s.mem ∧ (u.part p).ten.pgroves = BitVec.ofNat 64 (v.toNat % 2 ^ 32) ∧
        ∀ n < 32, (u.part p).ten.groves.getLsbD n = ((v.getLsbD n && (P.groves.getLsbD n || !grovesElsewhere s.ctl p n)) ||
          (P.groves.getLsbD n && !v.getLsbD n && holds n))) ∧
      (P.groves.getLsbD gr = false ∨ P.pgroves.getLsbD gr = true ∨ holds gr = true → exec (.groveRemovalEffect p gr) s = .next s) ∧
      (gr < 32 → P.groves.getLsbD gr = true → P.pgroves.getLsbD gr = false → holds gr = false → ∃ u,
        exec (.groveRemovalEffect p gr) s = .next u ∧ u.mem = s.mem ∧ (u.part p).ten.groves.getLsbD gr = false ∧
        ∀ q, q ≠ p → q ∈ s.ctl.parts.map (·.1) → (s.part q).ten.pgroves.getLsbD gr = true →
          ∃ r, r ≠ p ∧ (u.part r).ten.groves.getLsbD gr = true) ∧
      (let b := v.toNat / 2 ^ 32 % 2 ^ 12
       let n := v.toNat % 2 ^ 13
       ((b = 0 ∧ 0 < n) ∨ 4096 < b + n → exec (.pkeysWrite p v) s = .next s) ∧
       (¬((b = 0 ∧ 0 < n) ∨ 4096 < b + n) → ∃ u, exec (.pkeysWrite p v) s = .next u ∧ u.mem = s.mem ∧
         (u.part p).ten = { P with pkeys := BitVec.ofNat 64 (b * 2 ^ 32 + n) } ∧ ∀ q, q ≠ p → u.part q = s.part q)) ∧
      (∃ u, exec (.vxdestWrite p v) s = .next u ∧ u.mem = s.mem ∧
        let k := P.vxsel.toNat % 2 ^ 32 * 32 + P.vxsel.toNat / 2 ^ 32 % 32
        Tab.getD (u.part p).ten.vxdest k 0 = v &&& 0x8000000000001FFF ∧
        ∀ j, j ≠ k → Tab.getD (u.part p).ten.vxdest j 0 = Tab.getD P.vxdest j 0) ∧
      shown (some base) none (fun t => { t with mbring := BitVec.ofNat 64 (base.toNat / 4096 * 4096) }) ∧
      shown none (some log) (fun t => { t with mblen := log.setWidth 64 }) ∧
      (∃ u, exec (.mailboxDoorbell p (some tail) none none) s = .next u ∧ (u.part p).ten = { P with mbtail := tail.setWidth 64 } ∧
        let bell := P.mbbell
        let off := bell.toNat / 4 % 2 ^ 19 * 4
        let a := scrAt (256 + bell.toNat / 2 ^ 32 % 4) off
        (bell.getLsbD 63 = false ∨ 1572864 ≤ off → u.mem = s.mem) ∧
        (bell.getLsbD 63 = true → off < 1572864 → s.mem.wf = true →
          (∀ i < 4, u.byte (a + i) = BitVec.ofNat 8 (tail.toNat / 256 ^ i)) ∧
          ∀ x, x < a ∨ a + 4 ≤ x → u.byte x = s.byte x)) ∧
      (∃ u, exec (.mbrespWrite p v) s = .next u ∧ u.mem = s.mem ∧
        (u.part p).ten = { P with mbresp := BitVec.ofNat 64 (v.toNat % 2 ^ 32) } ∧ ∀ q, q ≠ p → u.part q = s.part q)
  ) ∧
  (
    ∀ (port n flits stand : Nat) (fr : EthFrame) (v : BitVec 64) (s : State),
      let L := s.ctl.links
      let ready := if port < 19 then s.ctl.boot.ports.testBit port else s.ctl.boot.villum.testBit (port - 19)
      (port ∉ L.up → exec (.linkFailure (.port port)) s = .next s ∧ exec (.liveLaneLoss port ⟨n, flits⟩) s = .next s) ∧
      (port ∉ L.up ∨ (port ≠ 16 ∧ port ≠ 17) → exec (.linkFailure (.route port stand)) s = .next s) ∧
      (port ∈ L.up → port = 16 ∨ port = 17 → ∃ u, exec (.linkFailure (.route port stand)) s = .next u ∧ u.mem = s.mem ∧ u.ctl.links = L ∧
        ⟨16 + port, 4, 0, port, false⟩ ∈ u.ctl.elog.pend ∧
        ∀ x, x ∈ u.ctl.net.colls ↔ x ∈ s.ctl.net.colls ∧ ¬(x.hop = .eth port ∧ x.home = .stand stand)) ∧
      (port ∈ L.up →
        (∃ u, exec (.linkFailure (.port port)) s = .next u ∧ (∀ x, x ∈ u.ctl.links.up ↔ x ∈ L.up ∧ x ≠ port) ∧
          ⟨16 + port, 4, 0, port, false⟩ ∈ u.ctl.elog.pend ∧ (∀ x ∈ u.ctl.net.colls, portOfHop x.hop ≠ some port) ∧
          ∀ f ∈ u.ctl.net.fly, ∀ h, f.hop = some h → portOfHop h ≠ some port) ∧
        exec (.liveLaneLoss port ⟨n, flits⟩) s = .next { s with ctl := { s.ctl with links := { L with
          lanes := Tab.set L.lanes port n, errs := Tab.set L.errs port (Nat.min (2 ^ 32 - 1) (Tab.getD L.errs port 0 + flits)) } } }) ∧
      (ready = false → exec (.portRecovery port) s = .next s) ∧
      (ready = true → ∃ u, exec (.portRecovery port) s = .next u ∧ u.mem = s.mem ∧ ∀ x, x ∈ u.ctl.links.up ↔ x ∈ L.up ∨ x = port) ∧
      (let i := port - 16
       let named := (port = 16 ∨ port = 17) ∧ port ∈ L.up ∧ fr.udp.toNat = L.ethcfg.toNat % 65536 ∧
         fr.v6 = L.ethcfg.getLsbD 16 ∧
         fr.mac.toNat = ((L.ethmac.toList[i]?).getD 0).toNat % 2 ^ 48 ∧
         fr.ip.toNat = ((L.ethip0.toList[i]?).getD 0).toNat + ((L.ethip1.toList[i]?).getD 0).toNat * 2 ^ 64
       (named →
         ((∀ k va bs, fr.msg ≠ .tableWrite k va bs) → (∀ k va len, fr.msg ≠ .tableRead k va len) →
           ∃ u, exec (.ethFrameReceive port fr) s = .next u ∧ exec (.collMessageReceive fr.part fr.msg) s = .next u) ∧
         (∀ k va bs l, fr.msg = .tableWrite k va bs → s.launch fr.part k = some l → ∃ u, exec (.ethFrameReceive port fr) s = .next u ∧
           u.mem = s.mem ∧ ∀ f ∈ flitsOf bs.length va 0 bs.length, f.2 ≤ 64 ∧ ∀ x,
             checkLaunch (Work.start s) (((l.map.head?).map (·.2)).getD 0) l (va + f.1) .write = .ok x →
             ∃ q, q.acc = .write ((bs.drop f.1).take f.2) ∧ q.addr = x.addr ∧ q ∈ hopReqs u.ctl.net (.dieSwitch (if port = 16 then 0 else 3)) (homeOf s.ctl q))) ∧
       (¬named → exec (.ethFrameReceive port fr) s = .next s)) ∧
      exec (.ethmapWrite v) s = .next { s with ctl := { s.ctl with links := { L with
        ethmap := BitVec.ofNat 64 (v.toNat / 4096 % 2 ^ 40 * 4096), ethcache := [] } } }
  )

/-- R429, R431, R432, R434, R436, R437: ELOGPOP drops the head record, a write of EFIRST clears it; a retirement copies from
the top unit downward, marks a unit UNDER-COPY once no bridge holds one of its requests and no access to it is performed in part,
then lowers FRONTIER past it, by which the replay queues release what they hold, and ends with the stack retired and an event of type 10; it waits at a stack in self-refresh; a
capacity message is kept; entering and leaving self-refresh log types 7 and 8. -/
def Obligations.Repairs : Prop :=
  ∀ (k cap : Nat) (s : State),
    let E := s.ctl.elog
    let R := s.ctl.repair
    let mended := fun (f : Repair → Repair) => { s with ctl := { s.ctl with repair := f R } }
    exec .elogpop s = .next { s with ctl := { s.ctl with elog := { E with recs := E.recs.tail } } } ∧
    exec .efirstClear s = .next { s with ctl := { s.ctl with elog := { E with first := 0 } } } ∧
    exec (.capacityMessageReceive k cap) s = .next (mended (fun r => { r with peerCap := Tab.set r.peerCap k cap })) ∧
    (let asleep := ∃ n, n < 12 ∧ R.live.testBit n = true ∧ n ∈ R.sref
     let inUnit := fun (q : Req) => q.addr % 2 ^ 44 / 2 ^ 20 = R.frontier - 1
     let busy := (∃ b ∈ s.ctl.net.bridges, b.1 < 12 ∧ ∃ q ∈ b.2.fifo, inUnit q) ∨
       ∃ q ∈ routed s.ctl, ownDev s.ctl q.addr = true ∧ inUnit q ∧ partDone s.ctl q = true
     (R.phaseAct = false ∨ asleep → exec .retireUnitCopy s = .next s) ∧
     (R.phaseAct = true → ¬asleep → 0 < R.frontier →
       (R.copying = none → busy → exec .retireUnitCopy s = .next s) ∧
       (R.copying = none → ¬busy →
         exec .retireUnitCopy s = .next (mended (fun r => { r with copying := some (r.frontier - 1) }))) ∧
       (∀ c, R.copying = some c → ∃ u, exec .retireUnitCopy s = .next u ∧ u.mem = s.mem ∧ u.ctl.repair.frontier = R.frontier - 1 ∧
         u.ctl.repair.copying = none ∧ u.ctl.net = s.ctl.net ∧
         (1 < R.frontier → u.ctl.repair.phaseAct = true ∧ u.ctl.repair.live = R.live) ∧
         (R.frontier = 1 → u.ctl.repair.phaseAct = false ∧ u.ctl.repair.rstate = false ∧
           R.rstack ∉ u.ctl.repair.sref ∧ (∀ n, u.ctl.repair.live.testBit n = (R.live.testBit n && decide (n ≠ R.rstack))) ∧
           ⟨48, 10, capacity u.ctl, R.rstack, false⟩ ∈ u.ctl.elog.pend)))) ∧
    (R.live.testBit k = false ∨ k ∈ R.sref → exec (.srefEnter k) s = .next s) ∧
    (R.live.testBit k = true → k ∉ R.sref → ∃ u, exec (.srefEnter k) s = .next u ∧ u.mem = s.mem ∧
      (∀ n, n ∈ u.ctl.repair.sref ↔ n = k ∨ n ∈ R.sref) ∧ ⟨k, 7, 0, k, false⟩ ∈ u.ctl.elog.pend) ∧
    (k ∉ R.sref → exec (.srefExit k) s = .next s) ∧
    (k ∈ R.sref → ∃ u, exec (.srefExit k) s = .next u ∧ u.mem = s.mem ∧
      (∀ n, n ∈ u.ctl.repair.sref ↔ n ≠ k ∧ n ∈ R.sref) ∧ ⟨k, 8, 0, k, false⟩ ∈ u.ctl.elog.pend)

/-- R438 to R445, R448, R317: RAILREQ is kept; at a window boundary a LOW request is granted where the last window's corrected
errors are below CETHR and no bar holds, else DENIED; a change ends at its rail; droop trips, escalates and releases its
level, a trip during a change of rail once that is over (the model's choice of tick: log entry 97); the spare takes over once, and without a reference every glade stops; a temperature at the limit expires a die's
tiles; thermal and power levels go up and down by one. -/
def Obligations.RailsAndPower : Prop :=
  ∀ (g d tj watts : Nat) (adv : Fin 3) (v : BitVec 64) (s : State),
    let P := (s.gladeAt g).power
    let W := s.ctl.power
    let rail := fun (i : Instr) (f : Power → Power) => ∃ u, exec i s = .next u ∧ u.mem = s.mem ∧
      u.gladeAt g = { s.gladeAt g with power := f P } ∧ ∀ h, h ≠ g → u.gladeAt h = s.gladeAt h
    let tripped := fun (p : Power) =>
      { p with droop := Nat.max 2 p.droop, trips := Nat.min (2 ^ 48 - 1) (p.trips + 1), tripPend := false }
    let back := if P.low = true ∨ P.changing = some true then some false else P.changing
    -- rails
    (256 ≤ g → exec (.railreqWrite g v) s = .next s ∧ exec (.railWindowBoundary g) s = .next s) ∧
    (g < 256 → v.getLsbD 0 = true → rail (.railreqWrite g v) (fun p => { p with lowReq := true })) ∧
    (g < 256 → v.getLsbD 0 = false → rail (.railreqWrite g v) (fun p => { p with lowReq := false, changing := back })) ∧
    (W.due = false → exec (.railWindowBoundary g) s = .next s) ∧
    (g < 256 → W.due = true →
      (P.lowReq = false → rail (.railWindowBoundary g) id) ∧
      (P.lowReq = true → barLeft s.ctl.tick P = 0 → P.ceLast < W.cethr → rail (.railWindowBoundary g) (fun p =>
        { p with denied := false, changing := if p.low = true then p.changing else some true })) ∧
      (P.lowReq = true → barLeft s.ctl.tick P ≠ 0 ∨ W.cethr ≤ P.ceLast → rail (.railWindowBoundary g) (fun p =>
        { p with denied := true, changing := back }))) ∧
    (∀ b, P.changing = some b → P.tripPend = false → rail (.railChangeDone g) (fun p => { p with low := b, changing := none })) ∧
    (∀ b, P.changing = some b → P.tripPend = true → rail (.railChangeDone g) (fun p =>
      tripped { p with low := b, changing := none })) ∧
    -- droop
    (P.changing = none → rail (.droopTrip g) tripped) ∧
    (P.changing ≠ none → rail (.droopTrip g) (fun p => { p with tripPend := true })) ∧
    rail (.droopEscalate g) (fun p => { p with droop := if 2 ≤ p.droop then 3 else p.droop }) ∧
    rail (.droopRelease g) (fun p => { p with droop := p.droop - 1 }) ∧
    -- references
    (W.spare = true ∨ W.spareOk = false → exec (.referenceFailover adv) s = .next s) ∧
    (W.spare = false → W.spareOk = true → ∃ u, exec (.referenceFailover adv) s = .next u ∧ u.mem = s.mem ∧
      u.ctl.tick = (s.ctl.tick + adv.val) % 2 ^ 64 ∧ u.ctl.power.spare = true ∧
      u.ctl.power.failovers = Nat.min (2 ^ 32 - 1) (W.failovers + 1) ∧ (∀ h t, u.taskAt h t = s.taskAt h t) ∧
      (u.ctl.tick / 1048576 ≠ W.win → u.ctl.power.due = true) ∧
      (W.due = false → u.ctl.tick / 1048576 = W.win → ∀ h, u.gladeAt h = s.gladeAt h)) ∧
    (∃ u, exec .referenceLoss s = .next u ∧ u.mem = s.mem ∧ u.ctl.power = { W with lostRef := true, spareOk := false } ∧
      ∀ h ∈ s.ctl.glades.map (·.1), u.gladeAt h = { s.gladeAt h with halted := true }) ∧
    -- temperature and power
    (4 ≤ d → exec (.thermalReading d tj) s = .next s) ∧
    (∀ h : d < 4, ∃ u, exec (.thermalReading d tj) s = .next u ∧ u.mem = s.mem ∧ u.ctl.power.tj = W.tj.set d tj ∧
      u.ctl.power.thermal = W.thermal.set d (if 95 ≤ tj then 3 else if tj + 5 < W.tthr then W.thermal[d] - 1
        else if W.tthr ≤ tj then Nat.min 3 (W.thermal[d] + 1) else W.thermal[d]) ∧
      (tj < 95 → ∀ h, u.gladeAt h = s.gladeAt h) ∧
      (95 ≤ tj → u.ctl.power.fxtick = W.fxtick.set d s.ctl.tick ∧ ⟨40 + d, 6, 0, s.ctl.tick, false⟩ ∈ u.ctl.elog.pend ∧
        ∀ h < 256, (h / 64 = d → (u.gladeAt h).ctx.births = []) ∧ (h / 64 ≠ d → u.gladeAt h = s.gladeAt h))) ∧
    exec (.powerAverage watts) s = .next { s with ctl := { s.ctl with power := { W with
      pwrnow := watts % 65536
      power := if W.plimit < watts then Nat.min 3 (W.power + 1) else if watts * 100 < 95 * W.plimit then W.power - 1 else W.power } } }

/-- R447, R449 to R453: power-on empties every store of the device, gives every key ID a fresh key and leaves every function to
its self-test, which sets its READY bit; the host writes BOOTADDR and BOOTLEN, and BOOTGO starts the sequence on them, until an image
runs; the image is staged at address 0 and checked there; one that passes is measured and starts the monitor's tasks, one that fails
shows its CODE, 7 where the management glades disagree; SVCMD starts tasks of the management glades in slots that hold none, and
retires them; MPTROOT drops the monitor's cached walks. What power-on leaves empty, whether the host read fails, what the hash and
the signature check come to, that an image above 64 MiB ends with CODE 3, that SVCMD 3 writes no record and that the walks are
dropped at once are the model's choice (log entries 1, 15, 16, 42, 43, 44). -/
def Obligations.BootAndService : Prop :=
  ∀ (i : Nat) (addr v : BitVec 64) (len : BitVec 32) (s : State),
    let B := s.ctl.boot
    let X := s.ctl.sec
    let booted : (Boot → Boot) → Out3 := fun f => .next { s with ctl := { s.ctl with boot := f B } }
    let pkg := s.ctl.links.pkgid.toNat / 2 ^ 24 % 256 * 2 ^ 44
    (∃ u, exec .powerOn s = .next u ∧ u.ctl.parts = State.reset.ctl.parts ∧ u.ctl.glades = State.reset.ctl.glades ∧
      u.ctl.tick = 0 ∧ u.ctl.boot.glades = Vector.replicate 4 0 ∧ u.ctl.boot.mgmt = 0 ∧ u.ctl.boot.ports = 0 ∧
      u.ctl.boot.code = 0 ∧ u.ctl.links.up = [] ∧ u.ctl.repair.live = 0 ∧
      (∀ k < 4096, keyVal u.ctl k = .fresh (X.fresh + k)) ∧
      (∀ a, pkg ≤ a → a < pkg + 2 ^ 44 → u.byte a = 0) ∧ (∀ a, 2 ^ 54 ≤ a → a < 2 ^ 54 + 2 ^ 57 → u.byte a = 0) ∧
      ∀ a, 2 ^ 52 ≤ a → a < 2 ^ 54 → u.byte a = s.byte a) ∧
    (let set := fun (v k : Nat) => if v.testBit k = true then v else v + 2 ^ k
     (∀ h : i / 64 < 4, exec (.selfTestPass (.glade i)) s =
       booted (fun b => { b with glades := b.glades.set (i / 64) (b.glades[i / 64] ||| (1#64 <<< (i % 64))) })) ∧
     (i < 4 → exec (.selfTestPass (.mgmt i)) s = booted (fun b => { b with mgmt := set b.mgmt i })) ∧
     (i < 12 → exec (.selfTestPass (.stack i)) s = .next { s with ctl := { s.ctl with
       boot := { B with hbms := set B.hbms i }, repair := { s.ctl.repair with live := set s.ctl.repair.live i } } }) ∧
     (i < 19 → ∃ u, exec (.selfTestPass (.port i)) s = .next u ∧ u.ctl.boot = { B with ports := set B.ports i } ∧
       ∀ x, x ∈ u.ctl.links.up ↔ x = i ∨ x ∈ s.ctl.links.up) ∧
     (i < 4 → ∃ u, exec (.selfTestPass (.villum i)) s = .next u ∧ u.ctl.boot = { B with villum := set B.villum i } ∧
       ∀ x, x ∈ u.ctl.links.up ↔ x = 19 + i ∨ x ∈ s.ctl.links.up) ∧
     (i < 2 → ∃ u, exec (.selfTestPass (.ref i)) s = .next u ∧ u.ctl.boot = { B with refs := set B.refs i })) ∧
    (∀ x go, B.code = 2 ∨ B.ports.testBit 18 = false → exec (.bootgo x go) s = .next s) ∧
    (B.code ≠ 2 → B.ports.testBit 18 = true →
      exec (.bootgo ⟨some addr, none⟩ none) s = booted (fun b => { b with bootaddr := BitVec.ofNat 64 (addr.toNat / 4096 * 4096) }) ∧
      exec (.bootgo ⟨none, some len⟩ none) s = booted (fun b => { b with bootlen := len.toNat }) ∧
      (v.getLsbD 0 = true → B.code ≠ 1 →
        exec (.bootgo ⟨none, none⟩ (some v)) s = booted (fun b => { b with code := 1, load := (b.bootaddr, b.bootlen) }) ∧
        let base := BitVec.ofNat 64 (addr.toNat / 4096 * 4096)
        exec (.bootgo ⟨some addr, some len⟩ (some v)) s =
          booted (fun b => { b with bootaddr := base, bootlen := len.toNat, code := 1, load := (base, len.toNat) })) ∧
      (v.getLsbD 0 = false ∨ B.code = 1 → exec (.bootgo ⟨none, none⟩ (some v)) s = .next s)) ∧
    (B.code ≠ 1 ∨ B.mgmt = 0 → exec .bootVerifyDone s = .next s) ∧
    (B.code = 1 → B.mgmt ≠ 0 → Config.hostReadFails s.ctl.model.nonce = true →
      ∃ u, exec .bootVerifyDone s = .next u ∧ u.mem = s.mem ∧ u.ctl.boot = { B with code := 6 }) ∧
    (B.code = 1 → (∃ d < 4, B.mgmt.testBit d = true) → Config.hostReadFails s.ctl.model.nonce = false →
      s.ctl.marks.poison = [] → s.ctl.marks.latent = [] → s.ctl.marks.soft = [] → s.ctl.marks.spans = [] → s.mem.wf = true →
      B.load.1.toNat + B.load.2 ≤ 2 ^ 52 → B.load.2 ≤ 2 ^ 26 →
      let n := B.load.2
      let image := (List.range n).map (fun k => s.byte (hostAt B.load.1.toNat + k))
      let passes := imageCode n image = 2 ∧ Config.gladesAgree s.ctl.model.nonce = true
      (∃ u, exec .bootVerifyDone s = .next u ∧ (List.range n).map (fun k => u.byte (pkg + k)) = image ∧
        (imageCode n image ≠ 2 → u.ctl.boot.code = imageCode n image) ∧
        (imageCode n image = 2 → u.ctl.boot.code = if Config.gladesAgree s.ctl.model.nonce = true then 2 else 7) ∧
        (¬passes → u.ctl.boot.meas = B.meas ∧ ∀ d t, u.taskAt (256 + d) t = s.taskAt (256 + d) t) ∧
        (passes → u.ctl.boot.svn = leNat ((image.drop 4).take 4) ∧
          (let h := (Config.sha256 (image.take (64 + leNat ((image.drop 8).take 8)))).toNat
           u.ctl.boot.meas.toList = (List.range 4).map (fun k => BitVec.ofNat 64 (h / 2 ^ (64 * k)))) ∧
          ∀ d < 4, B.mgmt.testBit d = true →
            u.taskAt (256 + d) 0 = mgmtTask 2 0 (BitVec.ofNat 64 (64 + leNat ((image.drop 16).take 8)))))) ∧
    (let d := X.svsel.toNat / 2 ^ 32 % 4
     let t := X.svsel.toNat % 16
     let T := s.taskAt (256 + d) t
     let running := T.run ≠ .free ∧ T.run ≠ .retired
     (∀ q ∈ [(Instr.svcmdStartSupervisor, 1), (.svcmdStartMonitor, 2)],
       (B.mgmt.testBit d = false → exec q.1 s = .next { s with ctl := { s.ctl with sec := { X with svRes := 2 } } }) ∧
       (B.mgmt.testBit d = true → slotBusy s.ctl (256 + d) t = true → exec q.1 s = .next { s with ctl := { s.ctl with sec := { X with svRes := 1 } } }) ∧
       (B.mgmt.testBit d = true → slotBusy s.ctl (256 + d) t = false → ∃ u, exec q.1 s = .next u ∧ u.mem = s.mem ∧ u.ctl.sec = { X with svRes := 0 } ∧
         let U := u.taskAt (256 + d) t
         U.pc = X.svpc ∧ U.run = .runnable ∧ U.sys.priv = q.2 ∧ U.sys.part = (if q.2 = 1 then X.svsel.toNat / 2 ^ 8 % 32 else 0) ∧
         U.regs.x = Vector.replicate 32 0)) ∧
     (¬running → exec .svcmdRetire s = .next { s with ctl := { s.ctl with sec := { X with svRes := 3 } } }) ∧
     (running → ∃ u, exec .svcmdRetire s = .next u ∧ u.mem = s.mem ∧ u.ctl.sec = { X with svRes := 0 } ∧ (u.taskAt (256 + d) t).run = .retired)) ∧
    (∃ u, exec (.mptrootWrite v) s = .next u ∧ u.mem = s.mem ∧ u.ctl.sec =
      { X with mptroot := BitVec.ofNat 64 (v.toNat / 65536 % 2 ^ 36 * 65536) } ∧ (∀ g t, u.taskAt g t = s.taskAt g t) ∧
      ∀ g, (u.gladeAt g).tlb = (s.gladeAt g).tlb.filter (fun x => x.part.isSome) ∧
        (u.gladeAt g).wcache = (s.gladeAt g).wcache.filter (fun x => x.1 != monTree))

/-- R452, R454 to R457: PMLOCK 0 zeroes the partition's measurement; ATTCMD captures a report's fields, and the report is written
with its signature, or RESULT says why not; KDATA fills word after word; a key command is refused for key ID 0 and ignored
while one is busy, and its key changes when it completes, an installed one's KDATA zeroed. The signature and whether an identity
is derived are free values; that RESULT 2 comes before RESULT 1, and that KCMD 1 takes KDATA as it stands at the command, are the
model's choice (log entries 15, 41, 45). -/
def Obligations.AttestationAndKeys : Prop :=
  ∀ (v : BitVec 64) (s : State),
    let B := s.ctl.boot
    let X := s.ctl.sec
    let P := s.part B.pmsel
    let sec : (Secure → Secure) → Out3 := fun f => .next { s with ctl := { s.ctl with sec := f X } }
    (∃ u, exec (.pmlockWrite v) s = .next u ∧ u.mem = s.mem ∧ (∀ q, q ≠ B.pmsel → u.part q = s.part q) ∧
      u.part B.pmsel = (if v.getLsbD 0 = true then { P with pmlock := true }
        else { P with pmlock := false, pmeas := Vector.replicate 4 0 })) ∧
    (v.getLsbD 63 = false ∨ X.attBusy ≠ none → exec (.attcmdGo v) s = .next s) ∧
    (v.getLsbD 63 = true → X.attBusy = none →
      exec (.attcmdGo v) s = sec (fun x => { x with attBusy := some (reportBody s.ctl (v.toNat % 32)), attDone := false })) ∧
    (X.attBusy = none → exec .attestReportDone s = .next s) ∧
    (∀ l, X.attBusy = some l →
      (B.idValid = false → exec .attestReportDone s = sec (fun x => { x with attBusy := none, attRes := 2 })) ∧
      (B.idValid = true → capacity s.ctl < X.attaddr.toNat + 7992 →
        exec .attestReportDone s = sec (fun x => { x with attBusy := none, attRes := 1 })) ∧
      (B.idValid = true → X.attaddr.toNat + 7992 ≤ capacity s.ctl → s.ctl.marks.spans = [] → s.ctl.marks.poison = [] →
        s.ctl.marks.latent = [] → s.ctl.marks.soft = [] → s.mem.wf = true → l.length = 136 → ∃ u, exec .attestReportDone s = .next u ∧
          u.ctl.sec = { X with attBusy := none, attRes := 0, attDone := true } ∧
          ∀ k < 7992, u.byte (s.ctl.links.pkgid.toNat / 2 ^ 24 % 256 * 2 ^ 44 + X.attaddr.toNat + k) =
            if k < 136 then l.getD k 0 else Config.slhSign l (k - 136))) ∧
    (let k := X.ksel.toNat % 8
     ∃ u, exec (.kdataWrite v) s = .next u ∧ u.mem = s.mem ∧ u.ctl.sec.kdata.toList = X.kdata.toList.set k v ∧
       u.ctl.sec.ksel.toNat = X.ksel.toNat / 8 * 8 + (k + 1) % 8 ∧ u.ctl.sec.keys = X.keys) ∧
    (let id := X.ksel.toNat / 2 ^ 16 % 2 ^ 12
     (X.kBusy ≠ none → exec .kcmdInstall s = .next s ∧ exec .kcmdRandom s = .next s) ∧
     (X.kBusy = none → id = 0 → exec .kcmdInstall s = sec (fun x => { x with kRes := 1 }) ∧
       exec .kcmdRandom s = sec (fun x => { x with kRes := 1 })) ∧
     (X.kBusy = none → id ≠ 0 →
       exec .kcmdInstall s = sec (fun x => { x with kBusy := some (id, kdataKey X) }) ∧
       exec .kcmdRandom s = sec (fun x => { x with kBusy := some (id, .fresh X.fresh), fresh := x.fresh + 1 }))) ∧
    (X.kBusy = none → exec .kcmdDone s = .next s) ∧
    (∀ k q, X.kBusy = some (k, q) → ∃ u, exec .kcmdDone s = .next u ∧ u.mem = s.mem ∧ keyVal u.ctl k = q ∧
      (∀ j, j ≠ k → keyVal u.ctl j = keyVal s.ctl j) ∧ u.ctl.sec.kBusy = none ∧ u.ctl.sec.kRes = 0 ∧
      ((∃ w, q = .installed w) → u.ctl.sec.kdata = Vector.replicate 8 0) ∧ ((∃ n, q = .fresh n) → u.ctl.sec.kdata = X.kdata))

/-- R8, R315, R353, R437, R446, R447: what reset leaves, where the spec gives a value: TICK has counted nothing, no glade holds a
task, the registers of a partition and of the package hold their Reset column, memory lists nothing and keeps its form. That
every function has passed its self-test, that an unwritten byte reads 0, that TICK starts at 0 and that no slot holds a task are
the model's choice (log entries 1, 3, 4, 5). -/
def Obligations.ResetValues : Prop :=
  let s := State.reset
  s.MemOk ∧ s.mem = [] ∧ s.ctl.tick = 0 ∧
  (∀ g, (s.gladeAt g).owner = none ∧ (s.gladeAt g).halted = false ∧ (s.gladeAt g).banks = [] ∧ (s.gladeAt g).mons = [] ∧
    (s.gladeAt g).power = { low := false, lowReq := false, barTo := 0, denied := false, ceLast := 0, ceCur := 0,
                            changing := none, droop := 0, trips := 0 } ∧ ∀ t, (s.taskAt g t).run = .free) ∧
  (∀ p, let P := s.part p
    P.launches = [] ∧ P.sched.next = 1 ∧ P.sched.quotaDepth = 256 ∧ P.sched.quotaLevel = 11 ∧ P.sched.quotaGlades = 256 ∧
    P.sched.weight = 1 ∧ P.sched.quantum = 500000 ∧ P.sched.ptroot = 0 ∧ P.sched.lfault = 0 ∧ P.ten.pgroves = 0 ∧
    P.ten.pkeys = 0 ∧ P.pmlock = false) ∧
  s.ctl.psel = 0 ∧ s.ctl.dbg.auth = false ∧ s.ctl.dbg.pbusy = false ∧ s.ctl.elog.nextseq = 1 ∧ s.ctl.elog.recs = [] ∧
  s.ctl.elog.first = 0 ∧ s.ctl.repair.frontier = 0 ∧ s.ctl.repair.rstate = false ∧ s.ctl.repair.sref = [] ∧
  s.ctl.power.cethr = 4 ∧ s.ctl.power.tthr = 90 ∧ s.ctl.power.plimit = 3200 ∧ s.ctl.power.spare = false ∧
  s.ctl.power.failovers = 0 ∧ s.ctl.boot.code = 0 ∧ s.ctl.boot.svn = 0 ∧ s.ctl.sec.mptroot = 0 ∧ s.ctl.sec.kBusy = none

/-- R285, and the model's invariant (log entry 8): every step of the machine answers a next state, whatever its state is, and keeps
memory in its canonical form: addresses rise, and no cell holds what an unlisted location reads as. -/
def Obligations.StepKeepsMemOk : Prop :=
  ∀ (s : State), ∃ t, step s = .next t ∧ (s.MemOk → t.MemOk)

/-- R78, R79, R90 to R93: decoding the words of a well-formed instruction gives it back, with every operand at every value its
encoding admits; a bundle's second word stands in its own place, and the word after any other instruction does not matter. -/
def Obligations.EncodeDecode : Prop :=
  ∀ (i : Instr) (n : Word), i.wf = true → decode (wordsOf i n).1 (wordsOf i n).2 = .ok i

/-- R106, R108, R111, R125, R143, R149, R175, R200, R211, R225: words the spec writes out stand for the instructions it names. -/
def Obligations.DecodeWords : Prop :=
  let m0 : Marks := ⟨0, false⟩
  let m7 : Marks := ⟨7, false⟩
  ∀ p ∈ [
    (0x01E0000000000000#64, Instr.nop m7 0),
    (0x1101C300FFFFFFFB#64, .addi m0 7 3 0xFFFFFFFB#32),
    (0x1020C10800100000#64, .sub ⟨1, false⟩ 3 1 2),
    (0x1420400000000005#64, .movi ⟨1, false⟩ 1 5),
    (0x20114010FFFFFFFD#64, .bne ⟨0, true⟩ 5 0 0xFFFFFFFD#32),
    (0x300242F040000040#64, .ldD m0 9 2 .flt 0 .acq 64),
    (0x5208E18A48000000#64, .vfma m0 .f .rne 3 1 2 4),
    (0x5609238804000000#64, .vscan m0 .i32 .add 4 3 (some 2)),
    (0x7000100110080001#64, .mma m0 true 0x010 0x011 0x008),
    (0x4001461C04330000#64, .amoAdd m0 true 5 6 7 .scr 0 .acqrel),
    (0x3601430000200000#64, .fclaim m0 5 3),
    (0x82E0000000003012#64, .collgrpReform m7 2 12),
    (0x95E0000000000000#64, .exit m7),
    (0xA201400400000000#64, .sprr m0 5 0x040),
    (0xABE0031000100000#64, .pctrSel m7 3 4)],
    decode p.1 0 = .ok p.2

/-- R79, R86, R102: when the other agents have nothing to bring and it is the hinge cores' turn, the step runs the instruction that
stands at the PC of the slot R86 picks on the first glade in turn: `step` is `exec` of it, on the state where its fetch has
been done and the task's GAP promises count one instruction on, and then what the slots that were not ready have noted, the ages,
the run of the slot and STEP. A slot is ready where trying its instruction issues; no key or register it needs is then on its way.
The order of the agents' turns is the model's choice (log entry 9). A P2 task with MPTROOT 0 fetches the sixteen bytes at its package's address of the PC. -/
def Obligations.StepRunsDecoded : Prop :=
  ∀ (s : State) (g nextGlade t : Nat) (rest : List (Nat × Nat)) (i : Instr),
    let w := select (Work.start s) g t
    let T := s.taskAt g t
    let w2 := (fetch w).2
    let ready := ((tries s g).filter (fun r => issued r.2)).map (·.1)
    let s1 := (beginIssue w2).doneIn s
    let at_ := s.ctl.links.pkgid.toNat / 2 ^ 24 % 256 * 2 ^ 44 + T.pc.toNat
    (s.ctl.power.lostRef = false → s.ctl.model.agenda = [] → s.ctl.model.nonce % 4 < 2 → gladeTurns s.ctl = (g, nextGlade) :: rest →
      pickSlot (s.gladeAt g).ctx ready = some t → (fetch w).1 = .instr i → inFlight T i = false → s.CtlGood g (ctlOf w2 i) →
      ∃ u, exec i s1 = .next u ∧ step s = .next (u.after (fun w =>
        endIssue ((tries s g).foldl (noteTry g) w) ready (goesOn (s.gladeAt g).ctx t) nextGlade))) ∧
    (T.sys.priv = 2 → s.ctl.sec.mptroot = 0 → T.pc.toNat + 16 ≤ capacity s.ctl → (∀ b ∈ T.dbg.bpa.toList, b.getLsbD 0 = false) →
     s.ctl.marks.poison = [] → s.ctl.marks.latent = [] → s.ctl.marks.soft = [] → s.ctl.marks.spans = [] →
     devMeets s.ctl at_ = .clear → devMeets s.ctl (at_ + 8) = .clear →
     decodeBytes ((List.range 16).map (fun k => s.byte (at_ + k))) = .ok i → (fetch w).1 = .instr i)

/-- R56, R144 to R148: in every state a vector function, compare, select or conversion completes in its one instruction: it
writes v[D] and no other register, and only a conversion touches SAT, CLAMP or the generator. R137 to R139: on lanes whose offsets
are aligned and inside the own scratchpad, with nothing of the task on its way, VGATH completes with each lane's bytes in v[D] and 0
in a lane whose offset is all ones, and VSCAT with one store a lane in ascending order behind what SQ(t) holds. R213, R214, R222: in
every state FENCE, FENCEQ and SBAR complete with no register and no byte changed, the `.W` forms with the task waiting for the entry
where the mask names a queue. R296: an entry whose commands have left and whose stores are performed is released. -/
def Obligations.VectorAndFenceForms : Prop :=
  ∀ (m : Marks) (lw : LaneW) (ty : LaneTy) (cond : VCond) (pair : BitVec 4) (rm : Rnd) (nan : Bool) (d a b c : VReg) (x : XReg)
    (sz : Size) (sc mask3 : BitVec 3) (mask : BitVec 10) (id : Nat) (f : Fence) (s : State),
    let n := sizeOfSz sz
    let on := s.lanesOn x b
    let went := fun (u : State) => u.pc = s.pc + 8 ∧ u.mem = s.mem ∧ u.regs = s.regs ∧ u.sys = s.sys
    let vector := fun (i : Instr) => ∃ u, exec i s = .next u ∧ OnlyMine s u ∧ u.pc = s.pc + 8 ∧ u.mem = s.mem ∧
      (∀ j, j ≠ d → u.v j = s.v j) ∧ (∀ j, u.x j = s.x j) ∧ (∀ j, u.q j = s.q j) ∧ u.regs.loops = s.regs.loops ∧
      u.task.fl.outs.map (·.id) = s.task.fl.outs.map (·.id) ∧ u.task.run = s.task.run
    (∀ i ∈ [Instr.vrcp m d a, .vrsq m d a, .vexp2 m d a, .vlog2 m d a, .vcmp m ty cond d a b, .vsel m lw d a b c],
      vector i ∧ ∃ u, exec i s = .next u ∧ u.sys = s.sys ∧ u.regs.rng0 = s.regs.rng0 ∧ u.regs.rng1 = s.regs.rng1) ∧
    vector (.vcvt m pair rm nan d a x) ∧
    (s.Quiet → s.Clear → sz ≠ .dword → (∀ l ∈ on, l.2.toNat % n = 0 ∧ l.2.toNat < 0x180000) →
      (∃ u, exec (.vgath m d x b .scr sz) s = .next u ∧ u.pc = s.pc + 8 ∧ u.mem = s.mem ∧ (∀ j, j ≠ d → u.v j = s.v j) ∧
        (∀ l ∈ on, lane 32 (u.v d) l.1 = leNat (s.scr l.2.toNat n)) ∧
        ∀ i < 64, (∀ l ∈ on, l.1 ≠ i) → lane 32 (u.v d) i = 0) ∧
      ∃ u, exec (.vscat m d x b .scr sz) s = .next u ∧ went u ∧
        u.task.fl.sq.map (fun e => e.reqs.map (fun r => (r.addr, r.acc))) =
          on.map (fun l => [(scrAt s.g l.2.toNat, Access.write (natLe n (lane 32 (s.v d) l.1)))])) ∧
    (∀ i ∈ [Instr.fenceFull m sc, .fenceAcq m sc, .fenceRel m sc, .fenceSt m sc, .fenceq m mask sc, .sbar m mask3],
      ∃ u, exec i s = .next u ∧ went u ∧ u.task.wait = s.task.wait) ∧
    (∃ u, exec (.fenceqW m mask sc) s = .next u ∧ went u ∧
      u.task.wait = if mask = 0 then s.task.wait else some (.entry s.ctl.model.nextId)) ∧
    (∃ u, exec (.sbarW m mask3) s = .next u ∧ went u ∧
      u.task.wait = if mask3 = 0 then s.task.wait else some (.entry s.ctl.model.nextId)) ∧
    ((s.gladeAt s.g).ctx.eng.fences.find? (fun f => f.id == id) = some f →
      (∀ p ∈ f.cmds, ∀ c ∈ s.queue p.1, c.id ≠ p.2) → (∀ i ∈ f.stores, performedAt (s.taskAt s.g f.t) f.scope i = true) →
      ∃ u, exec (.fenceqEntryRelease s.g id) s = .next u ∧ u.mem = s.mem ∧ (∀ x ∈ u.here.ctx.eng.fences, x.id ≠ id) ∧
        ∀ q ∈ f.queues, ∀ c ∈ u.queue q, c.id ≠ id)
end

