-- ==== Sys2Proof/Laws/Encode.lean ====
section
/-! SUPPORT. The fields of a word survive being joined and split again. -/
namespace Sys2Proof

theorem extract_low {n m : Nat} (x : BitVec n) (y : BitVec m) (s l : Nat) (h : s + l ≤ m) :
    (x ++ y).extractLsb' s l = y.extractLsb' s l := by
  ext i hi
  simp only [BitVec.getElem_extractLsb', BitVec.getLsbD_append]
  rw [if_pos (by omega)]

theorem extract_high {n m : Nat} (x : BitVec n) (y : BitVec m) (s l : Nat) (h : m ≤ s) :
    (x ++ y).extractLsb' s l = x.extractLsb' (s - m) l := by
  ext i hi
  simp only [BitVec.getElem_extractLsb', BitVec.getLsbD_append]
  rw [if_neg (by omega)]
  congr 1; omega

theorem extract_at {n m : Nat} (x : BitVec n) (y : BitVec m) (s : Nat) (h : s = 0) :
    (x ++ y).extractLsb' s m = y := by
  subst h
  rw [extract_low _ _ _ _ (by omega)]; ext i hi; simp

theorem extract_self {n : Nat} (x : BitVec n) (s : Nat) (h : s = 0) : x.extractLsb' s n = x := by
  subst h; ext i hi; simp

theorem splitR_joinR (op : BitVec 8) (f : FmtR) : splitR (joinR op f) = f := by
  cases f
  simp only [splitR, joinR, FmtR.mk.injEq]
  refine ⟨?_, ?_, ?_, ?_, ?_, ?_, ?_, ?_⟩
  · exact (extract_high _ _ _ _ (by decide)).trans ((extract_high _ _ _ _ (by decide)).trans ((extract_high _ _ _ _ (by decide)).trans ((extract_high _ _ _ _ (by decide)).trans ((extract_high _ _ _ _ (by decide)).trans ((extract_high _ _ _ _ (by decide)).trans ((extract_high _ _ _ _ (by decide)).trans (extract_at _ _ _ rfl)))))))
  · exact (extract_high _ _ _ _ (by decide)).trans ((extract_high _ _ _ _ (by decide)).trans ((extract_high _ _ _ _ (by decide)).trans ((extract_high _ _ _ _ (by decide)).trans ((extract_high _ _ _ _ (by decide)).trans ((extract_high _ _ _ _ (by decide)).trans (extract_at _ _ _ rfl))))))
  · exact (extract_high _ _ _ _ (by decide)).trans ((extract_high _ _ _ _ (by decide)).trans ((extract_high _ _ _ _ (by decide)).trans ((extract_high _ _ _ _ (by decide)).trans ((extract_high _ _ _ _ (by decide)).trans (extract_at _ _ _ rfl)))))
  · exact (extract_high _ _ _ _ (by decide)).trans ((extract_high _ _ _ _ (by decide)).trans ((extract_high _ _ _ _ (by decide)).trans ((extract_high _ _ _ _ (by decide)).trans (extract_at _ _ _ rfl))))
  · exact (extract_high _ _ _ _ (by decide)).trans ((extract_high _ _ _ _ (by decide)).trans ((extract_high _ _ _ _ (by decide)).trans (extract_at _ _ _ rfl)))
  · exact (extract_high _ _ _ _ (by decide)).trans ((extract_high _ _ _ _ (by decide)).trans (extract_at _ _ _ rfl))
  · exact (extract_high _ _ _ _ (by decide)).trans (extract_at _ _ _ rfl)
  · exact extract_at _ _ _ rfl

theorem opOf_joinR (op : BitVec 8) (f : FmtR) : opOf (joinR op f) = op := by
  cases f
  exact (extract_high _ _ _ _ (by decide)).trans ((extract_high _ _ _ _ (by decide)).trans ((extract_high _ _ _ _ (by decide)).trans ((extract_high _ _ _ _ (by decide)).trans ((extract_high _ _ _ _ (by decide)).trans ((extract_high _ _ _ _ (by decide)).trans ((extract_high _ _ _ _ (by decide)).trans ((extract_high _ _ _ _ (by decide)).trans (extract_self _ _ rfl))))))))

theorem splitI_joinI (op : BitVec 8) (f : FmtI) : splitI (joinI op f) = f := by
  cases f
  simp only [splitI, joinI, FmtI.mk.injEq]
  refine ⟨?_, ?_, ?_, ?_, ?_, ?_⟩
  · exact (extract_high _ _ _ _ (by decide)).trans ((extract_high _ _ _ _ (by decide)).trans ((extract_high _ _ _ _ (by decide)).trans ((extract_high _ _ _ _ (by decide)).trans ((extract_high _ _ _ _ (by decide)).trans (extract_at _ _ _ rfl)))))
  · exact (extract_high _ _ _ _ (by decide)).trans ((extract_high _ _ _ _ (by decide)).trans ((extract_high _ _ _ _ (by decide)).trans ((extract_high _ _ _ _ (by decide)).trans (extract_at _ _ _ rfl))))
  · exact (extract_high _ _ _ _ (by decide)).trans ((extract_high _ _ _ _ (by decide)).trans ((extract_high _ _ _ _ (by decide)).trans (extract_at _ _ _ rfl)))
  · exact (extract_high _ _ _ _ (by decide)).trans ((extract_high _ _ _ _ (by decide)).trans (extract_at _ _ _ rfl))
  · exact (extract_high _ _ _ _ (by decide)).trans (extract_at _ _ _ rfl)
  · exact extract_at _ _ _ rfl

theorem opOf_joinI (op : BitVec 8) (f : FmtI) : opOf (joinI op f) = op := by
  cases f
  exact (extract_high _ _ _ _ (by decide)).trans ((extract_high _ _ _ _ (by decide)).trans ((extract_high _ _ _ _ (by decide)).trans ((extract_high _ _ _ _ (by decide)).trans ((extract_high _ _ _ _ (by decide)).trans ((extract_high _ _ _ _ (by decide)).trans (extract_self _ _ rfl))))))

theorem splitM_joinM (op : BitVec 8) (f : FmtM) : splitM (joinM op f) = f := by
  cases f
  simp only [splitM, joinM, FmtM.mk.injEq]
  refine ⟨?_, ?_, ?_, ?_, ?_, ?_, ?_, ?_, ?_⟩
  · exact (extract_high _ _ _ _ (by decide)).trans ((extract_high _ _ _ _ (by decide)).trans ((extract_high _ _ _ _ (by decide)).trans ((extract_high _ _ _ _ (by decide)).trans ((extract_high _ _ _ _ (by decide)).trans ((extract_high _ _ _ _ (by decide)).trans ((extract_high _ _ _ _ (by decide)).trans ((extract_high _ _ _ _ (by decide)).trans (extract_at _ _ _ rfl))))))))
  · exact (extract_high _ _ _ _ (by decide)).trans ((extract_high _ _ _ _ (by decide)).trans ((extract_high _ _ _ _ (by decide)).trans ((extract_high _ _ _ _ (by decide)).trans ((extract_high _ _ _ _ (by decide)).trans ((extract_high _ _ _ _ (by decide)).trans ((extract_high _ _ _ _ (by decide)).trans (extract_at _ _ _ rfl)))))))
  · exact (extract_high _ _ _ _ (by decide)).trans ((extract_high _ _ _ _ (by decide)).trans ((extract_high _ _ _ _ (by decide)).trans ((extract_high _ _ _ _ (by decide)).trans ((extract_high _ _ _ _ (by decide)).trans ((extract_high _ _ _ _ (by decide)).trans (extract_at _ _ _ rfl))))))
  · exact (extract_high _ _ _ _ (by decide)).trans ((extract_high _ _ _ _ (by decide)).trans ((extract_high _ _ _ _ (by decide)).trans ((extract_high _ _ _ _ (by decide)).trans ((extract_high _ _ _ _ (by decide)).trans (extract_at _ _ _ rfl)))))
  · exact (extract_high _ _ _ _ (by decide)).trans ((extract_high _ _ _ _ (by decide)).trans ((extract_high _ _ _ _ (by decide)).trans ((extract_high _ _ _ _ (by decide)).trans (extract_at _ _ _ rfl))))
  · exact (extract_high _ _ _ _ (by decide)).trans ((extract_high _ _ _ _ (by decide)).trans ((extract_high _ _ _ _ (by decide)).trans (extract_at _ _ _ rfl)))
  · exact (extract_high _ _ _ _ (by decide)).trans ((extract_high _ _ _ _ (by decide)).trans (extract_at _ _ _ rfl))
  · exact (extract_high _ _ _ _ (by decide)).trans (extract_at _ _ _ rfl)
  · exact extract_at _ _ _ rfl

theorem opOf_joinM (op : BitVec 8) (f : FmtM) : opOf (joinM op f) = op := by
  cases f
  exact (extract_high _ _ _ _ (by decide)).trans ((extract_high _ _ _ _ (by decide)).trans ((extract_high _ _ _ _ (by decide)).trans ((extract_high _ _ _ _ (by decide)).trans ((extract_high _ _ _ _ (by decide)).trans ((extract_high _ _ _ _ (by decide)).trans ((extract_high _ _ _ _ (by decide)).trans ((extract_high _ _ _ _ (by decide)).trans ((extract_high _ _ _ _ (by decide)).trans (extract_self _ _ rfl)))))))))

theorem splitA_joinA (op : BitVec 8) (f : FmtA) : splitA (joinA op f) = f := by
  cases f
  simp only [splitA, joinA, FmtA.mk.injEq]
  refine ⟨?_, ?_, ?_, ?_, ?_, ?_, ?_, ?_, ?_, ?_, ?_⟩
  · exact (extract_high _ _ _ _ (by decide)).trans ((extract_high _ _ _ _ (by decide)).trans ((extract_high _ _ _ _ (by decide)).trans ((extract_high _ _ _ _ (by decide)).trans ((extract_high _ _ _ _ (by decide)).trans ((extract_high _ _ _ _ (by decide)).trans ((extract_high _ _ _ _ (by decide)).trans ((extract_high _ _ _ _ (by decide)).trans ((extract_high _ _ _ _ (by decide)).trans ((extract_high _ _ _ _ (by decide)).trans (extract_at _ _ _ rfl))))))))))
  · exact (extract_high _ _ _ _ (by decide)).trans ((extract_high _ _ _ _ (by decide)).trans ((extract_high _ _ _ _ (by decide)).trans ((extract_high _ _ _ _ (by decide)).trans ((extract_high _ _ _ _ (by decide)).trans ((extract_high _ _ _ _ (by decide)).trans ((extract_high _ _ _ _ (by decide)).trans ((extract_high _ _ _ _ (by decide)).trans ((extract_high _ _ _ _ (by decide)).trans (extract_at _ _ _ rfl)))))))))
  · exact (extract_high _ _ _ _ (by decide)).trans ((extract_high _ _ _ _ (by decide)).trans ((extract_high _ _ _ _ (by decide)).trans ((extract_high _ _ _ _ (by decide)).trans ((extract_high _ _ _ _ (by decide)).trans ((extract_high _ _ _ _ (by decide)).trans ((extract_high _ _ _ _ (by decide)).trans ((extract_high _ _ _ _ (by decide)).trans (extract_at _ _ _ rfl))))))))
  · exact (extract_high _ _ _ _ (by decide)).trans ((extract_high _ _ _ _ (by decide)).trans ((extract_high _ _ _ _ (by decide)).trans ((extract_high _ _ _ _ (by decide)).trans ((extract_high _ _ _ _ (by decide)).trans ((extract_high _ _ _ _ (by decide)).trans ((extract_high _ _ _ _ (by decide)).trans (extract_at _ _ _ rfl)))))))
  · exact (extract_high _ _ _ _ (by decide)).trans ((extract_high _ _ _ _ (by decide)).trans ((extract_high _ _ _ _ (by decide)).trans ((extract_high _ _ _ _ (by decide)).trans ((extract_high _ _ _ _ (by decide)).trans ((extract_high _ _ _ _ (by decide)).trans (extract_at _ _ _ rfl))))))
  · exact (extract_high _ _ _ _ (by decide)).trans ((extract_high _ _ _ _ (by decide)).trans ((extract_high _ _ _ _ (by decide)).trans ((extract_high _ _ _ _ (by decide)).trans ((extract_high _ _ _ _ (by decide)).trans (extract_at _ _ _ rfl)))))
  · exact (extract_high _ _ _ _ (by decide)).trans ((extract_high _ _ _ _ (by decide)).trans ((extract_high _ _ _ _ (by decide)).trans ((extract_high _ _ _ _ (by decide)).trans (extract_at _ _ _ rfl))))
  · exact (extract_high _ _ _ _ (by decide)).trans ((extract_high _ _ _ _ (by decide)).trans ((extract_high _ _ _ _ (by decide)).trans (extract_at _ _ _ rfl)))
  · exact (extract_high _ _ _ _ (by decide)).trans ((extract_high _ _ _ _ (by decide)).trans (extract_at _ _ _ rfl))
  · exact (extract_high _ _ _ _ (by decide)).trans (extract_at _ _ _ rfl)
  · exact extract_at _ _ _ rfl

theorem opOf_joinA (op : BitVec 8) (f : FmtA) : opOf (joinA op f) = op := by
  cases f
  exact (extract_high _ _ _ _ (by decide)).trans ((extract_high _ _ _ _ (by decide)).trans ((extract_high _ _ _ _ (by decide)).trans ((extract_high _ _ _ _ (by decide)).trans ((extract_high _ _ _ _ (by decide)).trans ((extract_high _ _ _ _ (by decide)).trans ((extract_high _ _ _ _ (by decide)).trans ((extract_high _ _ _ _ (by decide)).trans ((extract_high _ _ _ _ (by decide)).trans ((extract_high _ _ _ _ (by decide)).trans ((extract_high _ _ _ _ (by decide)).trans (extract_self _ _ rfl)))))))))))

theorem splitB_joinB (op : BitVec 8) (f : FmtB) : splitB (joinB op f) = f := by
  cases f
  simp only [splitB, joinB, FmtB.mk.injEq]
  refine ⟨?_, ?_, ?_, ?_, ?_, ?_, ?_⟩
  · exact (extract_high _ _ _ _ (by decide)).trans ((extract_high _ _ _ _ (by decide)).trans ((extract_high _ _ _ _ (by decide)).trans ((extract_high _ _ _ _ (by decide)).trans ((extract_high _ _ _ _ (by decide)).trans ((extract_high _ _ _ _ (by decide)).trans (extract_at _ _ _ rfl))))))
  · exact (extract_high _ _ _ _ (by decide)).trans ((extract_high _ _ _ _ (by decide)).trans ((extract_high _ _ _ _ (by decide)).trans ((extract_high _ _ _ _ (by decide)).trans ((extract_high _ _ _ _ (by decide)).trans (extract_at _ _ _ rfl)))))
  · exact (extract_high _ _ _ _ (by decide)).trans ((extract_high _ _ _ _ (by decide)).trans ((extract_high _ _ _ _ (by decide)).trans ((extract_high _ _ _ _ (by decide)).trans (extract_at _ _ _ rfl))))
  · exact (extract_high _ _ _ _ (by decide)).trans ((extract_high _ _ _ _ (by decide)).trans ((extract_high _ _ _ _ (by decide)).trans (extract_at _ _ _ rfl)))
  · exact (extract_high _ _ _ _ (by decide)).trans ((extract_high _ _ _ _ (by decide)).trans (extract_at _ _ _ rfl))
  · exact (extract_high _ _ _ _ (by decide)).trans (extract_at _ _ _ rfl)
  · exact extract_at _ _ _ rfl

theorem opOf_joinB (op : BitVec 8) (f : FmtB) : opOf (joinB op f) = op := by
  cases f
  exact (extract_high _ _ _ _ (by decide)).trans ((extract_high _ _ _ _ (by decide)).trans ((extract_high _ _ _ _ (by decide)).trans ((extract_high _ _ _ _ (by decide)).trans ((extract_high _ _ _ _ (by decide)).trans ((extract_high _ _ _ _ (by decide)).trans ((extract_high _ _ _ _ (by decide)).trans (extract_self _ _ rfl)))))))

theorem splitE_joinE (op : BitVec 8) (f : FmtE) : splitE (joinE op f) = f := by
  cases f
  simp only [splitE, joinE, FmtE.mk.injEq]
  refine ⟨?_, ?_, ?_, ?_, ?_, ?_, ?_⟩
  · exact (extract_high _ _ _ _ (by decide)).trans ((extract_high _ _ _ _ (by decide)).trans ((extract_high _ _ _ _ (by decide)).trans ((extract_high _ _ _ _ (by decide)).trans ((extract_high _ _ _ _ (by decide)).trans ((extract_high _ _ _ _ (by decide)).trans (extract_at _ _ _ rfl))))))
  · exact (extract_high _ _ _ _ (by decide)).trans ((extract_high _ _ _ _ (by decide)).trans ((extract_high _ _ _ _ (by decide)).trans ((extract_high _ _ _ _ (by decide)).trans ((extract_high _ _ _ _ (by decide)).trans (extract_at _ _ _ rfl)))))
  · exact (extract_high _ _ _ _ (by decide)).trans ((extract_high _ _ _ _ (by decide)).trans ((extract_high _ _ _ _ (by decide)).trans ((extract_high _ _ _ _ (by decide)).trans (extract_at _ _ _ rfl))))
  · exact (extract_high _ _ _ _ (by decide)).trans ((extract_high _ _ _ _ (by decide)).trans ((extract_high _ _ _ _ (by decide)).trans (extract_at _ _ _ rfl)))
  · exact (extract_high _ _ _ _ (by decide)).trans ((extract_high _ _ _ _ (by decide)).trans (extract_at _ _ _ rfl))
  · exact (extract_high _ _ _ _ (by decide)).trans (extract_at _ _ _ rfl)
  · exact extract_at _ _ _ rfl

theorem opOf_joinE (op : BitVec 8) (f : FmtE) : opOf (joinE op f) = op := by
  cases f
  exact (extract_high _ _ _ _ (by decide)).trans ((extract_high _ _ _ _ (by decide)).trans ((extract_high _ _ _ _ (by decide)).trans ((extract_high _ _ _ _ (by decide)).trans ((extract_high _ _ _ _ (by decide)).trans ((extract_high _ _ _ _ (by decide)).trans ((extract_high _ _ _ _ (by decide)).trans (extract_self _ _ rfl)))))))

theorem splitS_joinS (op : BitVec 8) (f : FmtS) : splitS (joinS op f) = f := by
  cases f
  simp only [splitS, joinS, FmtS.mk.injEq]
  refine ⟨?_, ?_, ?_, ?_, ?_, ?_⟩
  · exact (extract_high _ _ _ _ (by decide)).trans ((extract_high _ _ _ _ (by decide)).trans ((extract_high _ _ _ _ (by decide)).trans ((extract_high _ _ _ _ (by decide)).trans ((extract_high _ _ _ _ (by decide)).trans (extract_at _ _ _ rfl)))))
  · exact (extract_high _ _ _ _ (by decide)).trans ((extract_high _ _ _ _ (by decide)).trans ((extract_high _ _ _ _ (by decide)).trans ((extract_high _ _ _ _ (by decide)).trans (extract_at _ _ _ rfl))))
  · exact (extract_high _ _ _ _ (by decide)).trans ((extract_high _ _ _ _ (by decide)).trans ((extract_high _ _ _ _ (by decide)).trans (extract_at _ _ _ rfl)))
  · exact (extract_high _ _ _ _ (by decide)).trans ((extract_high _ _ _ _ (by decide)).trans (extract_at _ _ _ rfl))
  · exact (extract_high _ _ _ _ (by decide)).trans (extract_at _ _ _ rfl)
  · exact extract_at _ _ _ rfl

theorem opOf_joinS (op : BitVec 8) (f : FmtS) : opOf (joinS op f) = op := by
  cases f
  exact (extract_high _ _ _ _ (by decide)).trans ((extract_high _ _ _ _ (by decide)).trans ((extract_high _ _ _ _ (by decide)).trans ((extract_high _ _ _ _ (by decide)).trans ((extract_high _ _ _ _ (by decide)).trans ((extract_high _ _ _ _ (by decide)).trans (extract_self _ _ rfl))))))

@[simp] theorem fnSp_0_2 (y : BitVec 2) : (0#6 ++ y : BitVec 8).extractLsb' 0 2 = y :=
  extract_at _ _ _ rfl
@[simp] theorem fnSp_2_6 (y : BitVec 2) : (0#6 ++ y : BitVec 8).extractLsb' 2 6 = 0#6 :=
  (extract_high _ _ _ _ (by decide)).trans (extract_self _ _ rfl)
@[simp] theorem fnSzSp_0_2 (y : BitVec 2) (x : BitVec 2) : (0#4 ++ y ++ x : BitVec 8).extractLsb' 0 2 = x :=
  extract_at _ _ _ rfl
@[simp] theorem fnSzSp_2_2 (y : BitVec 2) (x : BitVec 2) : (0#4 ++ y ++ x : BitVec 8).extractLsb' 2 2 = y :=
  (extract_high _ _ _ _ (by decide)).trans (extract_at _ _ _ rfl)
@[simp] theorem fnSzSp_4_4 (y : BitVec 2) (x : BitVec 2) : (0#4 ++ y ++ x : BitVec 8).extractLsb' 4 4 = 0#4 :=
  (extract_high _ _ _ _ (by decide)).trans ((extract_high _ _ _ _ (by decide)).trans (extract_self _ _ rfl))
@[simp] theorem fnLw_6_2 (y : BitVec 2) (x : BitVec 6) : (y ++ x : BitVec 8).extractLsb' 6 2 = y :=
  (extract_high _ _ _ _ (by decide)).trans (extract_self _ _ rfl)
@[simp] theorem fnLw_0_6 (y : BitVec 2) (x : BitVec 6) : (y ++ x : BitVec 8).extractLsb' 0 6 = x :=
  extract_at _ _ _ rfl
@[simp] theorem fnFl_6_2 (y : BitVec 2) (r : BitVec 3) (x : BitVec 3) : (y ++ r ++ x : BitVec 8).extractLsb' 6 2 = y :=
  (extract_high _ _ _ _ (by decide)).trans ((extract_high _ _ _ _ (by decide)).trans (extract_self _ _ rfl))
@[simp] theorem fnFl_3_3 (y : BitVec 2) (r : BitVec 3) (x : BitVec 3) : (y ++ r ++ x : BitVec 8).extractLsb' 3 3 = r :=
  (extract_high _ _ _ _ (by decide)).trans (extract_at _ _ _ rfl)
@[simp] theorem fnFl_0_3 (y : BitVec 2) (r : BitVec 3) (x : BitVec 3) : (y ++ r ++ x : BitVec 8).extractLsb' 0 3 = x :=
  extract_at _ _ _ rfl
@[simp] theorem fnCmp_5_3 (y : BitVec 3) (x : BitVec 3) : (y ++ 0#2 ++ x : BitVec 8).extractLsb' 5 3 = y :=
  (extract_high _ _ _ _ (by decide)).trans ((extract_high _ _ _ _ (by decide)).trans (extract_self _ _ rfl))
@[simp] theorem fnCmp_0_3 (y : BitVec 3) (x : BitVec 3) : (y ++ 0#2 ++ x : BitVec 8).extractLsb' 0 3 = x :=
  extract_at _ _ _ rfl
@[simp] theorem fnCmp_3_2 (y : BitVec 3) (x : BitVec 3) : (y ++ 0#2 ++ x : BitVec 8).extractLsb' 3 2 = 0#2 :=
  (extract_high _ _ _ _ (by decide)).trans (extract_at _ _ _ rfl)
@[simp] theorem fnCvt_4_4 (y : BitVec 4) (r : BitVec 3) (x : BitVec 1) : (y ++ r ++ x : BitVec 8).extractLsb' 4 4 = y :=
  (extract_high _ _ _ _ (by decide)).trans ((extract_high _ _ _ _ (by decide)).trans (extract_self _ _ rfl))
@[simp] theorem fnCvt_1_3 (y : BitVec 4) (r : BitVec 3) (x : BitVec 1) : (y ++ r ++ x : BitVec 8).extractLsb' 1 3 = r :=
  (extract_high _ _ _ _ (by decide)).trans (extract_at _ _ _ rfl)
@[simp] theorem fnCvt_0_1 (y : BitVec 4) (r : BitVec 3) (x : BitVec 1) : (y ++ r ++ x : BitVec 8).extractLsb' 0 1 = x :=
  extract_at _ _ _ rfl
@[simp] theorem fnScan_5_3 (y : BitVec 3) (r : BitVec 3) : (y ++ r ++ 0#2 : BitVec 8).extractLsb' 5 3 = y :=
  (extract_high _ _ _ _ (by decide)).trans ((extract_high _ _ _ _ (by decide)).trans (extract_self _ _ rfl))
@[simp] theorem fnScan_2_3 (y : BitVec 3) (r : BitVec 3) : (y ++ r ++ 0#2 : BitVec 8).extractLsb' 2 3 = r :=
  (extract_high _ _ _ _ (by decide)).trans (extract_at _ _ _ rfl)
@[simp] theorem fnScan_0_2 (y : BitVec 3) (r : BitVec 3) : (y ++ r ++ 0#2 : BitVec 8).extractLsb' 0 2 = 0#2 :=
  extract_at _ _ _ rfl
@[simp] theorem fnBc_6_2 (y : BitVec 2) (r : BitVec 1) : (y ++ r ++ 0#5 : BitVec 8).extractLsb' 6 2 = y :=
  (extract_high _ _ _ _ (by decide)).trans ((extract_high _ _ _ _ (by decide)).trans (extract_self _ _ rfl))
@[simp] theorem fnBc_5_1 (y : BitVec 2) (r : BitVec 1) : (y ++ r ++ 0#5 : BitVec 8).extractLsb' 5 1 = r :=
  (extract_high _ _ _ _ (by decide)).trans (extract_at _ _ _ rfl)
@[simp] theorem fnBc_0_5 (y : BitVec 2) (r : BitVec 1) : (y ++ r ++ 0#5 : BitVec 8).extractLsb' 0 5 = 0#5 :=
  extract_at _ _ _ rfl
@[simp] theorem fnLane_6_2 (y : BitVec 2) (r : BitVec 2) : (y ++ r ++ 0#4 : BitVec 8).extractLsb' 6 2 = y :=
  (extract_high _ _ _ _ (by decide)).trans ((extract_high _ _ _ _ (by decide)).trans (extract_self _ _ rfl))
@[simp] theorem fnLane_4_2 (y : BitVec 2) (r : BitVec 2) : (y ++ r ++ 0#4 : BitVec 8).extractLsb' 4 2 = r :=
  (extract_high _ _ _ _ (by decide)).trans (extract_at _ _ _ rfl)
@[simp] theorem fnLane_0_4 (y : BitVec 2) (r : BitVec 2) : (y ++ r ++ 0#4 : BitVec 8).extractLsb' 0 4 = 0#4 :=
  extract_at _ _ _ rfl
@[simp] theorem fnFld_0_3 (y : BitVec 3) : (0#5 ++ y : BitVec 8).extractLsb' 0 3 = y :=
  extract_at _ _ _ rfl
@[simp] theorem fnBar_0_2 (y : BitVec 3) (x : BitVec 2) : (0#3 ++ y ++ x : BitVec 8).extractLsb' 0 2 = x :=
  extract_at _ _ _ rfl
@[simp] theorem fnBar_2_3 (y : BitVec 3) (x : BitVec 2) : (0#3 ++ y ++ x : BitVec 8).extractLsb' 2 3 = y :=
  (extract_high _ _ _ _ (by decide)).trans (extract_at _ _ _ rfl)
@[simp] theorem fnBar_5_3 (y : BitVec 3) (x : BitVec 2) : (0#3 ++ y ++ x : BitVec 8).extractLsb' 5 3 = 0#3 :=
  (extract_high _ _ _ _ (by decide)).trans ((extract_high _ _ _ _ (by decide)).trans (extract_self _ _ rfl))
@[simp] theorem fnVc_0_5 (y : BitVec 3) (x : BitVec 5) : (y ++ x : BitVec 8).extractLsb' 0 5 = x :=
  extract_at _ _ _ rfl
@[simp] theorem fnVc_5_3 (y : BitVec 3) (x : BitVec 5) : (y ++ x : BitVec 8).extractLsb' 5 3 = y :=
  (extract_high _ _ _ _ (by decide)).trans (extract_self _ _ rfl)
@[simp] theorem fnRecv_0_5 (y : BitVec 1) (x : BitVec 5) : (0#2 ++ y ++ x : BitVec 8).extractLsb' 0 5 = x :=
  extract_at _ _ _ rfl
@[simp] theorem fnRecv_5_1 (y : BitVec 1) (x : BitVec 5) : (0#2 ++ y ++ x : BitVec 8).extractLsb' 5 1 = y :=
  (extract_high _ _ _ _ (by decide)).trans (extract_at _ _ _ rfl)
@[simp] theorem fnRecv_6_2 (y : BitVec 1) (x : BitVec 5) : (0#2 ++ y ++ x : BitVec 8).extractLsb' 6 2 = 0#2 :=
  (extract_high _ _ _ _ (by decide)).trans ((extract_high _ _ _ _ (by decide)).trans (extract_self _ _ rfl))
@[simp] theorem fnBit_0_1 (x : BitVec 1) : (0#7 ++ x : BitVec 8).extractLsb' 0 1 = x :=
  extract_at _ _ _ rfl
@[simp] theorem fnBit_1_7 (x : BitVec 1) : (0#7 ++ x : BitVec 8).extractLsb' 1 7 = 0#7 :=
  (extract_high _ _ _ _ (by decide)).trans (extract_self _ _ rfl)
@[simp] theorem imm13_0_13 (x : BitVec 13) : (0#19 ++ x : BitVec 32).extractLsb' 0 13 = x :=
  extract_at _ _ _ rfl
@[simp] theorem imm13_13_19 (x : BitVec 13) : (0#19 ++ x : BitVec 32).extractLsb' 13 19 = 0#19 :=
  (extract_high _ _ _ _ (by decide)).trans (extract_self _ _ rfl)
@[simp] theorem immQ_20_12 (p : BitVec 8) (x : BitVec 12) : (0#12 ++ p ++ x : BitVec 32).extractLsb' 20 12 = 0#12 :=
  (extract_high _ _ _ _ (by decide)).trans ((extract_high _ _ _ _ (by decide)).trans (extract_self _ _ rfl))
@[simp] theorem immQ_0_12 (p : BitVec 8) (x : BitVec 12) : (0#12 ++ p ++ x : BitVec 32).extractLsb' 0 12 = x :=
  extract_at _ _ _ rfl
@[simp] theorem immQ_12_8 (p : BitVec 8) (x : BitVec 12) : (0#12 ++ p ++ x : BitVec 32).extractLsb' 12 8 = p :=
  (extract_high _ _ _ _ (by decide)).trans (extract_at _ _ _ rfl)
@[simp] theorem imm3_0_3 (x : BitVec 3) : (0#29 ++ x : BitVec 32).extractLsb' 0 3 = x :=
  extract_at _ _ _ rfl
@[simp] theorem imm3_3_29 (x : BitVec 3) : (0#29 ++ x : BitVec 32).extractLsb' 3 29 = 0#29 :=
  (extract_high _ _ _ _ (by decide)).trans (extract_self _ _ rfl)
@[simp] theorem immFq_0_10 (y : BitVec 3) (x : BitVec 10) : (0#19 ++ y ++ x : BitVec 32).extractLsb' 0 10 = x :=
  extract_at _ _ _ rfl
@[simp] theorem immFq_10_3 (y : BitVec 3) (x : BitVec 10) : (0#19 ++ y ++ x : BitVec 32).extractLsb' 10 3 = y :=
  (extract_high _ _ _ _ (by decide)).trans (extract_at _ _ _ rfl)
@[simp] theorem immFq_13_19 (y : BitVec 3) (x : BitVec 10) : (0#19 ++ y ++ x : BitVec 32).extractLsb' 13 19 = 0#19 :=
  (extract_high _ _ _ _ (by decide)).trans ((extract_high _ _ _ _ (by decide)).trans (extract_self _ _ rfl))
@[simp] theorem imm2_0_2 (x : BitVec 2) : (0#30 ++ x : BitVec 32).extractLsb' 0 2 = x :=
  extract_at _ _ _ rfl
@[simp] theorem imm2_2_30 (x : BitVec 2) : (0#30 ++ x : BitVec 32).extractLsb' 2 30 = 0#30 :=
  (extract_high _ _ _ _ (by decide)).trans (extract_self _ _ rfl)
@[simp] theorem moSp_0_2 (x : BitVec 2) : (0#8 ++ x : BitVec 10).extractLsb' 0 2 = x :=
  extract_at _ _ _ rfl
@[simp] theorem moSp_hi_2 (x : BitVec 2) : hi (0#8 ++ x : BitVec 10) 2 = false := by
  revert x; decide
@[simp] theorem moKset_0_4 (y : BitVec 1) (x : BitVec 4) : (0#5 ++ y ++ x : BitVec 10).extractLsb' 0 4 = x :=
  extract_at _ _ _ rfl
@[simp] theorem moKset_4_1 (y : BitVec 1) (x : BitVec 4) : (0#5 ++ y ++ x : BitVec 10).extractLsb' 4 1 = y :=
  (extract_high _ _ _ _ (by decide)).trans (extract_at _ _ _ rfl)
@[simp] theorem moKset_hi_5 (y : BitVec 1) (x : BitVec 4) : hi (0#5 ++ y ++ x : BitVec 10) 5 = false := by
  revert y x; decide
@[simp] theorem moBit_0_1 (x : BitVec 1) : (0#9 ++ x : BitVec 10).extractLsb' 0 1 = x :=
  extract_at _ _ _ rfl
@[simp] theorem moBit_hi_1 (x : BitVec 1) : hi (0#9 ++ x : BitVec 10) 1 = false := by
  revert x; decide
@[simp] theorem moOut_0_3 (y : BitVec 1) (r : BitVec 1) (x : BitVec 3) : (0#5 ++ y ++ r ++ x : BitVec 10).extractLsb' 0 3 = x :=
  extract_at _ _ _ rfl
@[simp] theorem moOut_3_1 (y : BitVec 1) (r : BitVec 1) (x : BitVec 3) : (0#5 ++ y ++ r ++ x : BitVec 10).extractLsb' 3 1 = r :=
  (extract_high _ _ _ _ (by decide)).trans (extract_at _ _ _ rfl)
@[simp] theorem moOut_4_1 (y : BitVec 1) (r : BitVec 1) (x : BitVec 3) : (0#5 ++ y ++ r ++ x : BitVec 10).extractLsb' 4 1 = y :=
  (extract_high _ _ _ _ (by decide)).trans ((extract_high _ _ _ _ (by decide)).trans (extract_at _ _ _ rfl))
@[simp] theorem moOut_hi_5 (y : BitVec 1) (r : BitVec 1) (x : BitVec 3) : hi (0#5 ++ y ++ r ++ x : BitVec 10) 5 = false := by
  revert y r x; decide
@[simp] theorem moCopy_1_1 (q : BitVec 2) (n : BitVec 1) (r : BitVec 3) (c : BitVec 1) (p : BitVec 1) (b : BitVec 1) : (0#1 ++ q ++ n ++ r ++ c ++ p ++ b : BitVec 10).extractLsb' 1 1 = p :=
  (extract_high _ _ _ _ (by decide)).trans (extract_at _ _ _ rfl)
@[simp] theorem moCopy_2_1 (q : BitVec 2) (n : BitVec 1) (r : BitVec 3) (c : BitVec 1) (p : BitVec 1) (b : BitVec 1) : (0#1 ++ q ++ n ++ r ++ c ++ p ++ b : BitVec 10).extractLsb' 2 1 = c :=
  (extract_high _ _ _ _ (by decide)).trans ((extract_high _ _ _ _ (by decide)).trans (extract_at _ _ _ rfl))
@[simp] theorem moCopy_3_3 (q : BitVec 2) (n : BitVec 1) (r : BitVec 3) (c : BitVec 1) (p : BitVec 1) (b : BitVec 1) : (0#1 ++ q ++ n ++ r ++ c ++ p ++ b : BitVec 10).extractLsb' 3 3 = r :=
  (extract_high _ _ _ _ (by decide)).trans ((extract_high _ _ _ _ (by decide)).trans ((extract_high _ _ _ _ (by decide)).trans (extract_at _ _ _ rfl)))
@[simp] theorem moCopy_6_1 (q : BitVec 2) (n : BitVec 1) (r : BitVec 3) (c : BitVec 1) (p : BitVec 1) (b : BitVec 1) : (0#1 ++ q ++ n ++ r ++ c ++ p ++ b : BitVec 10).extractLsb' 6 1 = n :=
  (extract_high _ _ _ _ (by decide)).trans ((extract_high _ _ _ _ (by decide)).trans ((extract_high _ _ _ _ (by decide)).trans ((extract_high _ _ _ _ (by decide)).trans (extract_at _ _ _ rfl))))
@[simp] theorem moCopy_7_2 (q : BitVec 2) (n : BitVec 1) (r : BitVec 3) (c : BitVec 1) (p : BitVec 1) (b : BitVec 1) : (0#1 ++ q ++ n ++ r ++ c ++ p ++ b : BitVec 10).extractLsb' 7 2 = q :=
  (extract_high _ _ _ _ (by decide)).trans ((extract_high _ _ _ _ (by decide)).trans ((extract_high _ _ _ _ (by decide)).trans ((extract_high _ _ _ _ (by decide)).trans ((extract_high _ _ _ _ (by decide)).trans (extract_at _ _ _ rfl)))))
@[simp] theorem moCopy_9_1 (q : BitVec 2) (n : BitVec 1) (r : BitVec 3) (c : BitVec 1) (p : BitVec 1) (b : BitVec 1) : (0#1 ++ q ++ n ++ r ++ c ++ p ++ b : BitVec 10).extractLsb' 9 1 = 0#1 :=
  (extract_high _ _ _ _ (by decide)).trans ((extract_high _ _ _ _ (by decide)).trans ((extract_high _ _ _ _ (by decide)).trans ((extract_high _ _ _ _ (by decide)).trans ((extract_high _ _ _ _ (by decide)).trans ((extract_high _ _ _ _ (by decide)).trans (extract_self _ _ rfl))))))
@[simp] theorem moCopy_0_1 (q : BitVec 2) (n : BitVec 1) (r : BitVec 3) (c : BitVec 1) (p : BitVec 1) (b : BitVec 1) : (0#1 ++ q ++ n ++ r ++ c ++ p ++ b : BitVec 10).extractLsb' 0 1 = b :=
  extract_at _ _ _ rfl
@[simp] theorem moPack_0_3 (q : BitVec 2) (x : BitVec 3) : (0#1 ++ q ++ 0#4 ++ x : BitVec 10).extractLsb' 0 3 = x :=
  extract_at _ _ _ rfl
@[simp] theorem moPack_7_2 (q : BitVec 2) (x : BitVec 3) : (0#1 ++ q ++ 0#4 ++ x : BitVec 10).extractLsb' 7 2 = q :=
  (extract_high _ _ _ _ (by decide)).trans ((extract_high _ _ _ _ (by decide)).trans (extract_at _ _ _ rfl))
@[simp] theorem moPack_qOnly_3 (q : BitVec 2) (x : BitVec 3) : qOnly (0#1 ++ q ++ 0#4 ++ x : BitVec 10) 3 = false := by
  revert q x; decide
@[simp] theorem moQ_7_2 (q : BitVec 2) : (0#1 ++ q ++ 0#7 : BitVec 10).extractLsb' 7 2 = q :=
  (extract_high _ _ _ _ (by decide)).trans (extract_at _ _ _ rfl)
@[simp] theorem moQ_qOnly_0 (q : BitVec 2) : qOnly (0#1 ++ q ++ 0#7 : BitVec 10) 0 = false := by
  revert q; decide
@[simp] theorem moCp_0_4 (x : BitVec 4) : (0#6 ++ x : BitVec 10).extractLsb' 0 4 = x :=
  extract_at _ _ _ rfl
@[simp] theorem moCp_hi_4 (x : BitVec 4) : hi (0#6 ++ x : BitVec 10) 4 = false := by
  revert x; decide
@[simp] theorem moColl_0_4 (r : BitVec 3) (y : BitVec 2) (x : BitVec 4) : (0#1 ++ r ++ y ++ x : BitVec 10).extractLsb' 0 4 = x :=
  extract_at _ _ _ rfl
@[simp] theorem moColl_4_2 (r : BitVec 3) (y : BitVec 2) (x : BitVec 4) : (0#1 ++ r ++ y ++ x : BitVec 10).extractLsb' 4 2 = y :=
  (extract_high _ _ _ _ (by decide)).trans (extract_at _ _ _ rfl)
@[simp] theorem moColl_6_3 (r : BitVec 3) (y : BitVec 2) (x : BitVec 4) : (0#1 ++ r ++ y ++ x : BitVec 10).extractLsb' 6 3 = r :=
  (extract_high _ _ _ _ (by decide)).trans ((extract_high _ _ _ _ (by decide)).trans (extract_at _ _ _ rfl))
@[simp] theorem moColl_hi_9 (r : BitVec 3) (y : BitVec 2) (x : BitVec 4) : hi (0#1 ++ r ++ y ++ x : BitVec 10) 9 = false := by
  revert r y x; decide
@[simp] theorem moGrp_0_4 (y : BitVec 2) (x : BitVec 4) : (0#4 ++ y ++ x : BitVec 10).extractLsb' 0 4 = x :=
  extract_at _ _ _ rfl
@[simp] theorem moGrp_4_2 (y : BitVec 2) (x : BitVec 4) : (0#4 ++ y ++ x : BitVec 10).extractLsb' 4 2 = y :=
  (extract_high _ _ _ _ (by decide)).trans (extract_at _ _ _ rfl)
@[simp] theorem moGrp_hi_6 (y : BitVec 2) (x : BitVec 4) : hi (0#4 ++ y ++ x : BitVec 10) 6 = false := by
  revert y x; decide
@[simp] theorem moStrm_0_2 (y : BitVec 2) (r : BitVec 1) (x : BitVec 2) : (0#5 ++ y ++ r ++ x : BitVec 10).extractLsb' 0 2 = x :=
  extract_at _ _ _ rfl
@[simp] theorem moStrm_2_1 (y : BitVec 2) (r : BitVec 1) (x : BitVec 2) : (0#5 ++ y ++ r ++ x : BitVec 10).extractLsb' 2 1 = r :=
  (extract_high _ _ _ _ (by decide)).trans (extract_at _ _ _ rfl)
@[simp] theorem moStrm_3_2 (y : BitVec 2) (r : BitVec 1) (x : BitVec 2) : (0#5 ++ y ++ r ++ x : BitVec 10).extractLsb' 3 2 = y :=
  (extract_high _ _ _ _ (by decide)).trans ((extract_high _ _ _ _ (by decide)).trans (extract_at _ _ _ rfl))
@[simp] theorem moStrm_hi_5 (y : BitVec 2) (r : BitVec 1) (x : BitVec 2) : hi (0#5 ++ y ++ r ++ x : BitVec 10) 5 = false := by
  revert y r x; decide

theorem fnAmo_4_2 (z : Bool) (x : BitVec 4) : (0#2 ++ (1#1 ++ swBit z) ++ x : BitVec 8).extractLsb' 4 2 = 1#1 ++ swBit z := by
  revert z x; decide
@[simp] theorem fnAmo_0_4 (z : Bool) (x : BitVec 4) : (0#2 ++ (1#1 ++ swBit z) ++ x : BitVec 8).extractLsb' 0 4 = x := by
  revert z x; decide
@[simp] theorem fnAmo_6_2 (z : Bool) (x : BitVec 4) : (0#2 ++ (1#1 ++ swBit z) ++ x : BitVec 8).extractLsb' 6 2 = 0#2 := by
  revert z x; decide
@[simp] theorem isX_x6 (r : XReg) : isX (x6 r) = true := by revert r; decide
@[simp] theorem xOf_x6 (r : XReg) : xOf (x6 r) = r := by revert r; decide
@[simp] theorem isV_v6 (r : VReg) : isV (v6 r) = true := by revert r; decide
@[simp] theorem vOf_v6 (r : VReg) : vOf (v6 r) = r := by revert r; decide
@[simp] theorem isQ_q6 (r : QReg) : isQ (q6 r) = true := by revert r; decide
@[simp] theorem qOf_q6 (r : QReg) : qOf (q6 r) = r := by revert r; decide
@[simp] theorem isX_v6 (r : VReg) : isX (v6 r) = false := by revert r; decide
@[simp] theorem fnSp_lt (y : BitVec 2) : (0#6 ++ y : BitVec 8).toNat < 4 := by revert y; decide
@[simp] theorem fnSp_ne (y : BitVec 2) : ((0#6 ++ y : BitVec 8) = 0x10#8) = False := by revert y; decide
@[simp] theorem fnFld_lt (y : BitVec 3) : (0#5 ++ y : BitVec 8).toNat < 8 := by revert y; decide
@[simp] theorem x6_ne (r : XReg) : (x6 r != 0#6) = !decide (r = 0#5) := by revert r; decide
@[simp] theorem isX_zero : isX 0 = true := by decide
@[simp] theorem mkOf_sB (m : Marks) : mkOf m.gap (sB m) = m := by
  cases m with | mk g s => cases s <;> simp [mkOf, sB, swBit]
@[simp] theorem bitOf_swBit (b : Bool) : bitOf (swBit b) = b := by cases b <;> decide
@[simp] theorem spOf_spCode (s : Space) : spOf (spCode s) = s := by cases s <;> decide
@[simp] theorem szOf_szCode (s : Size) : szOf (szCode s) = s := by cases s <;> decide
@[simp] theorem ordOf_ordCode (s : Order) : ordOf (ordCode s) = some s := by cases s <;> decide
@[simp] theorem rndOf_rndCode (s : Rnd) : rndOf (rndCode s) = some s := by cases s <;> decide
@[simp] theorem lwOf_lwCode (s : LaneW) : lwOf (lwCode s) = some s := by cases s <;> decide
@[simp] theorem flOf_flCode (s : FLane) : flOf (flCode s) = some s := by cases s <;> decide
@[simp] theorem tyOf_tyCode (s : LaneTy) : tyOf (tyCode s) = some s := by cases s <;> decide
@[simp] theorem condOf_condCode (s : VCond) : condOf (condCode s) = some s := by cases s <;> decide
@[simp] theorem ropOf_ropCode (s : ROp) : ropOf (ropCode s) = s := by cases s <;> decide
@[simp] theorem foldOf_foldCode (s : FoldOp) : foldOf (foldCode s) = some s := by cases s <;> decide
@[simp] theorem optV_optV6 (r : Option VReg) : optV (optV6 r) = r := by
  cases r with
  | none => decide
  | some r => revert r; decide
@[simp] theorem optVOk_optV6 (r : Option VReg) : optVOk (optV6 r) = true := by
  cases r with
  | none => decide
  | some r => revert r; decide
@[simp] theorem xvOf_xv6 (r : XVReg) : xvOf (xv6 r) = r := by
  cases r with
  | x r => simp [xv6, xvOf]
  | v r => simp [xv6, xvOf]
@[simp] theorem isXV_xv6 (r : XVReg) : (isX (xv6 r) || isV (xv6 r)) = true := by
  cases r <;> simp [xv6]

/-- A word that is no COPY is decoded by its opcode alone. -/
theorem decode_op (op : BitVec 8) (w n : Word) (h : opOf w = op) (h8 : op ≠ 0x78#8) (h0 : op ≠ 0#8) :
    decode w n = decodeOp op.toNat w := by
  have hb : isBundle w = false := by simp [isBundle, h, h8]
  have hw : w ≠ 0#64 := by
    intro e; subst e; exact h0 (h.symm.trans (by decide))
  simp [decode, hb, decodeWord, hw, h]

/-- Every check passed, a term is accepted. -/
theorem finish_ok (i : Instr) (h2 : i.ok2 = true) (h3 : i.ok3 = true) (h4 : i.ok4 = true) : finish false true i = .ok i := by
  simp [finish, h2, h3, h4]

@[simp] theorem amoDbl_fn (g : BitVec 3) (s : BitVec 1) (d a b c : BitVec 6) (sp : BitVec 2) (sc o : BitVec 3) (w : BitVec 12)
    (z : Bool) (x : BitVec 4) :
    amoDbl { gap := g, sw := s, d := d, a := a, b := b, c := c, sp := sp, sc := sc, ord := o
             fn := 0#2 ++ (1#1 ++ swBit z) ++ x, z := w } = some z := by
  simp only [amoDbl, fnAmo_4_2]; cases z <;> decide

theorem decodeWord_op (w : Word) (op : BitVec 8) (h : opOf w = op) (h0 : op ≠ 0#8) : decodeWord w = decodeOp op.toNat w := by
  have hw : w ≠ 0#64 := by
    intro e; subst e; exact h0 (h.symm.trans (by decide))
  simp [decodeWord, hw, h]

theorem isBundle_true (w : Word) (h : opOf w = 0x78#8) (hb : w.extractLsb' 0 1 = 1#1) : isBundle w = true := by
  simp [isBundle, h, hb]

/-- A COPY word alone: its lowest mode bit is zero. -/
theorem decode_copy (w n : Word) (h : opOf w = 0x78#8) (hb : w.extractLsb' 0 1 = 0#1) : decode w n = decodeOp 0x78 w := by
  have hb : isBundle w = false := by simp [isBundle, h, hb]
  have hw : w ≠ 0#64 := by
    intro e; subst e; exact absurd h (by decide)
  simp [decode, hb, decodeWord, hw, h]

end Sys2Proof
end

