-- ==== Sys2Proof/Laws/Memory.lean ====
section
/-! SUPPORT. Memory: the canonical form is kept, a read after a write gives the value written, everything else stays, and
a log reads as the memory it becomes. -/
namespace Sys2Proof.Machine

theorem memWfFrom_mono {m : Memory} {lo hi : Nat} (h : lo ≤ hi) (hm : memWfFrom hi m = true) : memWfFrom lo m = true := by
  cases m with
  | nil => rfl
  | cons c r =>
    obtain ⟨a, b⟩ := c
    simp only [memWfFrom, Bool.and_eq_true, decide_eq_true_eq] at hm ⊢
    exact ⟨⟨by omega, hm.1.2⟩, hm.2⟩

theorem memGet_lt {m : Memory} {lo a : Nat} (hm : memWfFrom lo m = true) (h : a < lo) : memGet m a = unlisted := by
  induction m generalizing lo with
  | nil => rfl
  | cons c r ih =>
    obtain ⟨b, v⟩ := c
    simp only [memWfFrom, Bool.and_eq_true, decide_eq_true_eq] at hm
    rw [memGet, if_neg (by omega)]
    exact ih hm.2 (by omega)

theorem memPut_wf {m : Memory} {lo a : Nat} (v : Byte) (hm : memWfFrom lo m = true) (h : lo ≤ a) :
    memWfFrom lo (memPut m a v) = true := by
  induction m generalizing lo with
  | nil => simp only [memPut]; split <;> simp_all [memWfFrom]
  | cons c r ih =>
    obtain ⟨b, u⟩ := c
    simp only [memWfFrom, Bool.and_eq_true, decide_eq_true_eq] at hm
    simp only [memPut]
    split
    · split
      · exact memWfFrom_mono (by omega) hm.2
      · simp_all [memWfFrom]
    · split
      · split
        · simp_all [memWfFrom]
        · simp only [memWfFrom, Bool.and_eq_true, decide_eq_true_eq]
          refine ⟨⟨h, by simp_all⟩, ⟨by omega, hm.1.2⟩, hm.2⟩
      · simp only [memWfFrom, Bool.and_eq_true, decide_eq_true_eq]
        exact ⟨hm.1, ih hm.2 (by omega)⟩

theorem memGet_memPut_self {m : Memory} {lo : Nat} (a : Nat) (v : Byte) (hm : memWfFrom lo m = true) :
    memGet (memPut m a v) a = v := by
  induction m generalizing lo with
  | nil => simp only [memPut]; split <;> simp_all [memGet]
  | cons c r ih =>
    obtain ⟨b, u⟩ := c
    simp only [memWfFrom, Bool.and_eq_true, decide_eq_true_eq] at hm
    simp only [memPut]
    split
    · split
      · rename_i hb hv; rw [memGet_lt hm.2 (by omega), hv]
      · simp [memGet]
    · split
      · split
        · rename_i hb hlt hv; rw [memGet, if_neg hb, memGet_lt hm.2 (by omega), hv]
        · simp [memGet]
      · rename_i hb hlt; rw [memGet, if_neg hb]; exact ih hm.2

theorem memGet_memPut_of_ne (m : Memory) {a b : Nat} (v : Byte) (h : b ≠ a) : memGet (memPut m a v) b = memGet m b := by
  induction m with
  | nil => simp only [memPut]; split <;> simp [memGet, h.symm]
  | cons c r ih =>
    obtain ⟨k, u⟩ := c
    simp only [memPut]
    split
    · rename_i hk; subst hk
      split <;> simp [memGet, h.symm]
    · split
      · split <;> simp [memGet, h.symm]
      · simp only [memGet]; split
        · rfl
        · exact ih

theorem memClear_wf {m : Memory} {lo : Nat} (a n : Nat) (hm : memWfFrom lo m = true) :
    memWfFrom lo (memClear m a n) = true := by
  induction m generalizing lo with
  | nil => rfl
  | cons c r ih =>
    obtain ⟨b, u⟩ := c
    simp only [memWfFrom, Bool.and_eq_true, decide_eq_true_eq] at hm
    simp only [memClear, List.filter_cons]
    split
    · simp only [memWfFrom, Bool.and_eq_true, decide_eq_true_eq]; exact ⟨hm.1, ih hm.2⟩
    · exact memWfFrom_mono (by omega) (ih hm.2)

theorem memGet_memClear (m : Memory) (lo n a : Nat) :
    memGet (memClear m lo n) a = if lo ≤ a ∧ a < lo + n then unlisted else memGet m a := by
  induction m with
  | nil => simp [memClear, memGet]
  | cons c r ih =>
    obtain ⟨b, u⟩ := c
    simp only [memClear, List.filter_cons] at ih ⊢
    by_cases hb : lo ≤ b ∧ b < lo + n
    · simp only [hb, decide_true, Bool.and_self, Bool.not_true, Bool.false_eq_true, if_false]
      rw [ih]
      by_cases hba : b = a
      · subst hba; simp [hb]
      · simp [memGet, hba]
    · have : (!(decide (lo ≤ b) && decide (b < lo + n))) = true := by
        simp only [Bool.not_eq_true', Bool.and_eq_false_iff, decide_eq_false_iff_not]; omega
      simp only [this, if_true, memGet]
      by_cases hba : b = a
      · subst hba; simp [hb]
      · simp only [hba, if_false]; exact ih

theorem applyLog_wf (log : List LogItem) {m : Memory} (hm : m.wf = true) : (applyLog log m).wf = true := by
  induction log with
  | nil => exact hm
  | cons x r ih =>
    cases x with
    | byte a v => exact memPut_wf v ih (Nat.zero_le a)
    | clear lo n => exact memClear_wf lo n ih

/-- A log reads as the memory it becomes. -/
theorem logGet_eq (log : List LogItem) {m : Memory} (hm : m.wf = true) (a : Nat) : logGet log m a = memGet (applyLog log m) a := by
  induction log with
  | nil => rfl
  | cons x r ih =>
    cases x with
    | byte b v =>
      simp only [logGet, applyLog]
      split
      · rename_i h; subst h; exact (memGet_memPut_self b v (applyLog_wf r hm)).symm
      · rename_i h; rw [memGet_memPut_of_ne _ v (Ne.symm h)]; exact ih
    | clear lo n => simp only [logGet, applyLog, memGet_memClear, ih]

theorem commit_next (s : State) (f : Work → Work) : commit s f = .next ((f (Work.start s)).doneIn s) := rfl

/-- Whatever a meaning does, memory keeps its canonical form. -/
theorem commit_wf {s t : State} {f : Work → Work} (h : commit s f = .next t) (hm : s.mem.wf = true) : t.mem.wf = true := by
  cases h; exact applyLog_wf _ hm

end Sys2Proof.Machine
end

