-- ==== Sys2Proof/Laws/Tab.lean ====
section
/-! SUPPORT. Sparse tables: what is put is found, and nothing else changes. -/
namespace Sys2Proof.Tab

@[simp] theorem find_set_self {α : Type} (t : Tab α) (k : Nat) (v : α) : find (set t k v) k = some v := by
  induction t with
  | nil => simp [set, find]
  | cons p r ih =>
    obtain ⟨j, w⟩ := p
    simp only [set]
    split
    · simp [find]
    · split
      · simp [find]
      · rename_i h1 h2; simp [find, h1, h2, ih]

theorem find_set_of_ne {α : Type} (t : Tab α) (k i : Nat) (v : α) (h : i ≠ k) : find (set t k v) i = find t i := by
  induction t with
  | nil => simp only [set, find]; split <;> simp_all
  | cons p r ih =>
    obtain ⟨j, w⟩ := p
    simp only [set]
    split
    · subst j; simp [find, h.symm]
    · split
      · rename_i h1 h2
        simp only [find, h.symm, if_false]
        by_cases hi : i < k
        · rw [if_pos hi]
          by_cases hj : j = i
          · omega
          · rw [if_neg hj, if_pos (by omega)]
        · rw [if_neg hi]
      · simp only [find]; split
        · rfl
        · split
          · rfl
          · exact ih

@[simp] theorem getD_set_self {α : Type} (t : Tab α) (k : Nat) (v d : α) : getD (set t k v) k d = v := by simp [getD]
theorem getD_set_of_ne {α : Type} (t : Tab α) (k i : Nat) (v d : α) (h : i ≠ k) : getD (set t k v) i d = getD t i d := by
  simp [getD, find_set_of_ne t k i v h]

@[simp] theorem set_set {α : Type} (t : Tab α) (k : Nat) (v w : α) : set (set t k v) k w = set t k w := by
  induction t with
  | nil => simp [set]
  | cons p r ih =>
    obtain ⟨j, u⟩ := p
    simp only [set]
    split
    · simp [set]
    · split
      · simp [set]
      · rename_i h1 h2; simp [set, h1, h2, ih]

end Sys2Proof.Tab
end

