-- ==== Sys2Proof/Laws/State.lean ====
section
/-! SUPPORT. The record updates of the state: one lemma per field per update, so that no proof unfolds an update. -/
namespace Sys2Proof.Machine

/-! ## Work -/
section
variable (w : Work) (f : Ctl → Ctl) (fG : Glade → Glade) (fX : GladeCtx → GladeCtx) (fT : Task → Task) (fM : Model → Model)
  (g t : Nat)
@[simp] theorem updCtl_base : (updCtl w f).base = w.base := rfl
@[simp] theorem updCtl_log : (updCtl w f).log = w.log := rfl
@[simp] theorem updCtl_ctl : (updCtl w f).ctl = f w.ctl := rfl
@[simp] theorem updGlade_base : (updGlade w g fG).base = w.base := rfl
@[simp] theorem updGlade_log : (updGlade w g fG).log = w.log := rfl
@[simp] theorem updGlade_tick : (updGlade w g fG).ctl.tick = w.ctl.tick := rfl
@[simp] theorem updGlade_parts : (updGlade w g fG).ctl.parts = w.ctl.parts := rfl
@[simp] theorem updGlade_net : (updGlade w g fG).ctl.net = w.ctl.net := rfl
@[simp] theorem updGlade_marks : (updGlade w g fG).ctl.marks = w.ctl.marks := rfl
@[simp] theorem updGlade_psel : (updGlade w g fG).ctl.psel = w.ctl.psel := rfl
@[simp] theorem updGlade_mring : (updGlade w g fG).ctl.mring = w.ctl.mring := rfl
@[simp] theorem updGlade_dbg : (updGlade w g fG).ctl.dbg = w.ctl.dbg := rfl
@[simp] theorem updGlade_repair : (updGlade w g fG).ctl.repair = w.ctl.repair := rfl
@[simp] theorem updGlade_elog : (updGlade w g fG).ctl.elog = w.ctl.elog := rfl
@[simp] theorem updGlade_power : (updGlade w g fG).ctl.power = w.ctl.power := rfl
@[simp] theorem updGlade_links : (updGlade w g fG).ctl.links = w.ctl.links := rfl
@[simp] theorem updGlade_boot : (updGlade w g fG).ctl.boot = w.ctl.boot := rfl
@[simp] theorem updGlade_sec : (updGlade w g fG).ctl.sec = w.ctl.sec := rfl
@[simp] theorem updGlade_model : (updGlade w g fG).ctl.model = w.ctl.model := rfl
@[simp] theorem updCtx_model : (updCtx w g fX).ctl.model = w.ctl.model := rfl
@[simp] theorem updTask_base : (updTask w g t fT).base = w.base := rfl
@[simp] theorem updTask_log : (updTask w g t fT).log = w.log := rfl
@[simp] theorem updTask_model : (updTask w g t fT).ctl.model = w.ctl.model := rfl
@[simp] theorem updTask_tick : (updTask w g t fT).ctl.tick = w.ctl.tick := rfl
@[simp] theorem updTask_parts : (updTask w g t fT).ctl.parts = w.ctl.parts := rfl
@[simp] theorem updTask_net : (updTask w g t fT).ctl.net = w.ctl.net := rfl
@[simp] theorem updTask_marks : (updTask w g t fT).ctl.marks = w.ctl.marks := rfl
@[simp] theorem updTask_repair : (updTask w g t fT).ctl.repair = w.ctl.repair := rfl
@[simp] theorem updTask_elog : (updTask w g t fT).ctl.elog = w.ctl.elog := rfl
@[simp] theorem updTask_links : (updTask w g t fT).ctl.links = w.ctl.links := rfl
@[simp] theorem updModel_base : (updModel w fM).base = w.base := rfl
@[simp] theorem updModel_log : (updModel w fM).log = w.log := rfl
@[simp] theorem updModel_model : (updModel w fM).ctl.model = fM w.ctl.model := rfl
@[simp] theorem updModel_glades : (updModel w fM).ctl.glades = w.ctl.glades := rfl
@[simp] theorem updModel_tick : (updModel w fM).ctl.tick = w.ctl.tick := rfl
@[simp] theorem updModel_parts : (updModel w fM).ctl.parts = w.ctl.parts := rfl
@[simp] theorem updModel_net : (updModel w fM).ctl.net = w.ctl.net := rfl
@[simp] theorem updModel_marks : (updModel w fM).ctl.marks = w.ctl.marks := rfl
@[simp] theorem updModel_repair : (updModel w fM).ctl.repair = w.ctl.repair := rfl
@[simp] theorem updModel_elog : (updModel w fM).ctl.elog = w.ctl.elog := rfl
@[simp] theorem updModel_links : (updModel w fM).ctl.links = w.ctl.links := rfl
@[simp] theorem start_base (s : State) : (Work.start s).base = s.mem := rfl
@[simp] theorem start_ctl (s : State) : (Work.start s).ctl = s.ctl := rfl
@[simp] theorem start_log (s : State) : (Work.start s).log = [] := rfl
@[simp] theorem doneIn_ctl (s : State) : (w.doneIn s).ctl = w.ctl := rfl
@[simp] theorem doneIn_mem (s : State) : (w.doneIn s).mem = applyLog w.log s.mem := rfl
end

/-! ## Glades and tasks -/
section
variable (w : Work) (g t h k : Nat) (fG : Glade → Glade) (fX : GladeCtx → GladeCtx) (fT : Task → Task)
@[simp] theorem gladeOf_updGlade : gladeOf (updGlade w g fG).ctl g = fG (gladeOf w.ctl g) := by
  simp [updGlade, setGlade, gladeOf]
theorem gladeOf_updGlade_of_ne (hne : h ≠ g) : gladeOf (updGlade w g fG).ctl h = gladeOf w.ctl h := by
  simp [updGlade, setGlade, gladeOf, Tab.getD_set_of_ne _ _ _ _ _ hne]
@[simp] theorem gladeOf_updCtx : gladeOf (updCtx w g fX).ctl g = { gladeOf w.ctl g with ctx := fX (gladeOf w.ctl g).ctx } := by
  simp [updCtx]
theorem gladeOf_updCtx_of_ne (hne : h ≠ g) : gladeOf (updCtx w g fX).ctl h = gladeOf w.ctl h :=
  gladeOf_updGlade_of_ne w g h _ hne
@[simp] theorem taskOf_updTask : taskOf (updTask w g t fT).ctl g t = fT (taskOf w.ctl g t) := by
  simp [updTask, taskOf]
theorem taskOf_updTask_of_ne (hne : h ≠ g ∨ k ≠ t) : taskOf (updTask w g t fT).ctl h k = taskOf w.ctl h k := by
  by_cases hg : h = g
  · subst hg
    have hk : k ≠ t := by omega
    simp [updTask, taskOf, Tab.getD_set_of_ne _ _ _ _ _ hk]
  · simp only [updTask, taskOf, gladeOf_updCtx_of_ne w g h _ hg]
@[simp] theorem gladeOf_updTask_halted : (gladeOf (updTask w g t fT).ctl h).halted = (gladeOf w.ctl h).halted := by
  by_cases hg : h = g
  · subst hg; simp [updTask]
  · simp [updTask, gladeOf_updCtx_of_ne w g h _ hg]
@[simp] theorem gladeOf_updTask_owner : (gladeOf (updTask w g t fT).ctl h).owner = (gladeOf w.ctl h).owner := by
  by_cases hg : h = g
  · subst hg; simp [updTask]
  · simp [updTask, gladeOf_updCtx_of_ne w g h _ hg]
@[simp] theorem gladeOf_updTask_banks : (gladeOf (updTask w g t fT).ctl h).banks = (gladeOf w.ctl h).banks := by
  by_cases hg : h = g
  · subst hg; simp [updTask]
  · simp [updTask, gladeOf_updCtx_of_ne w g h _ hg]
@[simp] theorem gladeOf_updTask_eng : (gladeOf (updTask w g t fT).ctl h).ctx.eng = (gladeOf w.ctl h).ctx.eng := by
  by_cases hg : h = g
  · subst hg; simp [updTask]
  · simp [updTask, gladeOf_updCtx_of_ne w g h _ hg]
@[simp] theorem gladeOf_updTask_net : (gladeOf (updTask w g t fT).ctl h).ctx.net = (gladeOf w.ctl h).ctx.net := by
  by_cases hg : h = g
  · subst hg; simp [updTask]
  · simp [updTask, gladeOf_updCtx_of_ne w g h _ hg]
@[simp] theorem gladeOf_updModel (f : Model → Model) : gladeOf (updModel w f).ctl g = gladeOf w.ctl g := rfl
@[simp] theorem taskOf_updModel (f : Model → Model) : taskOf (updModel w f).ctl g t = taskOf w.ctl g t := rfl
end

/-! ## The current task -/
section
variable (w : Work) (fT : Task → Task) (m : Marks)
@[simp] theorem curG_updTask (g t : Nat) : curG (updTask w g t fT) = curG w := rfl
@[simp] theorem curT_updTask (g t : Nat) : curT (updTask w g t fT) = curT w := rfl
@[simp] theorem curG_updMe : curG (updMe w fT) = curG w := rfl
@[simp] theorem curT_updMe : curT (updMe w fT) = curT w := rfl
@[simp] theorem me_updMe : me (updMe w fT) = fT (me w) := taskOf_updTask w (curG w) (curT w) fT
@[simp] theorem me_outcome (n : Nat) : me (outcome w n m) = me w := rfl
@[simp] theorem me_updModel (f : Model → Model) (hg : (f w.ctl.model).glade = w.ctl.model.glade)
    (ht : (f w.ctl.model).slot = w.ctl.model.slot) : me (updModel w f) = me w := by
  simp [me, curG, curT, hg, ht]
@[simp] theorem me_setPc (pc : Word) : me (setPc w pc) = { me w with pc := pc } := me_updMe w _
@[simp] theorem me_next : me (next m w) = { me w with pc := (me w).pc + 8 } := by simp [next]
@[simp] theorem me_goto (pc : Word) : me (goto m pc w) = { me w with pc := pc } := by simp [goto]
@[simp] theorem me_notReady : me (notReady m w) = me w := rfl
@[simp] theorem next_log : (next m w).log = w.log := rfl
@[simp] theorem goto_log (pc : Word) : (goto m pc w).log = w.log := rfl
@[simp] theorem updMe_log : (updMe w fT).log = w.log := rfl
@[simp] theorem next_base : (next m w).base = w.base := rfl
@[simp] theorem goto_base (pc : Word) : (goto m pc w).base = w.base := rfl
@[simp] theorem updMe_base : (updMe w fT).base = w.base := rfl
@[simp] theorem wx_log (d : XReg) (v : Word) : (wx w m d v).log = w.log := rfl
@[simp] theorem wv_log (d : VReg) (v : BitVec 2048) : (wv w m d v).log = w.log := rfl
@[simp] theorem wq_log (d : QReg) (v : Option (BitVec 6)) : (wq w m d v).log = w.log := rfl
@[simp] theorem next_issuing : (next m w).ctl.model.issuing = 1 := rfl
@[simp] theorem goto_issuing (pc : Word) : (goto m pc w).ctl.model.issuing = 1 := rfl
@[simp] theorem notReady_issuing : (notReady m w).ctl.model.issuing = 3 := rfl
end

/-! ## Registers -/
section
variable (r : Regs) (i j : XReg) (v : Word)
@[simp] theorem regX_zero : regX r 0 = 0 := rfl
@[simp] theorem regX_putX_zero : r.putX 0 v = r := rfl
theorem regX_putX_self (h : i ≠ 0) : regX (r.putX i v) i = v := by
  simp only [regX, Regs.putX, if_neg h, Vector.getElem_set_self]
theorem regX_putX_of_ne (h : j ≠ i) : regX (r.putX i v) j = regX r j := by
  simp only [regX, Regs.putX]
  by_cases hj : j = 0
  · simp [hj]
  · by_cases hi : i = 0
    · simp [hi]
    · have : i.toNat ≠ j.toNat := fun e => h (BitVec.eq_of_toNat_eq e.symm)
      simp only [if_neg hj, if_neg hi, Vector.getElem_set_ne _ _ this]
@[simp] theorem putX_v : (r.putX i v).v = r.v := by simp only [Regs.putX]; split <;> rfl
@[simp] theorem putX_q : (r.putX i v).q = r.q := by simp only [Regs.putX]; split <;> rfl
@[simp] theorem putX_loops : (r.putX i v).loops = r.loops := by simp only [Regs.putX]; split <;> rfl
@[simp] theorem putX_rng0 : (r.putX i v).rng0 = r.rng0 := by simp only [Regs.putX]; split <;> rfl
@[simp] theorem putX_rng1 : (r.putX i v).rng1 = r.rng1 := by simp only [Regs.putX]; split <;> rfl
@[simp] theorem regV_putV_self (d : VReg) (u : BitVec 2048) : regV (r.putV d u) d = u := by simp [regV, Regs.putV]
theorem regV_putV_of_ne (d e : VReg) (u : BitVec 2048) (h : e ≠ d) : regV (r.putV d u) e = regV r e := by
  have : d.toNat ≠ e.toNat := fun h' => h (BitVec.eq_of_toNat_eq h'.symm)
  simp [regV, Regs.putV, this]
@[simp] theorem putV_x (d : VReg) (u : BitVec 2048) : (r.putV d u).x = r.x := rfl
@[simp] theorem putV_q (d : VReg) (u : BitVec 2048) : (r.putV d u).q = r.q := rfl
@[simp] theorem putV_loops (d : VReg) (u : BitVec 2048) : (r.putV d u).loops = r.loops := rfl
@[simp] theorem regX_putV (d : VReg) (u : BitVec 2048) : regX (r.putV d u) i = regX r i := rfl
@[simp] theorem regV_putX (d : VReg) : regV (r.putX i v) d = regV r d := by simp [regV]
@[simp] theorem regQ_putX (d : QReg) : regQ (r.putX i v) d = regQ r d := by simp [regQ]
@[simp] theorem regQ_putQ_self (d : QReg) (u : Option (BitVec 6)) : regQ (r.putQ d u) d = u := by simp [regQ, Regs.putQ]
theorem regQ_putQ_of_ne (d e : QReg) (u : Option (BitVec 6)) (h : e ≠ d) : regQ (r.putQ d u) e = regQ r e := by
  have : d.toNat ≠ e.toNat := fun h' => h (BitVec.eq_of_toNat_eq h'.symm)
  simp [regQ, Regs.putQ, this]
@[simp] theorem putQ_x (d : QReg) (u : Option (BitVec 6)) : (r.putQ d u).x = r.x := rfl
@[simp] theorem putQ_v (d : QReg) (u : Option (BitVec 6)) : (r.putQ d u).v = r.v := rfl
@[simp] theorem regX_putQ (d : QReg) (u : Option (BitVec 6)) : regX (r.putQ d u) i = regX r i := rfl
@[simp] theorem regV_putQ (d : VReg) (e : QReg) (u : Option (BitVec 6)) : regV (r.putQ e u) d = regV r d := rfl
end

/-! ## Reading a register when no promise is open -/
section
variable {w : Work}
theorem staleOf_none (h : (me w).fl.promises = []) (r : RegNo) : staleOf w r = none := by simp [staleOf, h, stalePick]
theorem rx_settled (h : (me w).fl.promises = []) (i : XReg) : rx w i = regX (me w).regs i := by
  simp only [rx, staleOf_none h]
  split
  · rename_i hi; subst hi; rfl
  · rfl
theorem rv_settled (h : (me w).fl.promises = []) (i : VReg) : rv w i = regV (me w).regs i := by simp [rv, staleOf_none h]
theorem rq_settled (h : (me w).fl.promises = []) (i : QReg) : rq w i = regQ (me w).regs i := by simp [rq, staleOf_none h]
end

/-! ## What a register write leaves alone in the task -/
section
variable (T : Task) (n : Nat) (r : RegNo) (old : RegVal)
@[simp] theorem promise_regs : (promise n r old T).regs = T.regs := by simp only [promise]; split <;> rfl
@[simp] theorem promise_pc : (promise n r old T).pc = T.pc := by simp only [promise]; split <;> rfl
@[simp] theorem promise_sys : (promise n r old T).sys = T.sys := by simp only [promise]; split <;> rfl
@[simp] theorem promise_dbg : (promise n r old T).dbg = T.dbg := by simp only [promise]; split <;> rfl
@[simp] theorem promise_run : (promise n r old T).run = T.run := by simp only [promise]; split <;> rfl
@[simp] theorem promise_wait : (promise n r old T).wait = T.wait := by simp only [promise]; split <;> rfl
@[simp] theorem promise_held : (promise n r old T).held = T.held := by simp only [promise]; split <;> rfl
@[simp] theorem promise_pend : (promise n r old T).pend = T.pend := by simp only [promise]; split <;> rfl
@[simp] theorem promise_sq : (promise n r old T).fl.sq = T.fl.sq := by simp only [promise]; split <;> rfl
@[simp] theorem promise_outs : (promise n r old T).fl.outs = T.fl.outs := by simp only [promise]; split <;> rfl
@[simp] theorem promise_zero : promise 0 r old T = T := rfl
@[simp] theorem endPromise_regs : (endPromise r T).regs = T.regs := by simp only [endPromise]; split <;> rfl
@[simp] theorem endPromise_pc : (endPromise r T).pc = T.pc := by simp only [endPromise]; split <;> rfl
@[simp] theorem endPromise_sys : (endPromise r T).sys = T.sys := by simp only [endPromise]; split <;> rfl
@[simp] theorem endPromise_dbg : (endPromise r T).dbg = T.dbg := by simp only [endPromise]; split <;> rfl
@[simp] theorem endPromise_run : (endPromise r T).run = T.run := by simp only [endPromise]; split <;> rfl
@[simp] theorem endPromise_wait : (endPromise r T).wait = T.wait := by simp only [endPromise]; split <;> rfl
@[simp] theorem endPromise_held : (endPromise r T).held = T.held := by simp only [endPromise]; split <;> rfl
@[simp] theorem endPromise_pend : (endPromise r T).pend = T.pend := by simp only [endPromise]; split <;> rfl
@[simp] theorem endPromise_skipBp : (endPromise r T).skipBp = T.skipBp := by simp only [endPromise]; split <;> rfl
@[simp] theorem endPromise_oneStep : (endPromise r T).oneStep = T.oneStep := by simp only [endPromise]; split <;> rfl
@[simp] theorem endPromise_age : (endPromise r T).age = T.age := by simp only [endPromise]; split <;> rfl
@[simp] theorem endPromise_halt : (endPromise r T).halt = T.halt := by simp only [endPromise]; split <;> rfl
@[simp] theorem endPromise_sq : (endPromise r T).fl.sq = T.fl.sq := by simp only [endPromise]; split <;> rfl
@[simp] theorem endPromise_outs : (endPromise r T).fl.outs = T.fl.outs := by simp only [endPromise]; split <;> rfl
@[simp] theorem endPromise_recs : (endPromise r T).fl.recs = T.fl.recs := by simp only [endPromise]; split <;> rfl
@[simp] theorem endPromise_bars : (endPromise r T).fl.bars = T.fl.bars := by simp only [endPromise]; split <;> rfl
@[simp] theorem endPromise_guards : (endPromise r T).fl.guards = T.fl.guards := by simp only [endPromise]; split <;> rfl
@[simp] theorem endPromise_behind : (endPromise r T).fl.behind = T.fl.behind := by simp only [endPromise]; split <;> rfl
@[simp] theorem endPromise_promises : (endPromise r T).fl.promises = T.fl.promises.filter (fun p => p.reg != r) := by
  simp only [endPromise]; split
  · rename_i h; simp [h]
  · rfl
@[simp] theorem promise_skipBp : (promise n r old T).skipBp = T.skipBp := by simp only [promise]; split <;> rfl
@[simp] theorem promise_oneStep : (promise n r old T).oneStep = T.oneStep := by simp only [promise]; split <;> rfl
@[simp] theorem promise_age : (promise n r old T).age = T.age := by simp only [promise]; split <;> rfl
@[simp] theorem promise_halt : (promise n r old T).halt = T.halt := by simp only [promise]; split <;> rfl
@[simp] theorem promise_recs : (promise n r old T).fl.recs = T.fl.recs := by simp only [promise]; split <;> rfl
@[simp] theorem promise_bars : (promise n r old T).fl.bars = T.fl.bars := by simp only [promise]; split <;> rfl
@[simp] theorem promise_guards : (promise n r old T).fl.guards = T.fl.guards := by simp only [promise]; split <;> rfl
@[simp] theorem promise_behind : (promise n r old T).fl.behind = T.fl.behind := by simp only [promise]; split <;> rfl
end

/-! ## The waits that end with a port (R70) -/
section
variable (w : Work) (g : Nat) (f : Nat → Bool)
@[simp] theorem endWaits_log : (endWaits w g f).log = w.log := by simp only [endWaits]; split <;> rfl
@[simp] theorem endWaits_base : (endWaits w g f).base = w.base := by simp only [endWaits]; split <;> rfl
@[simp] theorem endWaits_parts : (endWaits w g f).ctl.parts = w.ctl.parts := by simp only [endWaits]; split <;> rfl
@[simp] theorem endWaits_model : (endWaits w g f).ctl.model = w.ctl.model := by simp only [endWaits]; split <;> rfl
@[simp] theorem endWaits_tick : (endWaits w g f).ctl.tick = w.ctl.tick := by simp only [endWaits]; split <;> rfl
@[simp] theorem endWaits_marks : (endWaits w g f).ctl.marks = w.ctl.marks := by simp only [endWaits]; split <;> rfl
@[simp] theorem endWaits_netq : (endWaits w g f).ctl.net = w.ctl.net := by simp only [endWaits]; split <;> rfl
end

/-! ## A task that falls asleep, or is woken from a barrier (R85, R208) -/
section
variable (T : Task) (why : Sleep) (w : Work)
@[simp] theorem fallAsleep_run : (fallAsleep T why).run = .sleeping why := rfl
@[simp] theorem fallAsleep_promises : (fallAsleep T why).fl.promises = [] := rfl
@[simp] theorem fallAsleep_regs : (fallAsleep T why).regs = T.regs := rfl
@[simp] theorem fallAsleep_pc : (fallAsleep T why).pc = T.pc := rfl
@[simp] theorem fallAsleep_sys : (fallAsleep T why).sys = T.sys := rfl
@[simp] theorem fallAsleep_dbg : (fallAsleep T why).dbg = T.dbg := rfl
@[simp] theorem fallAsleep_wait : (fallAsleep T why).wait = T.wait := rfl
@[simp] theorem fallAsleep_held : (fallAsleep T why).held = T.held := rfl
@[simp] theorem fallAsleep_pend : (fallAsleep T why).pend = T.pend := rfl
@[simp] theorem fallAsleep_skipBp : (fallAsleep T why).skipBp = T.skipBp := rfl
@[simp] theorem fallAsleep_oneStep : (fallAsleep T why).oneStep = T.oneStep := rfl
@[simp] theorem fallAsleep_age : (fallAsleep T why).age = T.age := rfl
@[simp] theorem fallAsleep_halt : (fallAsleep T why).halt = T.halt := rfl
@[simp] theorem fallAsleep_sq : (fallAsleep T why).fl.sq = T.fl.sq := rfl
@[simp] theorem fallAsleep_outs : (fallAsleep T why).fl.outs = T.fl.outs := rfl
@[simp] theorem fallAsleep_recs : (fallAsleep T why).fl.recs = T.fl.recs := rfl
@[simp] theorem fallAsleep_bars : (fallAsleep T why).fl.bars = T.fl.bars := rfl
@[simp] theorem fallAsleep_guards : (fallAsleep T why).fl.guards = T.fl.guards := rfl
@[simp] theorem fallAsleep_behind : (fallAsleep T why).fl.behind = T.fl.behind := rfl
@[simp] theorem wakeBar_pc : (wakeBar w T).pc = T.pc := by simp only [wakeBar]; split <;> (try split) <;> rfl
@[simp] theorem wakeBar_sys : (wakeBar w T).sys = T.sys := by simp only [wakeBar]; split <;> (try split) <;> rfl
@[simp] theorem wakeBar_dbg : (wakeBar w T).dbg = T.dbg := by simp only [wakeBar]; split <;> (try split) <;> rfl
@[simp] theorem wakeBar_fl : (wakeBar w T).fl = T.fl := by simp only [wakeBar]; split <;> (try split) <;> rfl
@[simp] theorem wakeBar_wait : (wakeBar w T).wait = T.wait := by simp only [wakeBar]; split <;> (try split) <;> rfl
@[simp] theorem wakeBar_held : (wakeBar w T).held = T.held := by simp only [wakeBar]; split <;> (try split) <;> rfl
@[simp] theorem wakeBar_pend : (wakeBar w T).pend = T.pend := by simp only [wakeBar]; split <;> (try split) <;> rfl
@[simp] theorem wakeBar_skipBp : (wakeBar w T).skipBp = T.skipBp := by simp only [wakeBar]; split <;> (try split) <;> rfl
@[simp] theorem wakeBar_oneStep : (wakeBar w T).oneStep = T.oneStep := by simp only [wakeBar]; split <;> (try split) <;> rfl
@[simp] theorem wakeBar_age : (wakeBar w T).age = T.age := by simp only [wakeBar]; split <;> (try split) <;> rfl
@[simp] theorem wakeBar_halt : (wakeBar w T).halt = T.halt := by simp only [wakeBar]; split <;> (try split) <;> rfl
end

/-! ## Partitions -/
section
variable (w : Work) (p q : Nat) (f : Part → Part)
@[simp] theorem partOf_updPart : partOf (updPart w p f).ctl p = f (partOf w.ctl p) := by simp [updPart, partOf]
theorem partOf_updPart_of_ne (h : q ≠ p) : partOf (updPart w p f).ctl q = partOf w.ctl q := by
  simp [updPart, partOf, Tab.getD_set_of_ne _ _ _ _ _ h]
@[simp] theorem updPart_tick : (updPart w p f).ctl.tick = w.ctl.tick := rfl
@[simp] theorem updPart_glades : (updPart w p f).ctl.glades = w.ctl.glades := rfl
@[simp] theorem updPart_net : (updPart w p f).ctl.net = w.ctl.net := rfl
@[simp] theorem updPart_marks : (updPart w p f).ctl.marks = w.ctl.marks := rfl
@[simp] theorem updPart_model : (updPart w p f).ctl.model = w.ctl.model := rfl
@[simp] theorem updPart_repair : (updPart w p f).ctl.repair = w.ctl.repair := rfl
@[simp] theorem updPart_elog : (updPart w p f).ctl.elog = w.ctl.elog := rfl
@[simp] theorem updPart_power : (updPart w p f).ctl.power = w.ctl.power := rfl
@[simp] theorem updPart_links : (updPart w p f).ctl.links = w.ctl.links := rfl
@[simp] theorem updPart_boot : (updPart w p f).ctl.boot = w.ctl.boot := rfl
@[simp] theorem updPart_sec : (updPart w p f).ctl.sec = w.ctl.sec := rfl
@[simp] theorem updPart_dbg : (updPart w p f).ctl.dbg = w.ctl.dbg := rfl
@[simp] theorem updPart_mring : (updPart w p f).ctl.mring = w.ctl.mring := rfl
@[simp] theorem updPart_psel : (updPart w p f).ctl.psel = w.ctl.psel := rfl
@[simp] theorem updPart_log : (updPart w p f).log = w.log := rfl
@[simp] theorem updPart_base : (updPart w p f).base = w.base := rfl
end

end Sys2Proof.Machine
end

