-- ==== Sys2Proof/Laws/Meaning.lean ====
section
/-! SUPPORT. How a meaning is read: what it commits, what a register shows when no promise is open, and what the ends of an
instruction leave behind. -/
namespace Sys2Proof.Machine

theorem commit_after (s : State) (f : Work → Work) : commit s f = .next (s.after f) := rfl

@[simp] theorem me_start (s : State) : me (Work.start s) = s.task := rfl
@[simp] theorem curG_start (s : State) : curG (Work.start s) = s.g := rfl
@[simp] theorem curT_start (s : State) : curT (Work.start s) = s.t := rfl
@[simp] theorem after_ctl (s : State) (f : Work → Work) : (s.after f).ctl = (f (Work.start s)).ctl := rfl
@[simp] theorem after_mem (s : State) (f : Work → Work) : (s.after f).mem = applyLog (f (Work.start s)).log s.mem := rfl
@[simp] theorem start_mem_bytes (s : State) (a : Nat) : (Work.start s).get a = s.byte a := rfl

section
variable {s : State}
theorem rx_start (h : s.Settled) (i : XReg) : rx (Work.start s) i = s.x i := rx_settled (w := Work.start s) h i
theorem rv_start (h : s.Settled) (i : VReg) : rv (Work.start s) i = s.v i := rv_settled (w := Work.start s) h i
theorem rq_start (h : s.Settled) (i : QReg) : rq (Work.start s) i = s.q i := rq_settled (w := Work.start s) h i
end

/-- The current task of the state after work. -/
theorem after_task (s : State) (f : Work → Work) : (s.after f).task = me (f (Work.start s)) := rfl

end Sys2Proof.Machine

namespace Sys2Proof.Machine

/-! ## Work on the current task only -/

/-- `w'` came from `w` by changing the current task and what the model keeps for itself. -/
structure Mine (w w' : Work) : Prop where
  log : w'.log = w.log
  tasks : ∀ g k, g ≠ curG w ∨ k ≠ curT w → taskOf w'.ctl g k = taskOf w.ctl g k
  glades : ∀ g, (gladeOf w'.ctl g).bare = (gladeOf w.ctl g).bare
  package : { w'.ctl with glades := w.ctl.glades, model := w.ctl.model } = w.ctl
  curG : curG w' = curG w
  curT : curT w' = curT w

theorem Mine.refl (w : Work) : Mine w w := ⟨rfl, fun _ _ _ => rfl, fun _ => rfl, rfl, rfl, rfl⟩

theorem Mine.trans {a b c : Work} (h : Mine a b) (k : Mine b c) : Mine a c where
  log := k.log.trans h.log
  tasks g t hh := (k.tasks g t (by rw [h.curG, h.curT]; exact hh)).trans (h.tasks g t hh)
  glades g := (k.glades g).trans (h.glades g)
  package := by
    have hk := k.package
    have hh := h.package
    rw [← hh, ← hk]
  curG := k.curG.trans h.curG
  curT := k.curT.trans h.curT

theorem gladeOf_updTask_bare (w : Work) (g t h : Nat) (f : Task → Task) :
    (gladeOf (updTask w g t f).ctl h).bare = (gladeOf w.ctl h).bare := by
  by_cases hg : h = g
  · subst hg; simp [updTask, Glade.bare]
  · simp only [updTask, gladeOf_updCtx_of_ne w g h _ hg]

theorem mine_updMe (w : Work) (f : Task → Task) : Mine w (updMe w f) where
  log := rfl
  tasks g k h := taskOf_updTask_of_ne w _ _ g k f h
  glades g := gladeOf_updTask_bare w _ _ g f
  package := rfl
  curG := rfl
  curT := rfl

theorem mine_outcome (w : Work) (n : Nat) (m : Marks) : Mine w (outcome w n m) :=
  ⟨rfl, fun _ _ _ => rfl, fun _ => rfl, rfl, rfl, rfl⟩
theorem mine_next (w : Work) (m : Marks) : Mine w (next m w) := (mine_updMe w _).trans (mine_outcome _ 1 m)
theorem mine_goto (w : Work) (m : Marks) (pc : Word) : Mine w (goto m pc w) := (mine_updMe w _).trans (mine_outcome _ 1 m)
theorem mine_wx (w : Work) (m : Marks) (d : XReg) (v : Word) : Mine w (wx w m d v) := mine_updMe w _
theorem mine_wv (w : Work) (m : Marks) (d : VReg) (v : BitVec 2048) : Mine w (wv w m d v) := mine_updMe w _
theorem mine_wq (w : Work) (m : Marks) (d : QReg) (v : Option (BitVec 6)) : Mine w (wq w m d v) := mine_updMe w _
theorem mine_setSat (w : Work) (b : Bool) : Mine w (setSat w b) := by
  unfold setSat; split
  · exact mine_updMe w _
  · exact Mine.refl w
theorem mine_setClamp (w : Work) (b : Bool) : Mine w (setClamp w b) := by
  unfold setClamp; split
  · exact mine_updMe w _
  · exact Mine.refl w

/-- Work on the current task only leaves memory, every other task and the package. -/
theorem Mine.after {s : State} {f : Work → Work} (h : Mine (Work.start s) (f (Work.start s))) : OnlyMine s (s.after f) where
  mem := by simp [h.log, applyLog]
  tasks := h.tasks
  glades := h.glades
  package := h.package
  same := ⟨h.curG, h.curT⟩

end Sys2Proof.Machine
end

