-- ==== Sys2Proof/Laws/PerInstr.lean ====
section
/-! SUPPORT. The lemmas per instruction: what the encoder writes, the decoder reads back. -/
namespace Sys2Proof.Laws.RoundTrip

/-- A well-formed instruction is read back from its words. -/
def Statement (i : Instr) : Prop := i.wf = true → ∀ n, decode (wordsOf i n).1 (wordsOf i n).2 = .ok i

theorem wf_ok {i : Instr} (h : i.wf = true) : i.ok2 = true ∧ i.ok3 = true ∧ i.ok4 = true := by
  simp only [Instr.wf, Bool.and_eq_true] at h
  exact ⟨h.1.1.2, h.1.2, h.2⟩

theorem single {i : Instr} {w : Word} (he : encode i = [w])
    (h : i.ok2 = true → i.ok3 = true → i.ok4 = true → ∀ n, decode w n = .ok i) : Statement i := by
  intro hw n
  obtain ⟨h2, h3, h4⟩ := wf_ok hw
  rw [wordsOf, he]
  exact h h2 h3 h4 n

theorem nop (m : Marks) (tag : BitVec 28) : Statement (.nop m tag) := by
  refine single rfl (fun h2 h3 h4 n => ?_)
  rw [sW]
  refine (decode_op 0x1#8 _ n (opOf_joinS _ _) (by decide) (by decide)).trans ?_
  change dSi .nop (splitS (joinS _ _)) = _
  rw [splitS_joinS]
  simp [dSi]
  exact finish_ok _ h2 h3 h4
theorem add (m : Marks) (d : XReg) (a : XReg) (b : XReg) : Statement (.add m d a b) := by
  refine single rfl (fun h2 h3 h4 n => ?_)
  rw [alu3, rW]
  refine (decode_op 0x10#8 _ n (opOf_joinR _ _) (by decide) (by decide)).trans ?_
  change dRRR aluOf (splitR (joinR _ _)) = _
  rw [splitR_joinR]
  simp [dRRR]
  exact finish_ok _ h2 h3 h4
theorem sub (m : Marks) (d : XReg) (a : XReg) (b : XReg) : Statement (.sub m d a b) := by
  refine single rfl (fun h2 h3 h4 n => ?_)
  rw [alu3, rW]
  refine (decode_op 0x10#8 _ n (opOf_joinR _ _) (by decide) (by decide)).trans ?_
  change dRRR aluOf (splitR (joinR _ _)) = _
  rw [splitR_joinR]
  simp [dRRR]
  exact finish_ok _ h2 h3 h4
theorem and (m : Marks) (d : XReg) (a : XReg) (b : XReg) : Statement (.and m d a b) := by
  refine single rfl (fun h2 h3 h4 n => ?_)
  rw [alu3, rW]
  refine (decode_op 0x10#8 _ n (opOf_joinR _ _) (by decide) (by decide)).trans ?_
  change dRRR aluOf (splitR (joinR _ _)) = _
  rw [splitR_joinR]
  simp [dRRR]
  exact finish_ok _ h2 h3 h4
theorem or (m : Marks) (d : XReg) (a : XReg) (b : XReg) : Statement (.or m d a b) := by
  refine single rfl (fun h2 h3 h4 n => ?_)
  rw [alu3, rW]
  refine (decode_op 0x10#8 _ n (opOf_joinR _ _) (by decide) (by decide)).trans ?_
  change dRRR aluOf (splitR (joinR _ _)) = _
  rw [splitR_joinR]
  simp [dRRR]
  exact finish_ok _ h2 h3 h4
theorem xor (m : Marks) (d : XReg) (a : XReg) (b : XReg) : Statement (.xor m d a b) := by
  refine single rfl (fun h2 h3 h4 n => ?_)
  rw [alu3, rW]
  refine (decode_op 0x10#8 _ n (opOf_joinR _ _) (by decide) (by decide)).trans ?_
  change dRRR aluOf (splitR (joinR _ _)) = _
  rw [splitR_joinR]
  simp [dRRR]
  exact finish_ok _ h2 h3 h4
theorem shl (m : Marks) (d : XReg) (a : XReg) (b : XReg) : Statement (.shl m d a b) := by
  refine single rfl (fun h2 h3 h4 n => ?_)
  rw [alu3, rW]
  refine (decode_op 0x10#8 _ n (opOf_joinR _ _) (by decide) (by decide)).trans ?_
  change dRRR aluOf (splitR (joinR _ _)) = _
  rw [splitR_joinR]
  simp [dRRR]
  exact finish_ok _ h2 h3 h4
theorem shr (m : Marks) (d : XReg) (a : XReg) (b : XReg) : Statement (.shr m d a b) := by
  refine single rfl (fun h2 h3 h4 n => ?_)
  rw [alu3, rW]
  refine (decode_op 0x10#8 _ n (opOf_joinR _ _) (by decide) (by decide)).trans ?_
  change dRRR aluOf (splitR (joinR _ _)) = _
  rw [splitR_joinR]
  simp [dRRR]
  exact finish_ok _ h2 h3 h4
theorem sar (m : Marks) (d : XReg) (a : XReg) (b : XReg) : Statement (.sar m d a b) := by
  refine single rfl (fun h2 h3 h4 n => ?_)
  rw [alu3, rW]
  refine (decode_op 0x10#8 _ n (opOf_joinR _ _) (by decide) (by decide)).trans ?_
  change dRRR aluOf (splitR (joinR _ _)) = _
  rw [splitR_joinR]
  simp [dRRR]
  exact finish_ok _ h2 h3 h4
theorem rol (m : Marks) (d : XReg) (a : XReg) (b : XReg) : Statement (.rol m d a b) := by
  refine single rfl (fun h2 h3 h4 n => ?_)
  rw [alu3, rW]
  refine (decode_op 0x10#8 _ n (opOf_joinR _ _) (by decide) (by decide)).trans ?_
  change dRRR aluOf (splitR (joinR _ _)) = _
  rw [splitR_joinR]
  simp [dRRR]
  exact finish_ok _ h2 h3 h4
theorem ror (m : Marks) (d : XReg) (a : XReg) (b : XReg) : Statement (.ror m d a b) := by
  refine single rfl (fun h2 h3 h4 n => ?_)
  rw [alu3, rW]
  refine (decode_op 0x10#8 _ n (opOf_joinR _ _) (by decide) (by decide)).trans ?_
  change dRRR aluOf (splitR (joinR _ _)) = _
  rw [splitR_joinR]
  simp [dRRR]
  exact finish_ok _ h2 h3 h4
theorem min (m : Marks) (d : XReg) (a : XReg) (b : XReg) : Statement (.min m d a b) := by
  refine single rfl (fun h2 h3 h4 n => ?_)
  rw [alu3, rW]
  refine (decode_op 0x10#8 _ n (opOf_joinR _ _) (by decide) (by decide)).trans ?_
  change dRRR aluOf (splitR (joinR _ _)) = _
  rw [splitR_joinR]
  simp [dRRR]
  exact finish_ok _ h2 h3 h4
theorem max (m : Marks) (d : XReg) (a : XReg) (b : XReg) : Statement (.max m d a b) := by
  refine single rfl (fun h2 h3 h4 n => ?_)
  rw [alu3, rW]
  refine (decode_op 0x10#8 _ n (opOf_joinR _ _) (by decide) (by decide)).trans ?_
  change dRRR aluOf (splitR (joinR _ _)) = _
  rw [splitR_joinR]
  simp [dRRR]
  exact finish_ok _ h2 h3 h4
theorem minu (m : Marks) (d : XReg) (a : XReg) (b : XReg) : Statement (.minu m d a b) := by
  refine single rfl (fun h2 h3 h4 n => ?_)
  rw [alu3, rW]
  refine (decode_op 0x10#8 _ n (opOf_joinR _ _) (by decide) (by decide)).trans ?_
  change dRRR aluOf (splitR (joinR _ _)) = _
  rw [splitR_joinR]
  simp [dRRR]
  exact finish_ok _ h2 h3 h4
theorem maxu (m : Marks) (d : XReg) (a : XReg) (b : XReg) : Statement (.maxu m d a b) := by
  refine single rfl (fun h2 h3 h4 n => ?_)
  rw [alu3, rW]
  refine (decode_op 0x10#8 _ n (opOf_joinR _ _) (by decide) (by decide)).trans ?_
  change dRRR aluOf (splitR (joinR _ _)) = _
  rw [splitR_joinR]
  simp [dRRR]
  exact finish_ok _ h2 h3 h4
theorem slt (m : Marks) (d : XReg) (a : XReg) (b : XReg) : Statement (.slt m d a b) := by
  refine single rfl (fun h2 h3 h4 n => ?_)
  rw [alu3, rW]
  refine (decode_op 0x10#8 _ n (opOf_joinR _ _) (by decide) (by decide)).trans ?_
  change dRRR aluOf (splitR (joinR _ _)) = _
  rw [splitR_joinR]
  simp [dRRR]
  exact finish_ok _ h2 h3 h4
theorem sltu (m : Marks) (d : XReg) (a : XReg) (b : XReg) : Statement (.sltu m d a b) := by
  refine single rfl (fun h2 h3 h4 n => ?_)
  rw [alu3, rW]
  refine (decode_op 0x10#8 _ n (opOf_joinR _ _) (by decide) (by decide)).trans ?_
  change dRRR aluOf (splitR (joinR _ _)) = _
  rw [splitR_joinR]
  simp [dRRR]
  exact finish_ok _ h2 h3 h4
theorem seq (m : Marks) (d : XReg) (a : XReg) (b : XReg) : Statement (.seq m d a b) := by
  refine single rfl (fun h2 h3 h4 n => ?_)
  rw [alu3, rW]
  refine (decode_op 0x10#8 _ n (opOf_joinR _ _) (by decide) (by decide)).trans ?_
  change dRRR aluOf (splitR (joinR _ _)) = _
  rw [splitR_joinR]
  simp [dRRR]
  exact finish_ok _ h2 h3 h4
theorem sne (m : Marks) (d : XReg) (a : XReg) (b : XReg) : Statement (.sne m d a b) := by
  refine single rfl (fun h2 h3 h4 n => ?_)
  rw [alu3, rW]
  refine (decode_op 0x10#8 _ n (opOf_joinR _ _) (by decide) (by decide)).trans ?_
  change dRRR aluOf (splitR (joinR _ _)) = _
  rw [splitR_joinR]
  simp [dRRR]
  exact finish_ok _ h2 h3 h4
theorem addi (m : Marks) (d : XReg) (a : XReg) (imm : BitVec 32) : Statement (.addi m d a imm) := by
  refine single rfl (fun h2 h3 h4 n => ?_)
  rw [alui, iW]
  refine (decode_op 0x11#8 _ n (opOf_joinI _ _) (by decide) (by decide)).trans ?_
  change dRRI aluiOf (splitI (joinI _ _)) = _
  rw [splitI_joinI]
  simp [dRRI]
  exact finish_ok _ h2 h3 h4
theorem subi (m : Marks) (d : XReg) (a : XReg) (imm : BitVec 32) : Statement (.subi m d a imm) := by
  refine single rfl (fun h2 h3 h4 n => ?_)
  rw [alui, iW]
  refine (decode_op 0x11#8 _ n (opOf_joinI _ _) (by decide) (by decide)).trans ?_
  change dRRI aluiOf (splitI (joinI _ _)) = _
  rw [splitI_joinI]
  simp [dRRI]
  exact finish_ok _ h2 h3 h4
theorem andi (m : Marks) (d : XReg) (a : XReg) (imm : BitVec 32) : Statement (.andi m d a imm) := by
  refine single rfl (fun h2 h3 h4 n => ?_)
  rw [alui, iW]
  refine (decode_op 0x11#8 _ n (opOf_joinI _ _) (by decide) (by decide)).trans ?_
  change dRRI aluiOf (splitI (joinI _ _)) = _
  rw [splitI_joinI]
  simp [dRRI]
  exact finish_ok _ h2 h3 h4
theorem ori (m : Marks) (d : XReg) (a : XReg) (imm : BitVec 32) : Statement (.ori m d a imm) := by
  refine single rfl (fun h2 h3 h4 n => ?_)
  rw [alui, iW]
  refine (decode_op 0x11#8 _ n (opOf_joinI _ _) (by decide) (by decide)).trans ?_
  change dRRI aluiOf (splitI (joinI _ _)) = _
  rw [splitI_joinI]
  simp [dRRI]
  exact finish_ok _ h2 h3 h4
theorem xori (m : Marks) (d : XReg) (a : XReg) (imm : BitVec 32) : Statement (.xori m d a imm) := by
  refine single rfl (fun h2 h3 h4 n => ?_)
  rw [alui, iW]
  refine (decode_op 0x11#8 _ n (opOf_joinI _ _) (by decide) (by decide)).trans ?_
  change dRRI aluiOf (splitI (joinI _ _)) = _
  rw [splitI_joinI]
  simp [dRRI]
  exact finish_ok _ h2 h3 h4
theorem shli (m : Marks) (d : XReg) (a : XReg) (imm : BitVec 32) : Statement (.shli m d a imm) := by
  refine single rfl (fun h2 h3 h4 n => ?_)
  rw [alui, iW]
  refine (decode_op 0x11#8 _ n (opOf_joinI _ _) (by decide) (by decide)).trans ?_
  change dRRI aluiOf (splitI (joinI _ _)) = _
  rw [splitI_joinI]
  simp [dRRI]
  exact finish_ok _ h2 h3 h4
theorem shri (m : Marks) (d : XReg) (a : XReg) (imm : BitVec 32) : Statement (.shri m d a imm) := by
  refine single rfl (fun h2 h3 h4 n => ?_)
  rw [alui, iW]
  refine (decode_op 0x11#8 _ n (opOf_joinI _ _) (by decide) (by decide)).trans ?_
  change dRRI aluiOf (splitI (joinI _ _)) = _
  rw [splitI_joinI]
  simp [dRRI]
  exact finish_ok _ h2 h3 h4
theorem sari (m : Marks) (d : XReg) (a : XReg) (imm : BitVec 32) : Statement (.sari m d a imm) := by
  refine single rfl (fun h2 h3 h4 n => ?_)
  rw [alui, iW]
  refine (decode_op 0x11#8 _ n (opOf_joinI _ _) (by decide) (by decide)).trans ?_
  change dRRI aluiOf (splitI (joinI _ _)) = _
  rw [splitI_joinI]
  simp [dRRI]
  exact finish_ok _ h2 h3 h4
theorem roli (m : Marks) (d : XReg) (a : XReg) (imm : BitVec 32) : Statement (.roli m d a imm) := by
  refine single rfl (fun h2 h3 h4 n => ?_)
  rw [alui, iW]
  refine (decode_op 0x11#8 _ n (opOf_joinI _ _) (by decide) (by decide)).trans ?_
  change dRRI aluiOf (splitI (joinI _ _)) = _
  rw [splitI_joinI]
  simp [dRRI]
  exact finish_ok _ h2 h3 h4
theorem rori (m : Marks) (d : XReg) (a : XReg) (imm : BitVec 32) : Statement (.rori m d a imm) := by
  refine single rfl (fun h2 h3 h4 n => ?_)
  rw [alui, iW]
  refine (decode_op 0x11#8 _ n (opOf_joinI _ _) (by decide) (by decide)).trans ?_
  change dRRI aluiOf (splitI (joinI _ _)) = _
  rw [splitI_joinI]
  simp [dRRI]
  exact finish_ok _ h2 h3 h4
theorem mini (m : Marks) (d : XReg) (a : XReg) (imm : BitVec 32) : Statement (.mini m d a imm) := by
  refine single rfl (fun h2 h3 h4 n => ?_)
  rw [alui, iW]
  refine (decode_op 0x11#8 _ n (opOf_joinI _ _) (by decide) (by decide)).trans ?_
  change dRRI aluiOf (splitI (joinI _ _)) = _
  rw [splitI_joinI]
  simp [dRRI]
  exact finish_ok _ h2 h3 h4
theorem maxi (m : Marks) (d : XReg) (a : XReg) (imm : BitVec 32) : Statement (.maxi m d a imm) := by
  refine single rfl (fun h2 h3 h4 n => ?_)
  rw [alui, iW]
  refine (decode_op 0x11#8 _ n (opOf_joinI _ _) (by decide) (by decide)).trans ?_
  change dRRI aluiOf (splitI (joinI _ _)) = _
  rw [splitI_joinI]
  simp [dRRI]
  exact finish_ok _ h2 h3 h4
theorem minui (m : Marks) (d : XReg) (a : XReg) (imm : BitVec 32) : Statement (.minui m d a imm) := by
  refine single rfl (fun h2 h3 h4 n => ?_)
  rw [alui, iW]
  refine (decode_op 0x11#8 _ n (opOf_joinI _ _) (by decide) (by decide)).trans ?_
  change dRRI aluiOf (splitI (joinI _ _)) = _
  rw [splitI_joinI]
  simp [dRRI]
  exact finish_ok _ h2 h3 h4
theorem maxui (m : Marks) (d : XReg) (a : XReg) (imm : BitVec 32) : Statement (.maxui m d a imm) := by
  refine single rfl (fun h2 h3 h4 n => ?_)
  rw [alui, iW]
  refine (decode_op 0x11#8 _ n (opOf_joinI _ _) (by decide) (by decide)).trans ?_
  change dRRI aluiOf (splitI (joinI _ _)) = _
  rw [splitI_joinI]
  simp [dRRI]
  exact finish_ok _ h2 h3 h4
theorem slti (m : Marks) (d : XReg) (a : XReg) (imm : BitVec 32) : Statement (.slti m d a imm) := by
  refine single rfl (fun h2 h3 h4 n => ?_)
  rw [alui, iW]
  refine (decode_op 0x11#8 _ n (opOf_joinI _ _) (by decide) (by decide)).trans ?_
  change dRRI aluiOf (splitI (joinI _ _)) = _
  rw [splitI_joinI]
  simp [dRRI]
  exact finish_ok _ h2 h3 h4
theorem sltui (m : Marks) (d : XReg) (a : XReg) (imm : BitVec 32) : Statement (.sltui m d a imm) := by
  refine single rfl (fun h2 h3 h4 n => ?_)
  rw [alui, iW]
  refine (decode_op 0x11#8 _ n (opOf_joinI _ _) (by decide) (by decide)).trans ?_
  change dRRI aluiOf (splitI (joinI _ _)) = _
  rw [splitI_joinI]
  simp [dRRI]
  exact finish_ok _ h2 h3 h4
theorem seqi (m : Marks) (d : XReg) (a : XReg) (imm : BitVec 32) : Statement (.seqi m d a imm) := by
  refine single rfl (fun h2 h3 h4 n => ?_)
  rw [alui, iW]
  refine (decode_op 0x11#8 _ n (opOf_joinI _ _) (by decide) (by decide)).trans ?_
  change dRRI aluiOf (splitI (joinI _ _)) = _
  rw [splitI_joinI]
  simp [dRRI]
  exact finish_ok _ h2 h3 h4
theorem snei (m : Marks) (d : XReg) (a : XReg) (imm : BitVec 32) : Statement (.snei m d a imm) := by
  refine single rfl (fun h2 h3 h4 n => ?_)
  rw [alui, iW]
  refine (decode_op 0x11#8 _ n (opOf_joinI _ _) (by decide) (by decide)).trans ?_
  change dRRI aluiOf (splitI (joinI _ _)) = _
  rw [splitI_joinI]
  simp [dRRI]
  exact finish_ok _ h2 h3 h4
theorem mul (m : Marks) (d : XReg) (a : XReg) (b : XReg) : Statement (.mul m d a b) := by
  refine single rfl (fun h2 h3 h4 n => ?_)
  rw [mul3, rW]
  refine (decode_op 0x12#8 _ n (opOf_joinR _ _) (by decide) (by decide)).trans ?_
  change dRRR mulOf (splitR (joinR _ _)) = _
  rw [splitR_joinR]
  simp [dRRR]
  exact finish_ok _ h2 h3 h4
theorem mulh (m : Marks) (d : XReg) (a : XReg) (b : XReg) : Statement (.mulh m d a b) := by
  refine single rfl (fun h2 h3 h4 n => ?_)
  rw [mul3, rW]
  refine (decode_op 0x12#8 _ n (opOf_joinR _ _) (by decide) (by decide)).trans ?_
  change dRRR mulOf (splitR (joinR _ _)) = _
  rw [splitR_joinR]
  simp [dRRR]
  exact finish_ok _ h2 h3 h4
theorem mulhu (m : Marks) (d : XReg) (a : XReg) (b : XReg) : Statement (.mulhu m d a b) := by
  refine single rfl (fun h2 h3 h4 n => ?_)
  rw [mul3, rW]
  refine (decode_op 0x12#8 _ n (opOf_joinR _ _) (by decide) (by decide)).trans ?_
  change dRRR mulOf (splitR (joinR _ _)) = _
  rw [splitR_joinR]
  simp [dRRR]
  exact finish_ok _ h2 h3 h4
theorem div (m : Marks) (d : XReg) (a : XReg) (b : XReg) : Statement (.div m d a b) := by
  refine single rfl (fun h2 h3 h4 n => ?_)
  rw [mul3, rW]
  refine (decode_op 0x12#8 _ n (opOf_joinR _ _) (by decide) (by decide)).trans ?_
  change dRRR mulOf (splitR (joinR _ _)) = _
  rw [splitR_joinR]
  simp [dRRR]
  exact finish_ok _ h2 h3 h4
theorem divu (m : Marks) (d : XReg) (a : XReg) (b : XReg) : Statement (.divu m d a b) := by
  refine single rfl (fun h2 h3 h4 n => ?_)
  rw [mul3, rW]
  refine (decode_op 0x12#8 _ n (opOf_joinR _ _) (by decide) (by decide)).trans ?_
  change dRRR mulOf (splitR (joinR _ _)) = _
  rw [splitR_joinR]
  simp [dRRR]
  exact finish_ok _ h2 h3 h4
theorem rem (m : Marks) (d : XReg) (a : XReg) (b : XReg) : Statement (.rem m d a b) := by
  refine single rfl (fun h2 h3 h4 n => ?_)
  rw [mul3, rW]
  refine (decode_op 0x12#8 _ n (opOf_joinR _ _) (by decide) (by decide)).trans ?_
  change dRRR mulOf (splitR (joinR _ _)) = _
  rw [splitR_joinR]
  simp [dRRR]
  exact finish_ok _ h2 h3 h4
theorem remu (m : Marks) (d : XReg) (a : XReg) (b : XReg) : Statement (.remu m d a b) := by
  refine single rfl (fun h2 h3 h4 n => ?_)
  rw [mul3, rW]
  refine (decode_op 0x12#8 _ n (opOf_joinR _ _) (by decide) (by decide)).trans ?_
  change dRRR mulOf (splitR (joinR _ _)) = _
  rw [splitR_joinR]
  simp [dRRR]
  exact finish_ok _ h2 h3 h4
theorem clz (m : Marks) (d : XReg) (a : XReg) : Statement (.clz m d a) := by
  refine single rfl (fun h2 h3 h4 n => ?_)
  rw [bit2, rW]
  refine (decode_op 0x13#8 _ n (opOf_joinR _ _) (by decide) (by decide)).trans ?_
  change dRR bitOpOf (splitR (joinR _ _)) = _
  rw [splitR_joinR]
  simp [dRR]
  exact finish_ok _ h2 h3 h4
theorem ctz (m : Marks) (d : XReg) (a : XReg) : Statement (.ctz m d a) := by
  refine single rfl (fun h2 h3 h4 n => ?_)
  rw [bit2, rW]
  refine (decode_op 0x13#8 _ n (opOf_joinR _ _) (by decide) (by decide)).trans ?_
  change dRR bitOpOf (splitR (joinR _ _)) = _
  rw [splitR_joinR]
  simp [dRR]
  exact finish_ok _ h2 h3 h4
theorem popc (m : Marks) (d : XReg) (a : XReg) : Statement (.popc m d a) := by
  refine single rfl (fun h2 h3 h4 n => ?_)
  rw [bit2, rW]
  refine (decode_op 0x13#8 _ n (opOf_joinR _ _) (by decide) (by decide)).trans ?_
  change dRR bitOpOf (splitR (joinR _ _)) = _
  rw [splitR_joinR]
  simp [dRR]
  exact finish_ok _ h2 h3 h4
theorem sextB (m : Marks) (d : XReg) (a : XReg) : Statement (.sextB m d a) := by
  refine single rfl (fun h2 h3 h4 n => ?_)
  rw [bit2, rW]
  refine (decode_op 0x13#8 _ n (opOf_joinR _ _) (by decide) (by decide)).trans ?_
  change dRR bitOpOf (splitR (joinR _ _)) = _
  rw [splitR_joinR]
  simp [dRR]
  exact finish_ok _ h2 h3 h4
theorem sextH (m : Marks) (d : XReg) (a : XReg) : Statement (.sextH m d a) := by
  refine single rfl (fun h2 h3 h4 n => ?_)
  rw [bit2, rW]
  refine (decode_op 0x13#8 _ n (opOf_joinR _ _) (by decide) (by decide)).trans ?_
  change dRR bitOpOf (splitR (joinR _ _)) = _
  rw [splitR_joinR]
  simp [dRR]
  exact finish_ok _ h2 h3 h4
theorem sextW (m : Marks) (d : XReg) (a : XReg) : Statement (.sextW m d a) := by
  refine single rfl (fun h2 h3 h4 n => ?_)
  rw [bit2, rW]
  refine (decode_op 0x13#8 _ n (opOf_joinR _ _) (by decide) (by decide)).trans ?_
  change dRR bitOpOf (splitR (joinR _ _)) = _
  rw [splitR_joinR]
  simp [dRR]
  exact finish_ok _ h2 h3 h4
theorem zextB (m : Marks) (d : XReg) (a : XReg) : Statement (.zextB m d a) := by
  refine single rfl (fun h2 h3 h4 n => ?_)
  rw [bit2, rW]
  refine (decode_op 0x13#8 _ n (opOf_joinR _ _) (by decide) (by decide)).trans ?_
  change dRR bitOpOf (splitR (joinR _ _)) = _
  rw [splitR_joinR]
  simp [dRR]
  exact finish_ok _ h2 h3 h4
theorem zextH (m : Marks) (d : XReg) (a : XReg) : Statement (.zextH m d a) := by
  refine single rfl (fun h2 h3 h4 n => ?_)
  rw [bit2, rW]
  refine (decode_op 0x13#8 _ n (opOf_joinR _ _) (by decide) (by decide)).trans ?_
  change dRR bitOpOf (splitR (joinR _ _)) = _
  rw [splitR_joinR]
  simp [dRR]
  exact finish_ok _ h2 h3 h4
theorem zextW (m : Marks) (d : XReg) (a : XReg) : Statement (.zextW m d a) := by
  refine single rfl (fun h2 h3 h4 n => ?_)
  rw [bit2, rW]
  refine (decode_op 0x13#8 _ n (opOf_joinR _ _) (by decide) (by decide)).trans ?_
  change dRR bitOpOf (splitR (joinR _ _)) = _
  rw [splitR_joinR]
  simp [dRR]
  exact finish_ok _ h2 h3 h4
theorem brev (m : Marks) (d : XReg) (a : XReg) : Statement (.brev m d a) := by
  refine single rfl (fun h2 h3 h4 n => ?_)
  rw [bit2, rW]
  refine (decode_op 0x13#8 _ n (opOf_joinR _ _) (by decide) (by decide)).trans ?_
  change dRR bitOpOf (splitR (joinR _ _)) = _
  rw [splitR_joinR]
  simp [dRR]
  exact finish_ok _ h2 h3 h4
theorem movi (m : Marks) (d : XReg) (imm : BitVec 32) : Statement (.movi m d imm) := by
  refine single rfl (fun h2 h3 h4 n => ?_)
  rw [iW]
  refine (decode_op 0x14#8 _ n (opOf_joinI _ _) (by decide) (by decide)).trans ?_
  change dMovi (splitI (joinI _ _)) = _
  rw [splitI_joinI]
  simp [dMovi]
  exact finish_ok _ h2 h3 h4
theorem movih (m : Marks) (d : XReg) (a : XReg) (imm : BitVec 32) : Statement (.movih m d a imm) := by
  refine single rfl (fun h2 h3 h4 n => ?_)
  rw [iW]
  refine (decode_op 0x15#8 _ n (opOf_joinI _ _) (by decide) (by decide)).trans ?_
  change dMovih (splitI (joinI _ _)) = _
  rw [splitI_joinI]
  simp [dMovih]
  exact finish_ok _ h2 h3 h4
theorem lea (m : Marks) (d : XReg) (a : XReg) (b : XReg) (sh : BitVec 2) : Statement (.lea m d a b sh) := by
  refine single rfl (fun h2 h3 h4 n => ?_)
  rw [rW]
  refine (decode_op 0x16#8 _ n (opOf_joinR _ _) (by decide) (by decide)).trans ?_
  change dLea (splitR (joinR _ _)) = _
  rw [splitR_joinR]
  simp [dLea]
  exact finish_ok _ h2 h3 h4
theorem leaRg (m : Marks) (d : XReg) (a : XReg) (b : XReg) : Statement (.leaRg m d a b) := by
  refine single rfl (fun h2 h3 h4 n => ?_)
  rw [rW]
  refine (decode_op 0x16#8 _ n (opOf_joinR _ _) (by decide) (by decide)).trans ?_
  change dLea (splitR (joinR _ _)) = _
  rw [splitR_joinR]
  simp [dLea]
  exact finish_ok _ h2 h3 h4
theorem beq (m : Marks) (a : XReg) (b : XReg) (off : BitVec 32) : Statement (.beq m a b off) := by
  refine single rfl (fun h2 h3 h4 n => ?_)
  rw [br, bW]
  refine (decode_op 0x20#8 _ n (opOf_joinB _ _) (by decide) (by decide)).trans ?_
  change dBranch (splitB (joinB _ _)) = _
  rw [splitB_joinB]
  simp [dBranch]
  exact finish_ok _ h2 h3 h4
theorem bne (m : Marks) (a : XReg) (b : XReg) (off : BitVec 32) : Statement (.bne m a b off) := by
  refine single rfl (fun h2 h3 h4 n => ?_)
  rw [br, bW]
  refine (decode_op 0x20#8 _ n (opOf_joinB _ _) (by decide) (by decide)).trans ?_
  change dBranch (splitB (joinB _ _)) = _
  rw [splitB_joinB]
  simp [dBranch]
  exact finish_ok _ h2 h3 h4
theorem blt (m : Marks) (a : XReg) (b : XReg) (off : BitVec 32) : Statement (.blt m a b off) := by
  refine single rfl (fun h2 h3 h4 n => ?_)
  rw [br, bW]
  refine (decode_op 0x20#8 _ n (opOf_joinB _ _) (by decide) (by decide)).trans ?_
  change dBranch (splitB (joinB _ _)) = _
  rw [splitB_joinB]
  simp [dBranch]
  exact finish_ok _ h2 h3 h4
theorem bge (m : Marks) (a : XReg) (b : XReg) (off : BitVec 32) : Statement (.bge m a b off) := by
  refine single rfl (fun h2 h3 h4 n => ?_)
  rw [br, bW]
  refine (decode_op 0x20#8 _ n (opOf_joinB _ _) (by decide) (by decide)).trans ?_
  change dBranch (splitB (joinB _ _)) = _
  rw [splitB_joinB]
  simp [dBranch]
  exact finish_ok _ h2 h3 h4
theorem bltu (m : Marks) (a : XReg) (b : XReg) (off : BitVec 32) : Statement (.bltu m a b off) := by
  refine single rfl (fun h2 h3 h4 n => ?_)
  rw [br, bW]
  refine (decode_op 0x20#8 _ n (opOf_joinB _ _) (by decide) (by decide)).trans ?_
  change dBranch (splitB (joinB _ _)) = _
  rw [splitB_joinB]
  simp [dBranch]
  exact finish_ok _ h2 h3 h4
theorem bgeu (m : Marks) (a : XReg) (b : XReg) (off : BitVec 32) : Statement (.bgeu m a b off) := by
  refine single rfl (fun h2 h3 h4 n => ?_)
  rw [br, bW]
  refine (decode_op 0x20#8 _ n (opOf_joinB _ _) (by decide) (by decide)).trans ?_
  change dBranch (splitB (joinB _ _)) = _
  rw [splitB_joinB]
  simp [dBranch]
  exact finish_ok _ h2 h3 h4
theorem bfe (m : Marks) (off : BitVec 32) : Statement (.bfe m off) := by
  refine single rfl (fun h2 h3 h4 n => ?_)
  rw [bW]
  refine (decode_op 0x20#8 _ n (opOf_joinB _ _) (by decide) (by decide)).trans ?_
  change dBranch (splitB (joinB _ _)) = _
  rw [splitB_joinB]
  simp [dBranch]
  exact finish_ok _ h2 h3 h4
theorem bnfe (m : Marks) (off : BitVec 32) : Statement (.bnfe m off) := by
  refine single rfl (fun h2 h3 h4 n => ?_)
  rw [bW]
  refine (decode_op 0x20#8 _ n (opOf_joinB _ _) (by decide) (by decide)).trans ?_
  change dBranch (splitB (joinB _ _)) = _
  rw [splitB_joinB]
  simp [dBranch]
  exact finish_ok _ h2 h3 h4
theorem j (m : Marks) (off : BitVec 32) : Statement (.j m off) := by
  refine single rfl (fun h2 h3 h4 n => ?_)
  rw [bW]
  refine (decode_op 0x21#8 _ n (opOf_joinB _ _) (by decide) (by decide)).trans ?_
  change dB0 .j (splitB (joinB _ _)) = _
  rw [splitB_joinB]
  simp [dB0]
  exact finish_ok _ h2 h3 h4
theorem jal (m : Marks) (off : BitVec 32) : Statement (.jal m off) := by
  refine single rfl (fun h2 h3 h4 n => ?_)
  rw [bW]
  refine (decode_op 0x22#8 _ n (opOf_joinB _ _) (by decide) (by decide)).trans ?_
  change dB0 .jal (splitB (joinB _ _)) = _
  rw [splitB_joinB]
  simp [dB0]
  exact finish_ok _ h2 h3 h4
theorem jr (m : Marks) (a : XReg) (off : BitVec 32) : Statement (.jr m a off) := by
  refine single rfl (fun h2 h3 h4 n => ?_)
  rw [bW]
  refine (decode_op 0x23#8 _ n (opOf_joinB _ _) (by decide) (by decide)).trans ?_
  change dB1 .jr (splitB (joinB _ _)) = _
  rw [splitB_joinB]
  simp [dB1]
  exact finish_ok _ h2 h3 h4
theorem loop (m : Marks) (a : XReg) (off : BitVec 32) : Statement (.loop m a off) := by
  refine single rfl (fun h2 h3 h4 n => ?_)
  rw [bW]
  refine (decode_op 0x24#8 _ n (opOf_joinB _ _) (by decide) (by decide)).trans ?_
  change dB1 .loop (splitB (joinB _ _)) = _
  rw [splitB_joinB]
  simp [dB1]
  exact finish_ok _ h2 h3 h4
theorem endl (m : Marks) (off : BitVec 32) : Statement (.endl m off) := by
  refine single rfl (fun h2 h3 h4 n => ?_)
  rw [bW]
  refine (decode_op 0x25#8 _ n (opOf_joinB _ _) (by decide) (by decide)).trans ?_
  change dB0 .endl (splitB (joinB _ _)) = _
  rw [splitB_joinB]
  simp [dB0]
  exact finish_ok _ h2 h3 h4
theorem ldB (m : Marks) (t : XReg) (a : XReg) (sp : Space) (sc : BitVec 3) (ord : Order) (off : BitVec 30) : Statement (.ldB m t a sp sc ord off) := by
  refine single rfl (fun h2 h3 h4 n => ?_)
  rw [mW]
  refine (decode_op 0x30#8 _ n (opOf_joinM _ _) (by decide) (by decide)).trans ?_
  change dMem .ldB .ldH .ldW .ldD (splitM (joinM _ _)) = _
  rw [splitM_joinM]
  simp [dMem]
  exact finish_ok _ h2 h3 h4
theorem ldH (m : Marks) (t : XReg) (a : XReg) (sp : Space) (sc : BitVec 3) (ord : Order) (off : BitVec 30) : Statement (.ldH m t a sp sc ord off) := by
  refine single rfl (fun h2 h3 h4 n => ?_)
  rw [mW]
  refine (decode_op 0x30#8 _ n (opOf_joinM _ _) (by decide) (by decide)).trans ?_
  change dMem .ldB .ldH .ldW .ldD (splitM (joinM _ _)) = _
  rw [splitM_joinM]
  simp [dMem]
  exact finish_ok _ h2 h3 h4
theorem ldW (m : Marks) (t : XReg) (a : XReg) (sp : Space) (sc : BitVec 3) (ord : Order) (off : BitVec 30) : Statement (.ldW m t a sp sc ord off) := by
  refine single rfl (fun h2 h3 h4 n => ?_)
  rw [mW]
  refine (decode_op 0x30#8 _ n (opOf_joinM _ _) (by decide) (by decide)).trans ?_
  change dMem .ldB .ldH .ldW .ldD (splitM (joinM _ _)) = _
  rw [splitM_joinM]
  simp [dMem]
  exact finish_ok _ h2 h3 h4
theorem ldD (m : Marks) (t : XReg) (a : XReg) (sp : Space) (sc : BitVec 3) (ord : Order) (off : BitVec 30) : Statement (.ldD m t a sp sc ord off) := by
  refine single rfl (fun h2 h3 h4 n => ?_)
  rw [mW]
  refine (decode_op 0x30#8 _ n (opOf_joinM _ _) (by decide) (by decide)).trans ?_
  change dMem .ldB .ldH .ldW .ldD (splitM (joinM _ _)) = _
  rw [splitM_joinM]
  simp [dMem]
  exact finish_ok _ h2 h3 h4
theorem stB (m : Marks) (t : XReg) (a : XReg) (sp : Space) (sc : BitVec 3) (ord : Order) (off : BitVec 30) : Statement (.stB m t a sp sc ord off) := by
  refine single rfl (fun h2 h3 h4 n => ?_)
  rw [mW]
  refine (decode_op 0x31#8 _ n (opOf_joinM _ _) (by decide) (by decide)).trans ?_
  change dMem .stB .stH .stW .stD (splitM (joinM _ _)) = _
  rw [splitM_joinM]
  simp [dMem]
  exact finish_ok _ h2 h3 h4
theorem stH (m : Marks) (t : XReg) (a : XReg) (sp : Space) (sc : BitVec 3) (ord : Order) (off : BitVec 30) : Statement (.stH m t a sp sc ord off) := by
  refine single rfl (fun h2 h3 h4 n => ?_)
  rw [mW]
  refine (decode_op 0x31#8 _ n (opOf_joinM _ _) (by decide) (by decide)).trans ?_
  change dMem .stB .stH .stW .stD (splitM (joinM _ _)) = _
  rw [splitM_joinM]
  simp [dMem]
  exact finish_ok _ h2 h3 h4
theorem stW (m : Marks) (t : XReg) (a : XReg) (sp : Space) (sc : BitVec 3) (ord : Order) (off : BitVec 30) : Statement (.stW m t a sp sc ord off) := by
  refine single rfl (fun h2 h3 h4 n => ?_)
  rw [mW]
  refine (decode_op 0x31#8 _ n (opOf_joinM _ _) (by decide) (by decide)).trans ?_
  change dMem .stB .stH .stW .stD (splitM (joinM _ _)) = _
  rw [splitM_joinM]
  simp [dMem]
  exact finish_ok _ h2 h3 h4
theorem stD (m : Marks) (t : XReg) (a : XReg) (sp : Space) (sc : BitVec 3) (ord : Order) (off : BitVec 30) : Statement (.stD m t a sp sc ord off) := by
  refine single rfl (fun h2 h3 h4 n => ?_)
  rw [mW]
  refine (decode_op 0x31#8 _ n (opOf_joinM _ _) (by decide) (by decide)).trans ?_
  change dMem .stB .stH .stW .stD (splitM (joinM _ _)) = _
  rw [splitM_joinM]
  simp [dMem]
  exact finish_ok _ h2 h3 h4
theorem vld (m : Marks) (d : VReg) (a : XReg) (b : XReg) (sp : Space) : Statement (.vld m d a b sp) := by
  refine single rfl (fun h2 h3 h4 n => ?_)
  rw [rW]
  refine (decode_op 0x32#8 _ n (opOf_joinR _ _) (by decide) (by decide)).trans ?_
  change dVld (splitR (joinR _ _)) = _
  rw [splitR_joinR]
  simp [dVld]
  exact finish_ok _ h2 h3 h4
theorem vst (m : Marks) (c : VReg) (a : XReg) (b : XReg) (sp : Space) : Statement (.vst m c a b sp) := by
  refine single rfl (fun h2 h3 h4 n => ?_)
  rw [rW]
  refine (decode_op 0x33#8 _ n (opOf_joinR _ _) (by decide) (by decide)).trans ?_
  change dVst (splitR (joinR _ _)) = _
  rw [splitR_joinR]
  simp [dVst]
  exact finish_ok _ h2 h3 h4
theorem vgath (m : Marks) (d : VReg) (a : XReg) (b : VReg) (sp : Space) (sz : Size) : Statement (.vgath m d a b sp sz) := by
  refine single rfl (fun h2 h3 h4 n => ?_)
  rw [rW]
  refine (decode_op 0x34#8 _ n (opOf_joinR _ _) (by decide) (by decide)).trans ?_
  change dVgath (splitR (joinR _ _)) = _
  rw [splitR_joinR]
  simp [dVgath]
  exact finish_ok _ h2 h3 h4
theorem vscat (m : Marks) (c : VReg) (a : XReg) (b : VReg) (sp : Space) (sz : Size) : Statement (.vscat m c a b sp sz) := by
  refine single rfl (fun h2 h3 h4 n => ?_)
  rw [rW]
  refine (decode_op 0x35#8 _ n (opOf_joinR _ _) (by decide) (by decide)).trans ?_
  change dVscat (splitR (joinR _ _)) = _
  rw [splitR_joinR]
  simp [dVscat]
  exact finish_ok _ h2 h3 h4
theorem vadd (m : Marks) (lw : LaneW) (d : VReg) (a : VReg) (b : VReg) : Statement (.vadd m lw d a b) := by
  refine single rfl (fun h2 h3 h4 n => ?_)
  rw [vi, rW]
  refine (decode_op 0x50#8 _ n (opOf_joinR _ _) (by decide) (by decide)).trans ?_
  change dVialu (splitR (joinR _ _)) = _
  rw [splitR_joinR]
  simp [dVialu]
  exact finish_ok _ h2 h3 h4
theorem vsub (m : Marks) (lw : LaneW) (d : VReg) (a : VReg) (b : VReg) : Statement (.vsub m lw d a b) := by
  refine single rfl (fun h2 h3 h4 n => ?_)
  rw [vi, rW]
  refine (decode_op 0x50#8 _ n (opOf_joinR _ _) (by decide) (by decide)).trans ?_
  change dVialu (splitR (joinR _ _)) = _
  rw [splitR_joinR]
  simp [dVialu]
  exact finish_ok _ h2 h3 h4
theorem vand (m : Marks) (lw : LaneW) (d : VReg) (a : VReg) (b : VReg) : Statement (.vand m lw d a b) := by
  refine single rfl (fun h2 h3 h4 n => ?_)
  rw [vi, rW]
  refine (decode_op 0x50#8 _ n (opOf_joinR _ _) (by decide) (by decide)).trans ?_
  change dVialu (splitR (joinR _ _)) = _
  rw [splitR_joinR]
  simp [dVialu]
  exact finish_ok _ h2 h3 h4
theorem vor (m : Marks) (lw : LaneW) (d : VReg) (a : VReg) (b : VReg) : Statement (.vor m lw d a b) := by
  refine single rfl (fun h2 h3 h4 n => ?_)
  rw [vi, rW]
  refine (decode_op 0x50#8 _ n (opOf_joinR _ _) (by decide) (by decide)).trans ?_
  change dVialu (splitR (joinR _ _)) = _
  rw [splitR_joinR]
  simp [dVialu]
  exact finish_ok _ h2 h3 h4
theorem vxor (m : Marks) (lw : LaneW) (d : VReg) (a : VReg) (b : VReg) : Statement (.vxor m lw d a b) := by
  refine single rfl (fun h2 h3 h4 n => ?_)
  rw [vi, rW]
  refine (decode_op 0x50#8 _ n (opOf_joinR _ _) (by decide) (by decide)).trans ?_
  change dVialu (splitR (joinR _ _)) = _
  rw [splitR_joinR]
  simp [dVialu]
  exact finish_ok _ h2 h3 h4
theorem vshl (m : Marks) (lw : LaneW) (d : VReg) (a : VReg) (b : VReg) : Statement (.vshl m lw d a b) := by
  refine single rfl (fun h2 h3 h4 n => ?_)
  rw [vi, rW]
  refine (decode_op 0x50#8 _ n (opOf_joinR _ _) (by decide) (by decide)).trans ?_
  change dVialu (splitR (joinR _ _)) = _
  rw [splitR_joinR]
  simp [dVialu]
  exact finish_ok _ h2 h3 h4
theorem vshr (m : Marks) (lw : LaneW) (d : VReg) (a : VReg) (b : VReg) : Statement (.vshr m lw d a b) := by
  refine single rfl (fun h2 h3 h4 n => ?_)
  rw [vi, rW]
  refine (decode_op 0x50#8 _ n (opOf_joinR _ _) (by decide) (by decide)).trans ?_
  change dVialu (splitR (joinR _ _)) = _
  rw [splitR_joinR]
  simp [dVialu]
  exact finish_ok _ h2 h3 h4
theorem vsar (m : Marks) (lw : LaneW) (d : VReg) (a : VReg) (b : VReg) : Statement (.vsar m lw d a b) := by
  refine single rfl (fun h2 h3 h4 n => ?_)
  rw [vi, rW]
  refine (decode_op 0x50#8 _ n (opOf_joinR _ _) (by decide) (by decide)).trans ?_
  change dVialu (splitR (joinR _ _)) = _
  rw [splitR_joinR]
  simp [dVialu]
  exact finish_ok _ h2 h3 h4
theorem vmin (m : Marks) (lw : LaneW) (d : VReg) (a : VReg) (b : VReg) : Statement (.vmin m lw d a b) := by
  refine single rfl (fun h2 h3 h4 n => ?_)
  rw [vi, rW]
  refine (decode_op 0x50#8 _ n (opOf_joinR _ _) (by decide) (by decide)).trans ?_
  change dVialu (splitR (joinR _ _)) = _
  rw [splitR_joinR]
  simp [dVialu]
  exact finish_ok _ h2 h3 h4
theorem vmax (m : Marks) (lw : LaneW) (d : VReg) (a : VReg) (b : VReg) : Statement (.vmax m lw d a b) := by
  refine single rfl (fun h2 h3 h4 n => ?_)
  rw [vi, rW]
  refine (decode_op 0x50#8 _ n (opOf_joinR _ _) (by decide) (by decide)).trans ?_
  change dVialu (splitR (joinR _ _)) = _
  rw [splitR_joinR]
  simp [dVialu]
  exact finish_ok _ h2 h3 h4
theorem vminu (m : Marks) (lw : LaneW) (d : VReg) (a : VReg) (b : VReg) : Statement (.vminu m lw d a b) := by
  refine single rfl (fun h2 h3 h4 n => ?_)
  rw [vi, rW]
  refine (decode_op 0x50#8 _ n (opOf_joinR _ _) (by decide) (by decide)).trans ?_
  change dVialu (splitR (joinR _ _)) = _
  rw [splitR_joinR]
  simp [dVialu]
  exact finish_ok _ h2 h3 h4
theorem vmaxu (m : Marks) (lw : LaneW) (d : VReg) (a : VReg) (b : VReg) : Statement (.vmaxu m lw d a b) := by
  refine single rfl (fun h2 h3 h4 n => ?_)
  rw [vi, rW]
  refine (decode_op 0x50#8 _ n (opOf_joinR _ _) (by decide) (by decide)).trans ?_
  change dVialu (splitR (joinR _ _)) = _
  rw [splitR_joinR]
  simp [dVialu]
  exact finish_ok _ h2 h3 h4
theorem vmul (m : Marks) (lw : LaneW) (d : VReg) (a : VReg) (b : VReg) : Statement (.vmul m lw d a b) := by
  refine single rfl (fun h2 h3 h4 n => ?_)
  rw [vi, rW]
  refine (decode_op 0x50#8 _ n (opOf_joinR _ _) (by decide) (by decide)).trans ?_
  change dVialu (splitR (joinR _ _)) = _
  rw [splitR_joinR]
  simp [dVialu]
  exact finish_ok _ h2 h3 h4
theorem vmulh (m : Marks) (lw : LaneW) (d : VReg) (a : VReg) (b : VReg) : Statement (.vmulh m lw d a b) := by
  refine single rfl (fun h2 h3 h4 n => ?_)
  rw [vi, rW]
  refine (decode_op 0x50#8 _ n (opOf_joinR _ _) (by decide) (by decide)).trans ?_
  change dVialu (splitR (joinR _ _)) = _
  rw [splitR_joinR]
  simp [dVialu]
  exact finish_ok _ h2 h3 h4
theorem vmulhu (m : Marks) (lw : LaneW) (d : VReg) (a : VReg) (b : VReg) : Statement (.vmulhu m lw d a b) := by
  refine single rfl (fun h2 h3 h4 n => ?_)
  rw [vi, rW]
  refine (decode_op 0x50#8 _ n (opOf_joinR _ _) (by decide) (by decide)).trans ?_
  change dVialu (splitR (joinR _ _)) = _
  rw [splitR_joinR]
  simp [dVialu]
  exact finish_ok _ h2 h3 h4
theorem vadds (m : Marks) (lw : LaneW) (d : VReg) (a : VReg) (b : VReg) : Statement (.vadds m lw d a b) := by
  refine single rfl (fun h2 h3 h4 n => ?_)
  rw [vi, rW]
  refine (decode_op 0x50#8 _ n (opOf_joinR _ _) (by decide) (by decide)).trans ?_
  change dVialu (splitR (joinR _ _)) = _
  rw [splitR_joinR]
  simp [dVialu]
  exact finish_ok _ h2 h3 h4
theorem vsubs (m : Marks) (lw : LaneW) (d : VReg) (a : VReg) (b : VReg) : Statement (.vsubs m lw d a b) := by
  refine single rfl (fun h2 h3 h4 n => ?_)
  rw [vi, rW]
  refine (decode_op 0x50#8 _ n (opOf_joinR _ _) (by decide) (by decide)).trans ?_
  change dVialu (splitR (joinR _ _)) = _
  rw [splitR_joinR]
  simp [dVialu]
  exact finish_ok _ h2 h3 h4
theorem vaddsu (m : Marks) (lw : LaneW) (d : VReg) (a : VReg) (b : VReg) : Statement (.vaddsu m lw d a b) := by
  refine single rfl (fun h2 h3 h4 n => ?_)
  rw [vi, rW]
  refine (decode_op 0x50#8 _ n (opOf_joinR _ _) (by decide) (by decide)).trans ?_
  change dVialu (splitR (joinR _ _)) = _
  rw [splitR_joinR]
  simp [dVialu]
  exact finish_ok _ h2 h3 h4
theorem vsubsu (m : Marks) (lw : LaneW) (d : VReg) (a : VReg) (b : VReg) : Statement (.vsubsu m lw d a b) := by
  refine single rfl (fun h2 h3 h4 n => ?_)
  rw [vi, rW]
  refine (decode_op 0x50#8 _ n (opOf_joinR _ _) (by decide) (by decide)).trans ?_
  change dVialu (splitR (joinR _ _)) = _
  rw [splitR_joinR]
  simp [dVialu]
  exact finish_ok _ h2 h3 h4
theorem vabs (m : Marks) (lw : LaneW) (d : VReg) (a : VReg) : Statement (.vabs m lw d a) := by
  refine single rfl (fun h2 h3 h4 n => ?_)
  rw [rW]
  refine (decode_op 0x50#8 _ n (opOf_joinR _ _) (by decide) (by decide)).trans ?_
  change dVialu (splitR (joinR _ _)) = _
  rw [splitR_joinR]
  simp [dVialu]
  exact finish_ok _ h2 h3 h4
theorem vfadd (m : Marks) (fl : FLane) (rm : Rnd) (d : VReg) (a : VReg) (b : VReg) : Statement (.vfadd m fl rm d a b) := by
  refine single rfl (fun h2 h3 h4 n => ?_)
  rw [vf, rW]
  refine (decode_op 0x51#8 _ n (opOf_joinR _ _) (by decide) (by decide)).trans ?_
  change dVfalu (splitR (joinR _ _)) = _
  rw [splitR_joinR]
  simp [dVfalu]
  exact finish_ok _ h2 h3 h4
theorem vfsub (m : Marks) (fl : FLane) (rm : Rnd) (d : VReg) (a : VReg) (b : VReg) : Statement (.vfsub m fl rm d a b) := by
  refine single rfl (fun h2 h3 h4 n => ?_)
  rw [vf, rW]
  refine (decode_op 0x51#8 _ n (opOf_joinR _ _) (by decide) (by decide)).trans ?_
  change dVfalu (splitR (joinR _ _)) = _
  rw [splitR_joinR]
  simp [dVfalu]
  exact finish_ok _ h2 h3 h4
theorem vfmul (m : Marks) (fl : FLane) (rm : Rnd) (d : VReg) (a : VReg) (b : VReg) : Statement (.vfmul m fl rm d a b) := by
  refine single rfl (fun h2 h3 h4 n => ?_)
  rw [vf, rW]
  refine (decode_op 0x51#8 _ n (opOf_joinR _ _) (by decide) (by decide)).trans ?_
  change dVfalu (splitR (joinR _ _)) = _
  rw [splitR_joinR]
  simp [dVfalu]
  exact finish_ok _ h2 h3 h4
theorem vfmin (m : Marks) (fl : FLane) (d : VReg) (a : VReg) (b : VReg) : Statement (.vfmin m fl d a b) := by
  refine single rfl (fun h2 h3 h4 n => ?_)
  rw [vf, rW]
  refine (decode_op 0x51#8 _ n (opOf_joinR _ _) (by decide) (by decide)).trans ?_
  change dVfalu (splitR (joinR _ _)) = _
  rw [splitR_joinR]
  simp [dVfalu]
  exact finish_ok _ h2 h3 h4
theorem vfmax (m : Marks) (fl : FLane) (d : VReg) (a : VReg) (b : VReg) : Statement (.vfmax m fl d a b) := by
  refine single rfl (fun h2 h3 h4 n => ?_)
  rw [vf, rW]
  refine (decode_op 0x51#8 _ n (opOf_joinR _ _) (by decide) (by decide)).trans ?_
  change dVfalu (splitR (joinR _ _)) = _
  rw [splitR_joinR]
  simp [dVfalu]
  exact finish_ok _ h2 h3 h4
theorem vfabs (m : Marks) (fl : FLane) (d : VReg) (a : VReg) : Statement (.vfabs m fl d a) := by
  refine single rfl (fun h2 h3 h4 n => ?_)
  rw [vf, rW]
  refine (decode_op 0x51#8 _ n (opOf_joinR _ _) (by decide) (by decide)).trans ?_
  change dVfalu (splitR (joinR _ _)) = _
  rw [splitR_joinR]
  simp [dVfalu]
  exact finish_ok _ h2 h3 h4
theorem vfneg (m : Marks) (fl : FLane) (d : VReg) (a : VReg) : Statement (.vfneg m fl d a) := by
  refine single rfl (fun h2 h3 h4 n => ?_)
  rw [vf, rW]
  refine (decode_op 0x51#8 _ n (opOf_joinR _ _) (by decide) (by decide)).trans ?_
  change dVfalu (splitR (joinR _ _)) = _
  rw [splitR_joinR]
  simp [dVfalu]
  exact finish_ok _ h2 h3 h4
theorem vfma (m : Marks) (fl : FLane) (rm : Rnd) (d : VReg) (a : VReg) (b : VReg) (c : VReg) : Statement (.vfma m fl rm d a b c) := by
  refine single rfl (fun h2 h3 h4 n => ?_)
  rw [vm, rW]
  refine (decode_op 0x52#8 _ n (opOf_joinR _ _) (by decide) (by decide)).trans ?_
  change dVfma (splitR (joinR _ _)) = _
  rw [splitR_joinR]
  simp [dVfma]
  exact finish_ok _ h2 h3 h4
theorem vfms (m : Marks) (fl : FLane) (rm : Rnd) (d : VReg) (a : VReg) (b : VReg) (c : VReg) : Statement (.vfms m fl rm d a b c) := by
  refine single rfl (fun h2 h3 h4 n => ?_)
  rw [vm, rW]
  refine (decode_op 0x52#8 _ n (opOf_joinR _ _) (by decide) (by decide)).trans ?_
  change dVfma (splitR (joinR _ _)) = _
  rw [splitR_joinR]
  simp [dVfma]
  exact finish_ok _ h2 h3 h4
theorem vfnma (m : Marks) (fl : FLane) (rm : Rnd) (d : VReg) (a : VReg) (b : VReg) (c : VReg) : Statement (.vfnma m fl rm d a b c) := by
  refine single rfl (fun h2 h3 h4 n => ?_)
  rw [vm, rW]
  refine (decode_op 0x52#8 _ n (opOf_joinR _ _) (by decide) (by decide)).trans ?_
  change dVfma (splitR (joinR _ _)) = _
  rw [splitR_joinR]
  simp [dVfma]
  exact finish_ok _ h2 h3 h4
theorem vfnms (m : Marks) (fl : FLane) (rm : Rnd) (d : VReg) (a : VReg) (b : VReg) (c : VReg) : Statement (.vfnms m fl rm d a b c) := by
  refine single rfl (fun h2 h3 h4 n => ?_)
  rw [vm, rW]
  refine (decode_op 0x52#8 _ n (opOf_joinR _ _) (by decide) (by decide)).trans ?_
  change dVfma (splitR (joinR _ _)) = _
  rw [splitR_joinR]
  simp [dVfma]
  exact finish_ok _ h2 h3 h4
theorem vrcp (m : Marks) (d : VReg) (a : VReg) : Statement (.vrcp m d a) := by
  refine single rfl (fun h2 h3 h4 n => ?_)
  rw [rW]
  refine (decode_op 0x5b#8 _ n (opOf_joinR _ _) (by decide) (by decide)).trans ?_
  change dVfunc (splitR (joinR _ _)) = _
  rw [splitR_joinR]
  simp [dVfunc]
  exact finish_ok _ h2 h3 h4
theorem vrsq (m : Marks) (d : VReg) (a : VReg) : Statement (.vrsq m d a) := by
  refine single rfl (fun h2 h3 h4 n => ?_)
  rw [rW]
  refine (decode_op 0x5b#8 _ n (opOf_joinR _ _) (by decide) (by decide)).trans ?_
  change dVfunc (splitR (joinR _ _)) = _
  rw [splitR_joinR]
  simp [dVfunc]
  exact finish_ok _ h2 h3 h4
theorem vexp2 (m : Marks) (d : VReg) (a : VReg) : Statement (.vexp2 m d a) := by
  refine single rfl (fun h2 h3 h4 n => ?_)
  rw [rW]
  refine (decode_op 0x5b#8 _ n (opOf_joinR _ _) (by decide) (by decide)).trans ?_
  change dVfunc (splitR (joinR _ _)) = _
  rw [splitR_joinR]
  simp [dVfunc]
  exact finish_ok _ h2 h3 h4
theorem vlog2 (m : Marks) (d : VReg) (a : VReg) : Statement (.vlog2 m d a) := by
  refine single rfl (fun h2 h3 h4 n => ?_)
  rw [rW]
  refine (decode_op 0x5b#8 _ n (opOf_joinR _ _) (by decide) (by decide)).trans ?_
  change dVfunc (splitR (joinR _ _)) = _
  rw [splitR_joinR]
  simp [dVfunc]
  exact finish_ok _ h2 h3 h4
theorem vcmp (m : Marks) (ty : LaneTy) (cond : VCond) (d : VReg) (a : VReg) (b : VReg) : Statement (.vcmp m ty cond d a b) := by
  refine single rfl (fun h2 h3 h4 n => ?_)
  rw [rW]
  refine (decode_op 0x53#8 _ n (opOf_joinR _ _) (by decide) (by decide)).trans ?_
  change dVcmp (splitR (joinR _ _)) = _
  rw [splitR_joinR]
  simp [dVcmp]
  exact finish_ok _ h2 h3 h4
theorem vsel (m : Marks) (lw : LaneW) (d : VReg) (a : VReg) (b : VReg) (c : VReg) : Statement (.vsel m lw d a b c) := by
  refine single rfl (fun h2 h3 h4 n => ?_)
  rw [rW]
  refine (decode_op 0x54#8 _ n (opOf_joinR _ _) (by decide) (by decide)).trans ?_
  change dVsel (splitR (joinR _ _)) = _
  rw [splitR_joinR]
  simp [dVsel]
  exact finish_ok _ h2 h3 h4
theorem vcvt (m : Marks) (pair : BitVec 4) (rm : Rnd) (nan : Bool) (d : VReg) (a : VReg) (b : XReg) : Statement (.vcvt m pair rm nan d a b) := by
  refine single rfl (fun h2 h3 h4 n => ?_)
  rw [rW]
  refine (decode_op 0x55#8 _ n (opOf_joinR _ _) (by decide) (by decide)).trans ?_
  change dVcvt (splitR (joinR _ _)) = _
  rw [splitR_joinR]
  simp [dVcvt]
  exact finish_ok _ h2 h3 h4
theorem vscan (m : Marks) (ty : LaneTy) (op : ROp) (d : VReg) (a : VReg) (h : Option VReg) : Statement (.vscan m ty op d a h) := by
  refine single rfl (fun h2 h3 h4 n => ?_)
  rw [rW]
  refine (decode_op 0x56#8 _ n (opOf_joinR _ _) (by decide) (by decide)).trans ?_
  change dVscan (splitR (joinR _ _)) = _
  rw [splitR_joinR]
  simp [dVscan]
  exact finish_ok _ h2 h3 h4
theorem vred (m : Marks) (ty : LaneTy) (op : ROp) (d : XVReg) (a : VReg) : Statement (.vred m ty op d a) := by
  refine single rfl (fun h2 h3 h4 n => ?_)
  rw [rW]
  refine (decode_op 0x57#8 _ n (opOf_joinR _ _) (by decide) (by decide)).trans ?_
  change dVred (splitR (joinR _ _)) = _
  rw [splitR_joinR]
  simp [dVred]
  exact finish_ok _ h2 h3 h4
theorem vperm (m : Marks) (lw : LaneW) (d : VReg) (a : VReg) (b : VReg) (c : Option VReg) : Statement (.vperm m lw d a b c) := by
  refine single rfl (fun h2 h3 h4 n => ?_)
  rw [rW]
  refine (decode_op 0x58#8 _ n (opOf_joinR _ _) (by decide) (by decide)).trans ?_
  change dVperm (splitR (joinR _ _)) = _
  rw [splitR_joinR]
  simp [dVperm]
  exact finish_ok _ h2 h3 h4
theorem vbcastX (m : Marks) (lw : LaneW) (d : VReg) (a : XReg) : Statement (.vbcastX m lw d a) := by
  refine single rfl (fun h2 h3 h4 n => ?_)
  rw [rW]
  refine (decode_op 0x59#8 _ n (opOf_joinR _ _) (by decide) (by decide)).trans ?_
  change dVbcast (splitR (joinR _ _)) = _
  rw [splitR_joinR]
  simp [dVbcast]
  exact finish_ok _ h2 h3 h4
theorem vbcastV (m : Marks) (lw : LaneW) (d : VReg) (a : VReg) (b : XReg) : Statement (.vbcastV m lw d a b) := by
  refine single rfl (fun h2 h3 h4 n => ?_)
  rw [rW]
  refine (decode_op 0x59#8 _ n (opOf_joinR _ _) (by decide) (by decide)).trans ?_
  change dVbcast (splitR (joinR _ _)) = _
  rw [splitR_joinR]
  simp [dVbcast]
  exact finish_ok _ h2 h3 h4
theorem vlaneGet (m : Marks) (lw : LaneW) (d : XReg) (a : VReg) (b : XReg) : Statement (.vlaneGet m lw d a b) := by
  refine single rfl (fun h2 h3 h4 n => ?_)
  rw [rW]
  refine (decode_op 0x5a#8 _ n (opOf_joinR _ _) (by decide) (by decide)).trans ?_
  change dVlane (splitR (joinR _ _)) = _
  rw [splitR_joinR]
  simp [dVlane]
  exact finish_ok _ h2 h3 h4
theorem vlaneGetu (m : Marks) (lw : LaneW) (d : XReg) (a : VReg) (b : XReg) : Statement (.vlaneGetu m lw d a b) := by
  refine single rfl (fun h2 h3 h4 n => ?_)
  rw [rW]
  refine (decode_op 0x5a#8 _ n (opOf_joinR _ _) (by decide) (by decide)).trans ?_
  change dVlane (splitR (joinR _ _)) = _
  rw [splitR_joinR]
  simp [dVlane]
  exact finish_ok _ h2 h3 h4
theorem vlaneSet (m : Marks) (lw : LaneW) (d : VReg) (a : XReg) (b : XReg) : Statement (.vlaneSet m lw d a b) := by
  refine single rfl (fun h2 h3 h4 n => ?_)
  rw [rW]
  refine (decode_op 0x5a#8 _ n (opOf_joinR _ _) (by decide) (by decide)).trans ?_
  change dVlane (splitR (joinR _ _)) = _
  rw [splitR_joinR]
  simp [dVlane]
  exact finish_ok _ h2 h3 h4
theorem vlaneIota (m : Marks) (lw : LaneW) (d : VReg) : Statement (.vlaneIota m lw d) := by
  refine single rfl (fun h2 h3 h4 n => ?_)
  rw [rW]
  refine (decode_op 0x5a#8 _ n (opOf_joinR _ _) (by decide) (by decide)).trans ?_
  change dVlane (splitR (joinR _ _)) = _
  rw [splitR_joinR]
  simp [dVlane]
  exact finish_ok _ h2 h3 h4
theorem qset (m : Marks) (d : QReg) (a : XReg) : Statement (.qset m d a) := by
  refine single rfl (fun h2 h3 h4 n => ?_)
  rw [rW]
  refine (decode_op 0x60#8 _ n (opOf_joinR _ _) (by decide) (by decide)).trans ?_
  change dQset (splitR (joinR _ _)) = _
  rw [splitR_joinR]
  simp [dQset]
  exact finish_ok _ h2 h3 h4
theorem qsetU (m : Marks) (d : QReg) : Statement (.qsetU m d) := by
  refine single rfl (fun h2 h3 h4 n => ?_)
  rw [rW]
  refine (decode_op 0x60#8 _ n (opOf_joinR _ _) (by decide) (by decide)).trans ?_
  change dQset (splitR (joinR _ _)) = _
  rw [splitR_joinR]
  simp [dQset]
  exact finish_ok _ h2 h3 h4
theorem qsetCfg (m : Marks) (d : QReg) (a : XReg) (b : XReg) (c : XReg) : Statement (.qsetCfg m d a b c) := by
  refine single rfl (fun h2 h3 h4 n => ?_)
  rw [rW]
  refine (decode_op 0x60#8 _ n (opOf_joinR _ _) (by decide) (by decide)).trans ?_
  change dQset (splitR (joinR _ _)) = _
  rw [splitR_joinR]
  simp [dQset]
  exact finish_ok _ h2 h3 h4
theorem qinfo (m : Marks) (fld : BitVec 3) (d : XReg) (a : QReg) : Statement (.qinfo m fld d a) := by
  refine single rfl (fun h2 h3 h4 n => ?_)
  rw [rW]
  refine (decode_op 0x63#8 _ n (opOf_joinR _ _) (by decide) (by decide)).trans ?_
  change dQinfo (splitR (joinR _ _)) = _
  rw [splitR_joinR]
  simp [dQinfo]
  exact finish_ok _ h2 h3 h4
theorem qadvC (m : Marks) (d : QReg) (a : XReg) (imm : BitVec 32) : Statement (.qadvC m d a imm) := by
  refine single rfl (fun h2 h3 h4 n => ?_)
  rw [iW]
  refine (decode_op 0x61#8 _ n (opOf_joinI _ _) (by decide) (by decide)).trans ?_
  change dQadv (splitI (joinI _ _)) = _
  rw [splitI_joinI]
  simp [dQadv]
  exact finish_ok _ h2 h3 h4
theorem qadvP (m : Marks) (d : QReg) (a : XReg) (imm : BitVec 32) : Statement (.qadvP m d a imm) := by
  refine single rfl (fun h2 h3 h4 n => ?_)
  rw [iW]
  refine (decode_op 0x61#8 _ n (opOf_joinI _ _) (by decide) (by decide)).trans ?_
  change dQadv (splitI (joinI _ _)) = _
  rw [splitI_joinI]
  simp [dQadv]
  exact finish_ok _ h2 h3 h4
theorem qwaitC (m : Marks) (d : QReg) (k : BitVec 13) : Statement (.qwaitC m d k) := by
  refine single rfl (fun h2 h3 h4 n => ?_)
  rw [iW]
  refine (decode_op 0x62#8 _ n (opOf_joinI _ _) (by decide) (by decide)).trans ?_
  change dQwait (splitI (joinI _ _)) = _
  rw [splitI_joinI]
  simp [dQwait]
  exact finish_ok _ h2 h3 h4
theorem qwaitP (m : Marks) (d : QReg) (k : BitVec 13) : Statement (.qwaitP m d k) := by
  refine single rfl (fun h2 h3 h4 n => ?_)
  rw [iW]
  refine (decode_op 0x62#8 _ n (opOf_joinI _ _) (by decide) (by decide)).trans ?_
  change dQwait (splitI (joinI _ _)) = _
  rw [splitI_joinI]
  simp [dQwait]
  exact finish_ok _ h2 h3 h4
theorem vldq (m : Marks) (d : VReg) (a : QReg) (k : BitVec 12) (p : BitVec 8) : Statement (.vldq m d a k p) := by
  refine single rfl (fun h2 h3 h4 n => ?_)
  rw [iW]
  refine (decode_op 0x64#8 _ n (opOf_joinI _ _) (by decide) (by decide)).trans ?_
  change dVldq (splitI (joinI _ _)) = _
  rw [splitI_joinI]
  simp [dVldq]
  exact finish_ok _ h2 h3 h4
theorem vldqAdv (m : Marks) (d : VReg) (a : QReg) (k : BitVec 12) (p : BitVec 8) : Statement (.vldqAdv m d a k p) := by
  refine single rfl (fun h2 h3 h4 n => ?_)
  rw [iW]
  refine (decode_op 0x64#8 _ n (opOf_joinI _ _) (by decide) (by decide)).trans ?_
  change dVldq (splitI (joinI _ _)) = _
  rw [splitI_joinI]
  simp [dVldq]
  exact finish_ok _ h2 h3 h4
theorem vstq (m : Marks) (d : QReg) (a : VReg) (k : BitVec 12) (p : BitVec 8) : Statement (.vstq m d a k p) := by
  refine single rfl (fun h2 h3 h4 n => ?_)
  rw [iW]
  refine (decode_op 0x65#8 _ n (opOf_joinI _ _) (by decide) (by decide)).trans ?_
  change dVstq (splitI (joinI _ _)) = _
  rw [splitI_joinI]
  simp [dVstq]
  exact finish_ok _ h2 h3 h4
theorem vstqAdv (m : Marks) (d : QReg) (a : VReg) (k : BitVec 12) (p : BitVec 8) : Statement (.vstqAdv m d a k p) := by
  refine single rfl (fun h2 h3 h4 n => ?_)
  rw [iW]
  refine (decode_op 0x65#8 _ n (opOf_joinI _ _) (by decide) (by decide)).trans ?_
  change dVstq (splitI (joinI _ _)) = _
  rw [splitI_joinI]
  simp [dVstq]
  exact finish_ok _ h2 h3 h4
theorem kld (m : Marks) (k : KIdx) (x : XReg) (sp : Space) : Statement (.kld m k x sp) := by
  refine single rfl (fun h2 h3 h4 n => ?_)
  rw [eW]
  refine (decode_op 0x68#8 _ n (opOf_joinE _ _) (by decide) (by decide)).trans ?_
  change dKld .kld (splitE (joinE _ _)) = _
  rw [splitE_joinE]
  simp [dKld]
  exact finish_ok _ h2 h3 h4
theorem kst (m : Marks) (k : KIdx) (x : XReg) (sp : Space) : Statement (.kst m k x sp) := by
  refine single rfl (fun h2 h3 h4 n => ?_)
  rw [eW]
  refine (decode_op 0x69#8 _ n (opOf_joinE _ _) (by decide) (by decide)).trans ?_
  change dKld .kst (splitE (joinE _ _)) = _
  rw [splitE_joinE]
  simp [dKld]
  exact finish_ok _ h2 h3 h4
theorem kset (m : Marks) (k : KIdx) (w : BitVec 4) (dbl : Bool) (x : XReg) : Statement (.kset m k w dbl x) := by
  refine single rfl (fun h2 h3 h4 n => ?_)
  rw [eW]
  refine (decode_op 0x6a#8 _ n (opOf_joinE _ _) (by decide) (by decide)).trans ?_
  change dKset (splitE (joinE _ _)) = _
  rw [splitE_joinE]
  simp [dKset]
  exact finish_ok _ h2 h3 h4
theorem kinv (m : Marks) (ka : KIdx) (kb : KIdx) (range : Bool) : Statement (.kinv m ka kb range) := by
  refine single rfl (fun h2 h3 h4 n => ?_)
  rw [eW]
  refine (decode_op 0x6b#8 _ n (opOf_joinE _ _) (by decide) (by decide)).trans ?_
  change dKinv (splitE (joinE _ _)) = _
  rw [splitE_joinE]
  simp [dKinv]
  exact finish_ok _ h2 h3 h4
theorem mma (m : Marks) (z : Bool) (ka : KIdx) (kb : KIdx) (kc : KIdx) : Statement (.mma m z ka kb kc) := by
  refine single rfl (fun h2 h3 h4 n => ?_)
  rw [eW]
  refine (decode_op 0x70#8 _ n (opOf_joinE _ _) (by decide) (by decide)).trans ?_
  change dMma (splitE (joinE _ _)) = _
  rw [splitE_joinE]
  simp [dMma]
  exact finish_ok _ h2 h3 h4
theorem mzero (m : Marks) (kc : KIdx) : Statement (.mzero m kc) := by
  refine single rfl (fun h2 h3 h4 n => ?_)
  rw [eW]
  refine (decode_op 0x71#8 _ n (opOf_joinE _ _) (by decide) (by decide)).trans ?_
  change dMzero (splitE (joinE _ _)) = _
  rw [splitE_joinE]
  simp [dMzero]
  exact finish_ok _ h2 h3 h4
theorem mout (m : Marks) (rm : Rnd) (nanm : Bool) (clr : Bool) (ka : KIdx) (kb : KIdx) (x : XReg) : Statement (.mout m rm nanm clr ka kb x) := by
  refine single rfl (fun h2 h3 h4 n => ?_)
  rw [eW]
  refine (decode_op 0x72#8 _ n (opOf_joinE _ _) (by decide) (by decide)).trans ?_
  change dMout (splitE (joinE _ _)) = _
  rw [splitE_joinE]
  simp [dMout]
  exact finish_ok _ h2 h3 h4
theorem mprog (m : Marks) (x : XReg) : Statement (.mprog m x) := by
  refine single rfl (fun h2 h3 h4 n => ?_)
  rw [eW]
  refine (decode_op 0x73#8 _ n (opOf_joinE _ _) (by decide) (by decide)).trans ?_
  change dX .mprog (splitE (joinE _ _)) = _
  rw [splitE_joinE]
  simp [dX]
  exact finish_ok _ h2 h3 h4
theorem mwait (m : Marks) (x : XReg) : Statement (.mwait m x) := by
  refine single rfl (fun h2 h3 h4 n => ?_)
  rw [eW]
  refine (decode_op 0x74#8 _ n (opOf_joinE _ _) (by decide) (by decide)).trans ?_
  change dX .mwait (splitE (joinE _ _)) = _
  rw [splitE_joinE]
  simp [dX]
  exact finish_ok _ h2 h3 h4
theorem packNz (m : Marks) (q : BitVec 2) (ka : KIdx) (kb : KIdx) (x : XReg) : Statement (.packNz m q ka kb x) := by
  refine single rfl (fun h2 h3 h4 n => ?_)
  rw [eW]
  refine (decode_op 0x79#8 _ n (opOf_joinE _ _) (by decide) (by decide)).trans ?_
  change dPack (splitE (joinE _ _)) = _
  rw [splitE_joinE]
  simp [dPack]
  exact finish_ok _ h2 h3 h4
theorem packThr (m : Marks) (q : BitVec 2) (ka : KIdx) (kb : KIdx) (x : XReg) : Statement (.packThr m q ka kb x) := by
  refine single rfl (fun h2 h3 h4 n => ?_)
  rw [eW]
  refine (decode_op 0x79#8 _ n (opOf_joinE _ _) (by decide) (by decide)).trans ?_
  change dPack (splitE (joinE _ _)) = _
  rw [splitE_joinE]
  simp [dPack]
  exact finish_ok _ h2 h3 h4
theorem packTop (m : Marks) (q : BitVec 2) (ka : KIdx) (kb : KIdx) (x : XReg) : Statement (.packTop m q ka kb x) := by
  refine single rfl (fun h2 h3 h4 n => ?_)
  rw [eW]
  refine (decode_op 0x79#8 _ n (opOf_joinE _ _) (by decide) (by decide)).trans ?_
  change dPack (splitE (joinE _ _)) = _
  rw [splitE_joinE]
  simp [dPack]
  exact finish_ok _ h2 h3 h4
theorem packSto (m : Marks) (q : BitVec 2) (ka : KIdx) (kb : KIdx) (x : XReg) : Statement (.packSto m q ka kb x) := by
  refine single rfl (fun h2 h3 h4 n => ?_)
  rw [eW]
  refine (decode_op 0x79#8 _ n (opOf_joinE _ _) (by decide) (by decide)).trans ?_
  change dPack (splitE (joinE _ _)) = _
  rw [splitE_joinE]
  simp [dPack]
  exact finish_ok _ h2 h3 h4
theorem unpack (m : Marks) (q : BitVec 2) (ka : KIdx) (kb : KIdx) : Statement (.unpack m q ka kb) := by
  refine single rfl (fun h2 h3 h4 n => ?_)
  rw [eW]
  refine (decode_op 0x7a#8 _ n (opOf_joinE _ _) (by decide) (by decide)).trans ?_
  change dUnpack (splitE (joinE _ _)) = _
  rw [splitE_joinE]
  simp [dUnpack]
  exact finish_ok _ h2 h3 h4
theorem gather (m : Marks) (q : BitVec 2) (ka : KIdx) (kb : KIdx) (kc : KIdx) : Statement (.gather m q ka kb kc) := by
  refine single rfl (fun h2 h3 h4 n => ?_)
  rw [eW]
  refine (decode_op 0x7b#8 _ n (opOf_joinE _ _) (by decide) (by decide)).trans ?_
  change dGath .gather (splitE (joinE _ _)) = _
  rw [splitE_joinE]
  simp [dGath]
  exact finish_ok _ h2 h3 h4
theorem scatter (m : Marks) (q : BitVec 2) (ka : KIdx) (kb : KIdx) (kc : KIdx) : Statement (.scatter m q ka kb kc) := by
  refine single rfl (fun h2 h3 h4 n => ?_)
  rw [eW]
  refine (decode_op 0x7c#8 _ n (opOf_joinE _ _) (by decide) (by decide)).trans ?_
  change dGath .scatter (splitE (joinE _ _)) = _
  rw [splitE_joinE]
  simp [dGath]
  exact finish_ok _ h2 h3 h4
theorem fill (m : Marks) (q : BitVec 2) (kb : KIdx) (x : XReg) : Statement (.fill m q kb x) := by
  refine single rfl (fun h2 h3 h4 n => ?_)
  rw [eW]
  refine (decode_op 0x7d#8 _ n (opOf_joinE _ _) (by decide) (by decide)).trans ?_
  change dFill (splitE (joinE _ _)) = _
  rw [splitE_joinE]
  simp [dFill]
  exact finish_ok _ h2 h3 h4
theorem cpwait (m : Marks) (x : XReg) (mask : BitVec 4) : Statement (.cpwait m x mask) := by
  refine single rfl (fun h2 h3 h4 n => ?_)
  rw [eW]
  refine (decode_op 0x7e#8 _ n (opOf_joinE _ _) (by decide) (by decide)).trans ?_
  change dCpwait (splitE (joinE _ _)) = _
  rw [splitE_joinE]
  simp [dCpwait]
  exact finish_ok _ h2 h3 h4
theorem collAllred (m : Marks) (slot : BitVec 4) (opr : FoldOp) (ka : KIdx) (kb : KIdx) : Statement (.collAllred m slot opr ka kb) := by
  refine single rfl (fun h2 h3 h4 n => ?_)
  rw [eW]
  refine (decode_op 0x80#8 _ n (opOf_joinE _ _) (by decide) (by decide)).trans ?_
  change dColl (splitE (joinE _ _)) = _
  rw [splitE_joinE]
  simp [dColl]
  exact finish_ok _ h2 h3 h4
theorem collRedscat (m : Marks) (slot : BitVec 4) (opr : FoldOp) (ka : KIdx) (kb : KIdx) : Statement (.collRedscat m slot opr ka kb) := by
  refine single rfl (fun h2 h3 h4 n => ?_)
  rw [eW]
  refine (decode_op 0x80#8 _ n (opOf_joinE _ _) (by decide) (by decide)).trans ?_
  change dColl (splitE (joinE _ _)) = _
  rw [splitE_joinE]
  simp [dColl]
  exact finish_ok _ h2 h3 h4
theorem collAllgath (m : Marks) (slot : BitVec 4) (opr : FoldOp) (ka : KIdx) (kb : KIdx) : Statement (.collAllgath m slot opr ka kb) := by
  refine single rfl (fun h2 h3 h4 n => ?_)
  rw [eW]
  refine (decode_op 0x80#8 _ n (opOf_joinE _ _) (by decide) (by decide)).trans ?_
  change dColl (splitE (joinE _ _)) = _
  rw [splitE_joinE]
  simp [dColl]
  exact finish_ok _ h2 h3 h4
theorem collBcast (m : Marks) (slot : BitVec 4) (opr : FoldOp) (ka : KIdx) (kb : KIdx) (x : XReg) : Statement (.collBcast m slot opr ka kb x) := by
  refine single rfl (fun h2 h3 h4 n => ?_)
  rw [eW]
  refine (decode_op 0x80#8 _ n (opOf_joinE _ _) (by decide) (by decide)).trans ?_
  change dColl (splitE (joinE _ _)) = _
  rw [splitE_joinE]
  simp [dColl]
  exact finish_ok _ h2 h3 h4
theorem collwait (m : Marks) (x : XReg) (slot : BitVec 4) (one : Bool) : Statement (.collwait m x slot one) := by
  refine single rfl (fun h2 h3 h4 n => ?_)
  rw [eW]
  refine (decode_op 0x81#8 _ n (opOf_joinE _ _) (by decide) (by decide)).trans ?_
  change dCollwait (splitE (joinE _ _)) = _
  rw [splitE_joinE]
  simp [dCollwait]
  exact finish_ok _ h2 h3 h4
theorem collgrpForm (m : Marks) (slot : BitVec 4) (x : XReg) : Statement (.collgrpForm m slot x) := by
  refine single rfl (fun h2 h3 h4 n => ?_)
  rw [eW]
  refine (decode_op 0x82#8 _ n (opOf_joinE _ _) (by decide) (by decide)).trans ?_
  change dCollgrp (splitE (joinE _ _)) = _
  rw [splitE_joinE]
  simp only [dCollgrp, moGrp_0_4, moGrp_4_2, moGrp_hi_6, isX_x6, xOf_x6, mkOf_sB]
  exact finish_ok _ h2 h3 h4
theorem collgrpReform (m : Marks) (slot : BitVec 4) (x : XReg) : Statement (.collgrpReform m slot x) := by
  refine single rfl (fun h2 h3 h4 n => ?_)
  rw [eW]
  refine (decode_op 0x82#8 _ n (opOf_joinE _ _) (by decide) (by decide)).trans ?_
  change dCollgrp (splitE (joinE _ _)) = _
  rw [splitE_joinE]
  simp only [dCollgrp, moGrp_0_4, moGrp_4_2, moGrp_hi_6, isX_x6, xOf_x6, mkOf_sB]
  exact finish_ok _ h2 h3 h4
theorem collgrpRelease (m : Marks) (slot : BitVec 4) : Statement (.collgrpRelease m slot) := by
  refine single rfl (fun h2 h3 h4 n => ?_)
  rw [eW]
  refine (decode_op 0x82#8 _ n (opOf_joinE _ _) (by decide) (by decide)).trans ?_
  change dCollgrp (splitE (joinE _ _)) = _
  rw [splitE_joinE]
  simp only [dCollgrp, moGrp_0_4, moGrp_4_2, moGrp_hi_6, isX_x6, xOf_x6, mkOf_sB]
  exact finish_ok _ h2 h3 h4
theorem amoAdd (m : Marks) (dbl : Bool) (d : XReg) (a : XReg) (b : XReg) (sp : Space) (sc : BitVec 3) (ord : Order) : Statement (.amoAdd m dbl d a b sp sc ord) := by
  refine single rfl (fun h2 h3 h4 n => ?_)
  rw [amo, aW]
  refine (decode_op 0x40#8 _ n (opOf_joinA _ _) (by decide) (by decide)).trans ?_
  change dAmo (splitA (joinA _ _)) = _
  rw [splitA_joinA]
  simp only [dAmo, amoDbl_fn, fnAmo_0_4, fnAmo_6_2, isX_x6, xOf_x6, mkOf_sB, spOf_spCode, ordOf_ordCode]
  exact finish_ok _ h2 h3 h4
theorem amoAnd (m : Marks) (dbl : Bool) (d : XReg) (a : XReg) (b : XReg) (sp : Space) (sc : BitVec 3) (ord : Order) : Statement (.amoAnd m dbl d a b sp sc ord) := by
  refine single rfl (fun h2 h3 h4 n => ?_)
  rw [amo, aW]
  refine (decode_op 0x40#8 _ n (opOf_joinA _ _) (by decide) (by decide)).trans ?_
  change dAmo (splitA (joinA _ _)) = _
  rw [splitA_joinA]
  simp only [dAmo, amoDbl_fn, fnAmo_0_4, fnAmo_6_2, isX_x6, xOf_x6, mkOf_sB, spOf_spCode, ordOf_ordCode]
  exact finish_ok _ h2 h3 h4
theorem amoOr (m : Marks) (dbl : Bool) (d : XReg) (a : XReg) (b : XReg) (sp : Space) (sc : BitVec 3) (ord : Order) : Statement (.amoOr m dbl d a b sp sc ord) := by
  refine single rfl (fun h2 h3 h4 n => ?_)
  rw [amo, aW]
  refine (decode_op 0x40#8 _ n (opOf_joinA _ _) (by decide) (by decide)).trans ?_
  change dAmo (splitA (joinA _ _)) = _
  rw [splitA_joinA]
  simp only [dAmo, amoDbl_fn, fnAmo_0_4, fnAmo_6_2, isX_x6, xOf_x6, mkOf_sB, spOf_spCode, ordOf_ordCode]
  exact finish_ok _ h2 h3 h4
theorem amoXor (m : Marks) (dbl : Bool) (d : XReg) (a : XReg) (b : XReg) (sp : Space) (sc : BitVec 3) (ord : Order) : Statement (.amoXor m dbl d a b sp sc ord) := by
  refine single rfl (fun h2 h3 h4 n => ?_)
  rw [amo, aW]
  refine (decode_op 0x40#8 _ n (opOf_joinA _ _) (by decide) (by decide)).trans ?_
  change dAmo (splitA (joinA _ _)) = _
  rw [splitA_joinA]
  simp only [dAmo, amoDbl_fn, fnAmo_0_4, fnAmo_6_2, isX_x6, xOf_x6, mkOf_sB, spOf_spCode, ordOf_ordCode]
  exact finish_ok _ h2 h3 h4
theorem amoMin (m : Marks) (dbl : Bool) (d : XReg) (a : XReg) (b : XReg) (sp : Space) (sc : BitVec 3) (ord : Order) : Statement (.amoMin m dbl d a b sp sc ord) := by
  refine single rfl (fun h2 h3 h4 n => ?_)
  rw [amo, aW]
  refine (decode_op 0x40#8 _ n (opOf_joinA _ _) (by decide) (by decide)).trans ?_
  change dAmo (splitA (joinA _ _)) = _
  rw [splitA_joinA]
  simp only [dAmo, amoDbl_fn, fnAmo_0_4, fnAmo_6_2, isX_x6, xOf_x6, mkOf_sB, spOf_spCode, ordOf_ordCode]
  exact finish_ok _ h2 h3 h4
theorem amoMax (m : Marks) (dbl : Bool) (d : XReg) (a : XReg) (b : XReg) (sp : Space) (sc : BitVec 3) (ord : Order) : Statement (.amoMax m dbl d a b sp sc ord) := by
  refine single rfl (fun h2 h3 h4 n => ?_)
  rw [amo, aW]
  refine (decode_op 0x40#8 _ n (opOf_joinA _ _) (by decide) (by decide)).trans ?_
  change dAmo (splitA (joinA _ _)) = _
  rw [splitA_joinA]
  simp only [dAmo, amoDbl_fn, fnAmo_0_4, fnAmo_6_2, isX_x6, xOf_x6, mkOf_sB, spOf_spCode, ordOf_ordCode]
  exact finish_ok _ h2 h3 h4
theorem amoMinu (m : Marks) (dbl : Bool) (d : XReg) (a : XReg) (b : XReg) (sp : Space) (sc : BitVec 3) (ord : Order) : Statement (.amoMinu m dbl d a b sp sc ord) := by
  refine single rfl (fun h2 h3 h4 n => ?_)
  rw [amo, aW]
  refine (decode_op 0x40#8 _ n (opOf_joinA _ _) (by decide) (by decide)).trans ?_
  change dAmo (splitA (joinA _ _)) = _
  rw [splitA_joinA]
  simp only [dAmo, amoDbl_fn, fnAmo_0_4, fnAmo_6_2, isX_x6, xOf_x6, mkOf_sB, spOf_spCode, ordOf_ordCode]
  exact finish_ok _ h2 h3 h4
theorem amoMaxu (m : Marks) (dbl : Bool) (d : XReg) (a : XReg) (b : XReg) (sp : Space) (sc : BitVec 3) (ord : Order) : Statement (.amoMaxu m dbl d a b sp sc ord) := by
  refine single rfl (fun h2 h3 h4 n => ?_)
  rw [amo, aW]
  refine (decode_op 0x40#8 _ n (opOf_joinA _ _) (by decide) (by decide)).trans ?_
  change dAmo (splitA (joinA _ _)) = _
  rw [splitA_joinA]
  simp only [dAmo, amoDbl_fn, fnAmo_0_4, fnAmo_6_2, isX_x6, xOf_x6, mkOf_sB, spOf_spCode, ordOf_ordCode]
  exact finish_ok _ h2 h3 h4
theorem amoSwap (m : Marks) (dbl : Bool) (d : XReg) (a : XReg) (b : XReg) (sp : Space) (sc : BitVec 3) (ord : Order) : Statement (.amoSwap m dbl d a b sp sc ord) := by
  refine single rfl (fun h2 h3 h4 n => ?_)
  rw [amo, aW]
  refine (decode_op 0x40#8 _ n (opOf_joinA _ _) (by decide) (by decide)).trans ?_
  change dAmo (splitA (joinA _ _)) = _
  rw [splitA_joinA]
  simp only [dAmo, amoDbl_fn, fnAmo_0_4, fnAmo_6_2, isX_x6, xOf_x6, mkOf_sB, spOf_spCode, ordOf_ordCode]
  exact finish_ok _ h2 h3 h4
theorem amoCas (m : Marks) (dbl : Bool) (d : XReg) (a : XReg) (b : XReg) (c : XReg) (sp : Space) (sc : BitVec 3) (ord : Order) : Statement (.amoCas m dbl d a b c sp sc ord) := by
  refine single rfl (fun h2 h3 h4 n => ?_)
  rw [amo, aW]
  refine (decode_op 0x40#8 _ n (opOf_joinA _ _) (by decide) (by decide)).trans ?_
  change dAmo (splitA (joinA _ _)) = _
  rw [splitA_joinA]
  simp only [dAmo, amoDbl_fn, fnAmo_0_4, fnAmo_6_2, isX_x6, xOf_x6, mkOf_sB, spOf_spCode, ordOf_ordCode]
  exact finish_ok _ h2 h3 h4
theorem amoFadd (m : Marks) (d : XReg) (a : XReg) (b : XReg) (sp : Space) (sc : BitVec 3) (ord : Order) : Statement (.amoFadd m d a b sp sc ord) := by
  refine single rfl (fun h2 h3 h4 n => ?_)
  rw [amo, aW]
  refine (decode_op 0x40#8 _ n (opOf_joinA _ _) (by decide) (by decide)).trans ?_
  change dAmo (splitA (joinA _ _)) = _
  rw [splitA_joinA]
  simp only [dAmo, amoDbl_fn, fnAmo_0_4, fnAmo_6_2, isX_x6, xOf_x6, mkOf_sB, spOf_spCode, ordOf_ordCode]
  exact finish_ok _ h2 h3 h4
theorem amoBfadd (m : Marks) (d : XReg) (a : XReg) (b : XReg) (sp : Space) (sc : BitVec 3) (ord : Order) : Statement (.amoBfadd m d a b sp sc ord) := by
  refine single rfl (fun h2 h3 h4 n => ?_)
  rw [amo, aW]
  refine (decode_op 0x40#8 _ n (opOf_joinA _ _) (by decide) (by decide)).trans ?_
  change dAmo (splitA (joinA _ _)) = _
  rw [splitA_joinA]
  simp only [dAmo, amoDbl_fn, fnAmo_0_4, fnAmo_6_2, isX_x6, xOf_x6, mkOf_sB, spOf_spCode, ordOf_ordCode]
  exact finish_ok _ h2 h3 h4
theorem waitmon (m : Marks) (dbl : Bool) (d : XReg) (a : XReg) (b : XReg) (c : XReg) (sp : Space) (sc : BitVec 3) (ord : Order) : Statement (.waitmon m dbl d a b c sp sc ord) := by
  refine single rfl (fun h2 h3 h4 n => ?_)
  rw [aW]
  refine (decode_op 0x41#8 _ n (opOf_joinA _ _) (by decide) (by decide)).trans ?_
  change dWaitmon (splitA (joinA _ _)) = _
  rw [splitA_joinA]
  simp only [dWaitmon, amoDbl_fn, fnAmo_0_4, fnAmo_6_2, isX_x6, xOf_x6, mkOf_sB, spOf_spCode, ordOf_ordCode]
  exact finish_ok _ h2 h3 h4
theorem barJoin (m : Marks) (d : XReg) (a : XReg) (sp : Space) : Statement (.barJoin m d a sp) := by
  refine single rfl (fun h2 h3 h4 n => ?_)
  rw [rW]
  refine (decode_op 0x42#8 _ n (opOf_joinR _ _) (by decide) (by decide)).trans ?_
  change dBar (splitR (joinR _ _)) = _
  rw [splitR_joinR]
  simp only [dBar, fnBar_0_2, fnBar_2_3, fnBar_5_3, isX_x6, xOf_x6, mkOf_sB, spOf_spCode]
  exact finish_ok _ h2 h3 h4
theorem barArrive (m : Marks) (d : XReg) (a : XReg) (sp : Space) : Statement (.barArrive m d a sp) := by
  refine single rfl (fun h2 h3 h4 n => ?_)
  rw [rW]
  refine (decode_op 0x42#8 _ n (opOf_joinR _ _) (by decide) (by decide)).trans ?_
  change dBar (splitR (joinR _ _)) = _
  rw [splitR_joinR]
  simp only [dBar, fnBar_0_2, fnBar_2_3, fnBar_5_3, isX_x6, xOf_x6, mkOf_sB, spOf_spCode]
  exact finish_ok _ h2 h3 h4
theorem barWait (m : Marks) (d : XReg) (a : XReg) (b : XReg) (sp : Space) : Statement (.barWait m d a b sp) := by
  refine single rfl (fun h2 h3 h4 n => ?_)
  rw [rW]
  refine (decode_op 0x42#8 _ n (opOf_joinR _ _) (by decide) (by decide)).trans ?_
  change dBar (splitR (joinR _ _)) = _
  rw [splitR_joinR]
  simp only [dBar, fnBar_0_2, fnBar_2_3, fnBar_5_3, isX_x6, xOf_x6, mkOf_sB, spOf_spCode]
  exact finish_ok _ h2 h3 h4
theorem barArrwait (m : Marks) (d : XReg) (a : XReg) (sp : Space) : Statement (.barArrwait m d a sp) := by
  refine single rfl (fun h2 h3 h4 n => ?_)
  rw [rW]
  refine (decode_op 0x42#8 _ n (opOf_joinR _ _) (by decide) (by decide)).trans ?_
  change dBar (splitR (joinR _ _)) = _
  rw [splitR_joinR]
  simp only [dBar, fnBar_0_2, fnBar_2_3, fnBar_5_3, isX_x6, xOf_x6, mkOf_sB, spOf_spCode]
  exact finish_ok _ h2 h3 h4
theorem barDrop (m : Marks) (d : XReg) (a : XReg) (sp : Space) : Statement (.barDrop m d a sp) := by
  refine single rfl (fun h2 h3 h4 n => ?_)
  rw [rW]
  refine (decode_op 0x42#8 _ n (opOf_joinR _ _) (by decide) (by decide)).trans ?_
  change dBar (splitR (joinR _ _)) = _
  rw [splitR_joinR]
  simp only [dBar, fnBar_0_2, fnBar_2_3, fnBar_5_3, isX_x6, xOf_x6, mkOf_sB, spOf_spCode]
  exact finish_ok _ h2 h3 h4
theorem frenew (m : Marks) (d : XReg) (a : XReg) : Statement (.frenew m d a) := by
  refine single rfl (fun h2 h3 h4 n => ?_)
  rw [rW]
  refine (decode_op 0x36#8 _ n (opOf_joinR _ _) (by decide) (by decide)).trans ?_
  change dFrenew (splitR (joinR _ _)) = _
  rw [splitR_joinR]
  simp [dFrenew]
  exact finish_ok _ h2 h3 h4
theorem flife (m : Marks) (d : XReg) (a : XReg) : Statement (.flife m d a) := by
  refine single rfl (fun h2 h3 h4 n => ?_)
  rw [rW]
  refine (decode_op 0x36#8 _ n (opOf_joinR _ _) (by decide) (by decide)).trans ?_
  change dFrenew (splitR (joinR _ _)) = _
  rw [splitR_joinR]
  simp [dFrenew]
  exact finish_ok _ h2 h3 h4
theorem fclaim (m : Marks) (d : XReg) (a : XReg) : Statement (.fclaim m d a) := by
  refine single rfl (fun h2 h3 h4 n => ?_)
  rw [rW]
  refine (decode_op 0x36#8 _ n (opOf_joinR _ _) (by decide) (by decide)).trans ?_
  change dFrenew (splitR (joinR _ _)) = _
  rw [splitR_joinR]
  simp [dFrenew]
  exact finish_ok _ h2 h3 h4
theorem fenceFull (m : Marks) (sc : BitVec 3) : Statement (.fenceFull m sc) := by
  refine single rfl (fun h2 h3 h4 n => ?_)
  rw [iW]
  refine (decode_op 0x90#8 _ n (opOf_joinI _ _) (by decide) (by decide)).trans ?_
  change dFence (splitI (joinI _ _)) = _
  rw [splitI_joinI]
  simp [dFence]
  exact finish_ok _ h2 h3 h4
theorem fenceAcq (m : Marks) (sc : BitVec 3) : Statement (.fenceAcq m sc) := by
  refine single rfl (fun h2 h3 h4 n => ?_)
  rw [iW]
  refine (decode_op 0x90#8 _ n (opOf_joinI _ _) (by decide) (by decide)).trans ?_
  change dFence (splitI (joinI _ _)) = _
  rw [splitI_joinI]
  simp [dFence]
  exact finish_ok _ h2 h3 h4
theorem fenceRel (m : Marks) (sc : BitVec 3) : Statement (.fenceRel m sc) := by
  refine single rfl (fun h2 h3 h4 n => ?_)
  rw [iW]
  refine (decode_op 0x90#8 _ n (opOf_joinI _ _) (by decide) (by decide)).trans ?_
  change dFence (splitI (joinI _ _)) = _
  rw [splitI_joinI]
  simp [dFence]
  exact finish_ok _ h2 h3 h4
theorem fenceSt (m : Marks) (sc : BitVec 3) : Statement (.fenceSt m sc) := by
  refine single rfl (fun h2 h3 h4 n => ?_)
  rw [iW]
  refine (decode_op 0x90#8 _ n (opOf_joinI _ _) (by decide) (by decide)).trans ?_
  change dFence (splitI (joinI _ _)) = _
  rw [splitI_joinI]
  simp [dFence]
  exact finish_ok _ h2 h3 h4
theorem fenceq (m : Marks) (mask : BitVec 10) (sc : BitVec 3) : Statement (.fenceq m mask sc) := by
  refine single rfl (fun h2 h3 h4 n => ?_)
  rw [iW]
  refine (decode_op 0x91#8 _ n (opOf_joinI _ _) (by decide) (by decide)).trans ?_
  change dFenceq (splitI (joinI _ _)) = _
  rw [splitI_joinI]
  simp [dFenceq]
  exact finish_ok _ h2 h3 h4
theorem fenceqW (m : Marks) (mask : BitVec 10) (sc : BitVec 3) : Statement (.fenceqW m mask sc) := by
  refine single rfl (fun h2 h3 h4 n => ?_)
  rw [iW]
  refine (decode_op 0x91#8 _ n (opOf_joinI _ _) (by decide) (by decide)).trans ?_
  change dFenceq (splitI (joinI _ _)) = _
  rw [splitI_joinI]
  simp [dFenceq]
  exact finish_ok _ h2 h3 h4
theorem sleepuntil (m : Marks) (a : XReg) : Statement (.sleepuntil m a) := by
  refine single rfl (fun h2 h3 h4 n => ?_)
  rw [rW]
  refine (decode_op 0x92#8 _ n (opOf_joinR _ _) (by decide) (by decide)).trans ?_
  change dSleep (splitR (joinR _ _)) = _
  rw [splitR_joinR]
  simp [dSleep]
  exact finish_ok _ h2 h3 h4
theorem sleepuntilNp (m : Marks) (a : XReg) : Statement (.sleepuntilNp m a) := by
  refine single rfl (fun h2 h3 h4 n => ?_)
  rw [rW]
  refine (decode_op 0x92#8 _ n (opOf_joinR _ _) (by decide) (by decide)).trans ?_
  change dSleep (splitR (joinR _ _)) = _
  rw [splitR_joinR]
  simp [dSleep]
  exact finish_ok _ h2 h3 h4
theorem rdtick (m : Marks) (d : XReg) : Statement (.rdtick m d) := by
  refine single rfl (fun h2 h3 h4 n => ?_)
  rw [rW]
  refine (decode_op 0x93#8 _ n (opOf_joinR _ _) (by decide) (by decide)).trans ?_
  change dRdtick (splitR (joinR _ _)) = _
  rw [splitR_joinR]
  simp [dRdtick]
  exact finish_ok _ h2 h3 h4
theorem yield (m : Marks) : Statement (.yield m) := by
  refine single rfl (fun h2 h3 h4 n => ?_)
  rw [sW]
  refine (decode_op 0x94#8 _ n (opOf_joinS _ _) (by decide) (by decide)).trans ?_
  change dS0 .yield (splitS (joinS _ _)) = _
  rw [splitS_joinS]
  simp [dS0]
  exact finish_ok _ h2 h3 h4
theorem exit (m : Marks) : Statement (.exit m) := by
  refine single rfl (fun h2 h3 h4 n => ?_)
  rw [sW]
  refine (decode_op 0x95#8 _ n (opOf_joinS _ _) (by decide) (by decide)).trans ?_
  change dS0 .exit (splitS (joinS _ _)) = _
  rw [splitS_joinS]
  simp [dS0]
  exact finish_ok _ h2 h3 h4
theorem rngSeed (m : Marks) (a : XReg) (b : XReg) : Statement (.rngSeed m a b) := by
  refine single rfl (fun h2 h3 h4 n => ?_)
  rw [rW]
  refine (decode_op 0x96#8 _ n (opOf_joinR _ _) (by decide) (by decide)).trans ?_
  change dRng (splitR (joinR _ _)) = _
  rw [splitR_joinR]
  simp [dRng]
  exact finish_ok _ h2 h3 h4
theorem rngNext (m : Marks) (d : XReg) : Statement (.rngNext m d) := by
  refine single rfl (fun h2 h3 h4 n => ?_)
  rw [rW]
  refine (decode_op 0x96#8 _ n (opOf_joinR _ _) (by decide) (by decide)).trans ?_
  change dRng (splitR (joinR _ _)) = _
  rw [splitR_joinR]
  simp [dRng]
  exact finish_ok _ h2 h3 h4
theorem rngGet (m : Marks) (d : XReg) (a : XReg) : Statement (.rngGet m d a) := by
  refine single rfl (fun h2 h3 h4 n => ?_)
  rw [rW]
  refine (decode_op 0x96#8 _ n (opOf_joinR _ _) (by decide) (by decide)).trans ?_
  change dRng (splitR (joinR _ _)) = _
  rw [splitR_joinR]
  simp [dRng]
  exact finish_ok _ h2 h3 h4
theorem cfgw (m : Marks) (d : XReg) (a : XReg) : Statement (.cfgw m d a) := by
  refine single rfl (fun h2 h3 h4 n => ?_)
  rw [rW]
  refine (decode_op 0x88#8 _ n (opOf_joinR _ _) (by decide) (by decide)).trans ?_
  change dDA .cfgw (splitR (joinR _ _)) = _
  rw [splitR_joinR]
  simp [dDA]
  exact finish_ok _ h2 h3 h4
theorem cfgs (m : Marks) (d : XReg) (a : XReg) (b : XReg) (sp : Space) : Statement (.cfgs m d a b sp) := by
  refine single rfl (fun h2 h3 h4 n => ?_)
  rw [rW]
  refine (decode_op 0x89#8 _ n (opOf_joinR _ _) (by decide) (by decide)).trans ?_
  change dCfgs (splitR (joinR _ _)) = _
  rw [splitR_joinR]
  simp [dCfgs]
  exact finish_ok _ h2 h3 h4
theorem planeRun (m : Marks) (p : BitVec 2) : Statement (.planeRun m p) := by
  refine single rfl (fun h2 h3 h4 n => ?_)
  rw [iW]
  refine (decode_op 0x8a#8 _ n (opOf_joinI _ _) (by decide) (by decide)).trans ?_
  change dPlane (splitI (joinI _ _)) = _
  rw [splitI_joinI]
  simp [dPlane]
  exact finish_ok _ h2 h3 h4
theorem planeHalt (m : Marks) (p : BitVec 2) : Statement (.planeHalt m p) := by
  refine single rfl (fun h2 h3 h4 n => ?_)
  rw [iW]
  refine (decode_op 0x8a#8 _ n (opOf_joinI _ _) (by decide) (by decide)).trans ?_
  change dPlane (splitI (joinI _ _)) = _
  rw [splitI_joinI]
  simp [dPlane]
  exact finish_ok _ h2 h3 h4
theorem planeStat (m : Marks) (d : XReg) (p : BitVec 2) : Statement (.planeStat m d p) := by
  refine single rfl (fun h2 h3 h4 n => ?_)
  rw [iW]
  refine (decode_op 0x8a#8 _ n (opOf_joinI _ _) (by decide) (by decide)).trans ?_
  change dPlane (splitI (joinI _ _)) = _
  rw [splitI_joinI]
  simp [dPlane]
  exact finish_ok _ h2 h3 h4
theorem planeClr (m : Marks) (p : BitVec 2) : Statement (.planeClr m p) := by
  refine single rfl (fun h2 h3 h4 n => ?_)
  rw [iW]
  refine (decode_op 0x8a#8 _ n (opOf_joinI _ _) (by decide) (by decide)).trans ?_
  change dPlane (splitI (joinI _ _)) = _
  rw [splitI_joinI]
  simp [dPlane]
  exact finish_ok _ h2 h3 h4
theorem planeFree (m : Marks) (p : BitVec 2) : Statement (.planeFree m p) := by
  refine single rfl (fun h2 h3 h4 n => ?_)
  rw [iW]
  refine (decode_op 0x8a#8 _ n (opOf_joinI _ _) (by decide) (by decide)).trans ?_
  change dPlane (splitI (joinI _ _)) = _
  rw [splitI_joinI]
  simp [dPlane]
  exact finish_ok _ h2 h3 h4
theorem strmSr (m : Marks) (dep : BitVec 2) (ka : KIdx) (x : XReg) : Statement (.strmSr m dep ka x) := by
  refine single rfl (fun h2 h3 h4 n => ?_)
  rw [eW]
  refine (decode_op 0x8b#8 _ n (opOf_joinE _ _) (by decide) (by decide)).trans ?_
  change dStrm (splitE (joinE _ _)) = _
  rw [splitE_joinE]
  simp [dStrm]
  exact finish_ok _ h2 h3 h4
theorem strmSw (m : Marks) (dep : BitVec 2) (ka : KIdx) (x : XReg) : Statement (.strmSw m dep ka x) := by
  refine single rfl (fun h2 h3 h4 n => ?_)
  rw [eW]
  refine (decode_op 0x8b#8 _ n (opOf_joinE _ _) (by decide) (by decide)).trans ?_
  change dStrm (splitE (joinE _ _)) = _
  rw [splitE_joinE]
  simp [dStrm]
  exact finish_ok _ h2 h3 h4
theorem strmMs (m : Marks) (dir : Bool) (dep : BitVec 2) (ka : KIdx) (x : XReg) : Statement (.strmMs m dir dep ka x) := by
  refine single rfl (fun h2 h3 h4 n => ?_)
  rw [eW]
  refine (decode_op 0x8b#8 _ n (opOf_joinE _ _) (by decide) (by decide)).trans ?_
  change dStrm (splitE (joinE _ _)) = _
  rw [splitE_joinE]
  simp [dStrm]
  exact finish_ok _ h2 h3 h4
theorem sbar (m : Marks) (mask : BitVec 3) : Statement (.sbar m mask) := by
  refine single rfl (fun h2 h3 h4 n => ?_)
  rw [iW]
  refine (decode_op 0x8c#8 _ n (opOf_joinI _ _) (by decide) (by decide)).trans ?_
  change dSbar (splitI (joinI _ _)) = _
  rw [splitI_joinI]
  simp [dSbar]
  exact finish_ok _ h2 h3 h4
theorem sbarW (m : Marks) (mask : BitVec 3) : Statement (.sbarW m mask) := by
  refine single rfl (fun h2 h3 h4 n => ?_)
  rw [iW]
  refine (decode_op 0x8c#8 _ n (opOf_joinI _ _) (by decide) (by decide)).trans ?_
  change dSbar (splitI (joinI _ _)) = _
  rw [splitI_joinI]
  simp [dSbar]
  exact finish_ok _ h2 h3 h4
theorem sendvc (m : Marks) (vc : BitVec 5) (kind : BitVec 3) (a : XReg) : Statement (.sendvc m vc kind a) := by
  refine single rfl (fun h2 h3 h4 n => ?_)
  rw [rW]
  refine (decode_op 0x8d#8 _ n (opOf_joinR _ _) (by decide) (by decide)).trans ?_
  change dSendvc (splitR (joinR _ _)) = _
  rw [splitR_joinR]
  have hz : (kind != 0#3 && !decide (a = 0#5)) = false := by
    simp only [Instr.ok4, Bool.or_eq_true, decide_eq_true_eq] at h4
    rcases h4 with h | h <;> simp [h]
  simp [dSendvc, hz]
  exact finish_ok _ h2 h3 h4
theorem recvvc (m : Marks) (d : XReg) (vc : BitVec 5) : Statement (.recvvc m d vc) := by
  refine single rfl (fun h2 h3 h4 n => ?_)
  rw [rW]
  refine (decode_op 0x8e#8 _ n (opOf_joinR _ _) (by decide) (by decide)).trans ?_
  change dRecvvc (splitR (joinR _ _)) = _
  rw [splitR_joinR]
  simp only [dRecvvc, fnRecv_0_5, fnRecv_5_1, fnRecv_6_2, isX_x6, xOf_x6, mkOf_sB]
  exact finish_ok _ h2 h3 h4
theorem recvvcNb (m : Marks) (d : XReg) (vc : BitVec 5) : Statement (.recvvcNb m d vc) := by
  refine single rfl (fun h2 h3 h4 n => ?_)
  rw [rW]
  refine (decode_op 0x8e#8 _ n (opOf_joinR _ _) (by decide) (by decide)).trans ?_
  change dRecvvc (splitR (joinR _ _)) = _
  rw [splitR_joinR]
  simp only [dRecvvc, fnRecv_0_5, fnRecv_5_1, fnRecv_6_2, isX_x6, xOf_x6, mkOf_sB]
  exact finish_ok _ h2 h3 h4
theorem waitvc (m : Marks) (d : XReg) (mask : BitVec 32) : Statement (.waitvc m d mask) := by
  refine single rfl (fun h2 h3 h4 n => ?_)
  rw [iW]
  refine (decode_op 0x8f#8 _ n (opOf_joinI _ _) (by decide) (by decide)).trans ?_
  change dWaitvc (splitI (joinI _ _)) = _
  rw [splitI_joinI]
  simp [dWaitvc]
  exact finish_ok _ h2 h3 h4
theorem trap (m : Marks) (imm : BitVec 28) : Statement (.trap m imm) := by
  refine single rfl (fun h2 h3 h4 n => ?_)
  rw [sW]
  refine (decode_op 0xa0#8 _ n (opOf_joinS _ _) (by decide) (by decide)).trans ?_
  change dSi .trap (splitS (joinS _ _)) = _
  rw [splitS_joinS]
  simp [dSi]
  exact finish_ok _ h2 h3 h4
theorem rte (m : Marks) : Statement (.rte m) := by
  refine single rfl (fun h2 h3 h4 n => ?_)
  rw [sW]
  refine (decode_op 0xa1#8 _ n (opOf_joinS _ _) (by decide) (by decide)).trans ?_
  change dS0 .rte (splitS (joinS _ _)) = _
  rw [splitS_joinS]
  simp [dS0]
  exact finish_ok _ h2 h3 h4
theorem sprr (m : Marks) (d : XReg) (spr : BitVec 12) : Statement (.sprr m d spr) := by
  refine single rfl (fun h2 h3 h4 n => ?_)
  rw [sW]
  refine (decode_op 0xa2#8 _ n (opOf_joinS _ _) (by decide) (by decide)).trans ?_
  change dSprr (splitS (joinS _ _)) = _
  rw [splitS_joinS]
  simp [dSprr]
  exact finish_ok _ h2 h3 h4
theorem sprw (m : Marks) (spr : BitVec 12) (a : XReg) : Statement (.sprw m spr a) := by
  refine single rfl (fun h2 h3 h4 n => ?_)
  rw [sW]
  refine (decode_op 0xa3#8 _ n (opOf_joinS _ _) (by decide) (by decide)).trans ?_
  change dSprw (splitS (joinS _ _)) = _
  rw [splitS_joinS]
  simp [dSprw]
  exact finish_ok _ h2 h3 h4
theorem launch (m : Marks) (d : XReg) (a : XReg) : Statement (.launch m d a) := by
  refine single rfl (fun h2 h3 h4 n => ?_)
  rw [rW]
  refine (decode_op 0xa4#8 _ n (opOf_joinR _ _) (by decide) (by decide)).trans ?_
  change dDA .launch (splitR (joinR _ _)) = _
  rw [splitR_joinR]
  simp [dDA]
  exact finish_ok _ h2 h3 h4
theorem lwait (m : Marks) (d : XReg) (a : XReg) : Statement (.lwait m d a) := by
  refine single rfl (fun h2 h3 h4 n => ?_)
  rw [rW]
  refine (decode_op 0xa5#8 _ n (opOf_joinR _ _) (by decide) (by decide)).trans ?_
  change dDA .lwait (splitR (joinR _ _)) = _
  rw [splitR_joinR]
  simp [dDA]
  exact finish_ok _ h2 h3 h4
theorem leaseGet (m : Marks) (d : XReg) (a : XReg) (b : XReg) : Statement (.leaseGet m d a b) := by
  refine single rfl (fun h2 h3 h4 n => ?_)
  rw [rW]
  refine (decode_op 0xa6#8 _ n (opOf_joinR _ _) (by decide) (by decide)).trans ?_
  change dDAB leaseOf (splitR (joinR _ _)) = _
  rw [splitR_joinR]
  simp [dDAB, dRRR]
  exact finish_ok _ h2 h3 h4
theorem leaseRevoke (m : Marks) (d : XReg) (a : XReg) (b : XReg) : Statement (.leaseRevoke m d a b) := by
  refine single rfl (fun h2 h3 h4 n => ?_)
  rw [rW]
  refine (decode_op 0xa6#8 _ n (opOf_joinR _ _) (by decide) (by decide)).trans ?_
  change dDAB leaseOf (splitR (joinR _ _)) = _
  rw [splitR_joinR]
  simp [dDAB, dRRR]
  exact finish_ok _ h2 h3 h4
theorem leaseRelease (m : Marks) (d : XReg) (a : XReg) (b : XReg) : Statement (.leaseRelease m d a b) := by
  refine single rfl (fun h2 h3 h4 n => ?_)
  rw [rW]
  refine (decode_op 0xa6#8 _ n (opOf_joinR _ _) (by decide) (by decide)).trans ?_
  change dDAB leaseOf (splitR (joinR _ _)) = _
  rw [splitR_joinR]
  simp [dDAB, dRRR]
  exact finish_ok _ h2 h3 h4
theorem invpg (m : Marks) (a : XReg) (b : XReg) (big : Bool) : Statement (.invpg m a b big) := by
  refine single rfl (fun h2 h3 h4 n => ?_)
  rw [rW]
  refine (decode_op 0xa7#8 _ n (opOf_joinR _ _) (by decide) (by decide)).trans ?_
  change dInvpg (splitR (joinR _ _)) = _
  rw [splitR_joinR]
  simp [dInvpg]
  exact finish_ok _ h2 h3 h4
theorem retireBegin (m : Marks) (d : XReg) (a : XReg) : Statement (.retireBegin m d a) := by
  refine single rfl (fun h2 h3 h4 n => ?_)
  rw [rW]
  refine (decode_op 0xa8#8 _ n (opOf_joinR _ _) (by decide) (by decide)).trans ?_
  change dDA .retireBegin (splitR (joinR _ _)) = _
  rw [splitR_joinR]
  simp [dDA]
  exact finish_ok _ h2 h3 h4
theorem bkpt (m : Marks) (imm : BitVec 28) : Statement (.bkpt m imm) := by
  refine single rfl (fun h2 h3 h4 n => ?_)
  rw [sW]
  refine (decode_op 0xa9#8 _ n (opOf_joinS _ _) (by decide) (by decide)).trans ?_
  change dSi .bkpt (splitS (joinS _ _)) = _
  rw [splitS_joinS]
  simp [dSi]
  exact finish_ok _ h2 h3 h4
theorem holdSet (m : Marks) (d : XReg) (a : XReg) (b : XReg) : Statement (.holdSet m d a b) := by
  refine single rfl (fun h2 h3 h4 n => ?_)
  rw [rW]
  refine (decode_op 0xaa#8 _ n (opOf_joinR _ _) (by decide) (by decide)).trans ?_
  change dDAB holdOf (splitR (joinR _ _)) = _
  rw [splitR_joinR]
  simp [dDAB, dRRR]
  exact finish_ok _ h2 h3 h4
theorem holdRel (m : Marks) (d : XReg) (a : XReg) (b : XReg) : Statement (.holdRel m d a b) := by
  refine single rfl (fun h2 h3 h4 n => ?_)
  rw [rW]
  refine (decode_op 0xaa#8 _ n (opOf_joinR _ _) (by decide) (by decide)).trans ?_
  change dDAB holdOf (splitR (joinR _ _)) = _
  rw [splitR_joinR]
  simp [dDAB, dRRR]
  exact finish_ok _ h2 h3 h4
theorem pctrRd (m : Marks) (d : XReg) (a : XReg) : Statement (.pctrRd m d a) := by
  refine single rfl (fun h2 h3 h4 n => ?_)
  rw [rW]
  refine (decode_op 0xab#8 _ n (opOf_joinR _ _) (by decide) (by decide)).trans ?_
  change dPctr (splitR (joinR _ _)) = _
  rw [splitR_joinR]
  simp [dPctr]
  exact finish_ok _ h2 h3 h4
theorem pctrSel (m : Marks) (a : XReg) (b : XReg) : Statement (.pctrSel m a b) := by
  refine single rfl (fun h2 h3 h4 n => ?_)
  rw [rW]
  refine (decode_op 0xab#8 _ n (opOf_joinR _ _) (by decide) (by decide)).trans ?_
  change dPctr (splitR (joinR _ _)) = _
  rw [splitR_joinR]
  simp [dPctr]
  exact finish_ok _ h2 h3 h4
theorem pctrClr (m : Marks) (a : XReg) : Statement (.pctrClr m a) := by
  refine single rfl (fun h2 h3 h4 n => ?_)
  rw [rW]
  refine (decode_op 0xab#8 _ n (opOf_joinR _ _) (by decide) (by decide)).trans ?_
  change dPctr (splitR (joinR _ _)) = _
  rw [splitR_joinR]
  simp [dPctr]
  exact finish_ok _ h2 h3 h4
theorem histRd (m : Marks) (d : XReg) (a : XReg) (b : XReg) : Statement (.histRd m d a b) := by
  refine single rfl (fun h2 h3 h4 n => ?_)
  rw [rW]
  refine (decode_op 0xac#8 _ n (opOf_joinR _ _) (by decide) (by decide)).trans ?_
  change dHist (splitR (joinR _ _)) = _
  rw [splitR_joinR]
  simp [dHist]
  exact finish_ok _ h2 h3 h4
theorem histArm (m : Marks) (a : XReg) (b : XReg) (c : XReg) : Statement (.histArm m a b c) := by
  refine single rfl (fun h2 h3 h4 n => ?_)
  rw [rW]
  refine (decode_op 0xac#8 _ n (opOf_joinR _ _) (by decide) (by decide)).trans ?_
  change dHist (splitR (joinR _ _)) = _
  rw [splitR_joinR]
  simp [dHist]
  exact finish_ok _ h2 h3 h4
theorem histClr (m : Marks) (a : XReg) : Statement (.histClr m a) := by
  refine single rfl (fun h2 h3 h4 n => ?_)
  rw [rW]
  refine (decode_op 0xac#8 _ n (opOf_joinR _ _) (by decide) (by decide)).trans ?_
  change dHist (splitR (joinR _ _)) = _
  rw [splitR_joinR]
  simp [dHist]
  exact finish_ok _ h2 h3 h4
theorem waitmonDeadline (g : Nat) (t : Nat) : Statement (.waitmonDeadline g t) := fun h => absurd h Bool.false_ne_true
theorem fenceqEntryRelease (g : Nat) (id : Nat) : Statement (.fenceqEntryRelease g id) := fun h => absurd h Bool.false_ne_true
theorem sleepuntilWake (g : Nat) (t : Nat) : Statement (.sleepuntilWake g t) := fun h => absurd h Bool.false_ne_true
theorem configCommandApply (g : Nat) : Statement (.configCommandApply g) := fun h => absurd h Bool.false_ne_true
theorem engineCommitSample (g : Nat) (src : Nat) (v : Nat) : Statement (.engineCommitSample g src v) := fun h => absurd h Bool.false_ne_true
theorem trapEntry (g : Nat) (t : Nat) : Statement (.trapEntry g t) := fun h => absurd h Bool.false_ne_true
theorem aluFire (g : Nat) (e : Nat) : Statement (.aluFire g e) := fun h => absurd h Bool.false_ne_true
theorem faluFire (g : Nat) (e : Nat) : Statement (.faluFire g e) := fun h => absurd h Bool.false_ne_true
theorem constFire (g : Nat) (e : Nat) : Statement (.constFire g e) := fun h => absurd h Bool.false_ne_true
theorem dupFire (g : Nat) (e : Nat) : Statement (.dupFire g e) := fun h => absurd h Bool.false_ne_true
theorem steerFire (g : Nat) (e : Nat) : Statement (.steerFire g e) := fun h => absurd h Bool.false_ne_true
theorem mergeFire (g : Nat) (e : Nat) : Statement (.mergeFire g e) := fun h => absurd h Bool.false_ne_true
theorem amergeFire (g : Nat) (e : Nat) : Statement (.amergeFire g e) := fun h => absurd h Bool.false_ne_true
theorem carryFire (g : Nat) (e : Nat) : Statement (.carryFire g e) := fun h => absurd h Bool.false_ne_true
theorem lceFire (g : Nat) (e : Nat) : Statement (.lceFire g e) := fun h => absurd h Bool.false_ne_true
theorem djoinFire (g : Nat) (e : Nat) : Statement (.djoinFire g e) := fun h => absurd h Bool.false_ne_true
theorem arbReplyFire (g : Nat) (e : Nat) : Statement (.arbReplyFire g e) := fun h => absurd h Bool.false_ne_true
theorem arbGrantFire (g : Nat) (e : Nat) : Statement (.arbGrantFire g e) := fun h => absurd h Bool.false_ne_true
theorem srcFire (g : Nat) (e : Nat) : Statement (.srcFire g e) := fun h => absurd h Bool.false_ne_true
theorem snkFire (g : Nat) (e : Nat) : Statement (.snkFire g e) := fun h => absurd h Bool.false_ne_true
theorem vciFire (g : Nat) (e : Nat) : Statement (.vciFire g e) := fun h => absurd h Bool.false_ne_true
theorem vcoFire (g : Nat) (e : Nat) : Statement (.vcoFire g e) := fun h => absurd h Bool.false_ne_true
theorem entryFire (g : Nat) (e : Nat) : Statement (.entryFire g e) := fun h => absurd h Bool.false_ne_true
theorem planeScheduleDecision (g : Nat) : Statement (.planeScheduleDecision g) := fun h => absurd h Bool.false_ne_true
theorem vcWordArrive (g : Nat) (vc : Nat) : Statement (.vcWordArrive g vc) := fun h => absurd h Bool.false_ne_true
theorem vcPersistentBackpressure (g : Nat) (vc : Nat) : Statement (.vcPersistentBackpressure g vc) := fun h => absurd h Bool.false_ne_true
theorem spillRecordReinject (g : Nat) (vc : Nat) : Statement (.spillRecordReinject g vc) := fun h => absurd h Bool.false_ne_true
theorem sqDrain (g : Nat) (t : Nat) : Statement (.sqDrain g t) := fun h => absurd h Bool.false_ne_true
theorem requestHop (h : Hop) (home : Home) : Statement (.requestHop h home) := fun h => absurd h Bool.false_ne_true
theorem bankPerform (g : Nat) (bank : Nat) : Statement (.bankPerform g bank) := fun h => absurd h Bool.false_ne_true
theorem bridgePerform (b : Nat) : Statement (.bridgePerform b) := fun h => absurd h Bool.false_ne_true
theorem replayRelease (b : Nat) : Statement (.replayRelease b) := fun h => absurd h Bool.false_ne_true
theorem remoteMessageArrive (g : Nat) : Statement (.remoteMessageArrive g) := fun h => absurd h Bool.false_ne_true
theorem remoteMessageDispatch (g : Nat) : Statement (.remoteMessageDispatch g) := fun h => absurd h Bool.false_ne_true
theorem creditReturnReceive (g : Nat) (target : Nat) : Statement (.creditReturnReceive g target) := fun h => absurd h Bool.false_ne_true
theorem engineBegin (g : Nat) (q : Queue) (id : Nat) : Statement (.engineBegin g q id) := fun h => absurd h Bool.false_ne_true
theorem engineAccess (g : Nat) (q : Queue) (id : Nat) : Statement (.engineAccess g q id) := fun h => absurd h Bool.false_ne_true
theorem engineComplete (g : Nat) (q : Queue) (id : Nat) : Statement (.engineComplete g q id) := fun h => absurd h Bool.false_ne_true
theorem collMessageReceive (part : Nat) (msg : CollMsg) : Statement (.collMessageReceive part msg) := fun h => absurd h Bool.false_ne_true
theorem collRoundTimeout (g : Nat) (slot : Nat) : Statement (.collRoundTimeout g slot) := fun h => absurd h Bool.false_ne_true
theorem reformProbeReceive (part : Nat) (grp : GroupRank) (rank : Nat) : Statement (.reformProbeReceive part grp rank) := fun h => absurd h Bool.false_ne_true
theorem reformProbeSend (g : Nat) (slot : Nat) : Statement (.reformProbeSend g slot) := fun h => absurd h Bool.false_ne_true
theorem reformProbePhaseEnd (g : Nat) (slot : Nat) : Statement (.reformProbePhaseEnd g slot) := fun h => absurd h Bool.false_ne_true
theorem reformReportReceive (part : Nat) (grp : GroupRank) (rank : Nat) (heard : List Nat) : Statement (.reformReportReceive part grp rank heard) := fun h => absurd h Bool.false_ne_true
theorem reformReportPhaseEnd (g : Nat) (slot : Nat) : Statement (.reformReportPhaseEnd g slot) := fun h => absurd h Bool.false_ne_true
theorem reformResultReceive (part : Nat) (grp : GroupRank) (members : List Nat) : Statement (.reformResultReceive part grp members) := fun h => absurd h Bool.false_ne_true
theorem reformResultTimeout (g : Nat) (slot : Nat) : Statement (.reformResultTimeout g slot) := fun h => absurd h Bool.false_ne_true
theorem tick : Statement (.tick) := fun h => absurd h Bool.false_ne_true
theorem gladeStopRequest (g : Nat) : Statement (.gladeStopRequest g) := fun h => absurd h Bool.false_ne_true
theorem contextSave (g : Nat) : Statement (.contextSave g) := fun h => absurd h Bool.false_ne_true
theorem contextRestore (part : Nat) (n : Nat) : Statement (.contextRestore part n) := fun h => absurd h Bool.false_ne_true
theorem schedulerEvaluate (part : Nat) : Statement (.schedulerEvaluate part) := fun h => absurd h Bool.false_ne_true
theorem quantumExpire (part : Nat) (n : Nat) : Statement (.quantumExpire part n) := fun h => absurd h Bool.false_ne_true
theorem launchDispatch (part : Nat) (n : Nat) : Statement (.launchDispatch part n) := fun h => absurd h Bool.false_ne_true
theorem leaseWalk (part : Nat) (n : Nat) : Statement (.leaseWalk part n) := fun h => absurd h Bool.false_ne_true
theorem lresumeWrite (part : Nat) (v : BitVec 64) : Statement (.lresumeWrite part v) := fun h => absurd h Bool.false_ne_true
theorem launchRotation (part : Nat) (n : Nat) : Statement (.launchRotation part n) := fun h => absurd h Bool.false_ne_true
theorem completionWave (part : Nat) (n : Nat) : Statement (.completionWave part n) := fun h => absurd h Bool.false_ne_true
theorem launchEndingDone (part : Nat) (n : Nat) : Statement (.launchEndingDone part n) := fun h => absurd h Bool.false_ne_true
theorem ltermWrite (part : Nat) (v : BitVec 64) : Statement (.ltermWrite part v) := fun h => absurd h Bool.false_ne_true
theorem walkerSetBit (part : Nat) (va : Nat) (dirty : Bool) : Statement (.walkerSetBit part va dirty) := fun h => absurd h Bool.false_ne_true
theorem pageVectorMiss (g : Nat) (va : Nat) : Statement (.pageVectorMiss g va) := fun h => absurd h Bool.false_ne_true
theorem eventRecordWrite (ring : Option Nat) : Statement (.eventRecordWrite ring) := fun h => absurd h Bool.false_ne_true
theorem dbgHalt : Statement (.dbgHalt) := fun h => absurd h Bool.false_ne_true
theorem dbgResume : Statement (.dbgResume) := fun h => absurd h Bool.false_ne_true
theorem dbgStep : Statement (.dbgStep) := fun h => absurd h Bool.false_ne_true
theorem tcmdResume (part : Nat) : Statement (.tcmdResume part) := fun h => absurd h Bool.false_ne_true
theorem tcmdRetire (part : Nat) : Statement (.tcmdRetire part) := fun h => absurd h Bool.false_ne_true
theorem portSprRead (cmd : PcmdWrite) : Statement (.portSprRead cmd) := fun h => absurd h Bool.false_ne_true
theorem portSprWrite (pdata : Option (BitVec 64)) (spr : Option (BitVec 12)) : Statement (.portSprWrite pdata spr) := fun h => absurd h Bool.false_ne_true
theorem portHoldSet (x : PargWrite) : Statement (.portHoldSet x) := fun h => absurd h Bool.false_ne_true
theorem portHoldRel (x : PargWrite) : Statement (.portHoldRel x) := fun h => absurd h Bool.false_ne_true
theorem portOpComplete : Statement (.portOpComplete) := fun h => absurd h Bool.false_ne_true
theorem pgrovesWrite (part : Nat) (v : BitVec 64) : Statement (.pgrovesWrite part v) := fun h => absurd h Bool.false_ne_true
theorem groveRemovalEffect (part : Nat) (grove : Nat) : Statement (.groveRemovalEffect part grove) := fun h => absurd h Bool.false_ne_true
theorem pkeysWrite (part : Nat) (v : BitVec 64) : Statement (.pkeysWrite part v) := fun h => absurd h Bool.false_ne_true
theorem vxdestWrite (part : Nat) (v : BitVec 64) : Statement (.vxdestWrite part v) := fun h => absurd h Bool.false_ne_true
theorem mailboxDoorbell (part : Nat) (tail : Option (BitVec 32)) (ringBase : Option (BitVec 64)) (ringLog : Option (BitVec 5)) : Statement (.mailboxDoorbell part tail ringBase ringLog) := fun h => absurd h Bool.false_ne_true
theorem mbrespWrite (part : Nat) (v : BitVec 64) : Statement (.mbrespWrite part v) := fun h => absurd h Bool.false_ne_true
theorem linkFailure (link : FailedLink) : Statement (.linkFailure link) := fun h => absurd h Bool.false_ne_true
theorem ethFrameReceive (port : Nat) (fr : EthFrame) : Statement (.ethFrameReceive port fr) := fun h => absurd h Bool.false_ne_true
theorem ethmapWrite (v : BitVec 64) : Statement (.ethmapWrite v) := fun h => absurd h Bool.false_ne_true
theorem elogpop : Statement (.elogpop) := fun h => absurd h Bool.false_ne_true
theorem efirstClear : Statement (.efirstClear) := fun h => absurd h Bool.false_ne_true
theorem retireUnitCopy : Statement (.retireUnitCopy) := fun h => absurd h Bool.false_ne_true
theorem capacityMessageReceive (pkg : Nat) (cap : Nat) : Statement (.capacityMessageReceive pkg cap) := fun h => absurd h Bool.false_ne_true
theorem srefEnter (k : Nat) : Statement (.srefEnter k) := fun h => absurd h Bool.false_ne_true
theorem srefExit (k : Nat) : Statement (.srefExit k) := fun h => absurd h Bool.false_ne_true
theorem railreqWrite (g : Nat) (v : BitVec 64) : Statement (.railreqWrite g v) := fun h => absurd h Bool.false_ne_true
theorem railWindowBoundary (g : Nat) : Statement (.railWindowBoundary g) := fun h => absurd h Bool.false_ne_true
theorem railChangeDone (g : Nat) : Statement (.railChangeDone g) := fun h => absurd h Bool.false_ne_true
theorem droopTrip (g : Nat) : Statement (.droopTrip g) := fun h => absurd h Bool.false_ne_true
theorem droopEscalate (g : Nat) : Statement (.droopEscalate g) := fun h => absurd h Bool.false_ne_true
theorem droopRelease (g : Nat) : Statement (.droopRelease g) := fun h => absurd h Bool.false_ne_true
theorem referenceFailover (adv : Fin 3) : Statement (.referenceFailover adv) := fun h => absurd h Bool.false_ne_true
theorem referenceLoss : Statement (.referenceLoss) := fun h => absurd h Bool.false_ne_true
theorem thermalReading (d : Nat) (tj : Nat) : Statement (.thermalReading d tj) := fun h => absurd h Bool.false_ne_true
theorem powerAverage (watts : Nat) : Statement (.powerAverage watts) := fun h => absurd h Bool.false_ne_true
theorem powerOn : Statement (.powerOn) := fun h => absurd h Bool.false_ne_true
theorem selfTestPass (fn : DevFn) : Statement (.selfTestPass fn) := fun h => absurd h Bool.false_ne_true
theorem bootgo (words : BootWords) (go : Option (BitVec 64)) : Statement (.bootgo words go) := fun h => absurd h Bool.false_ne_true
theorem bootVerifyDone : Statement (.bootVerifyDone) := fun h => absurd h Bool.false_ne_true
theorem svcmdStartSupervisor : Statement (.svcmdStartSupervisor) := fun h => absurd h Bool.false_ne_true
theorem svcmdStartMonitor : Statement (.svcmdStartMonitor) := fun h => absurd h Bool.false_ne_true
theorem svcmdRetire : Statement (.svcmdRetire) := fun h => absurd h Bool.false_ne_true
theorem mptrootWrite (v : BitVec 64) : Statement (.mptrootWrite v) := fun h => absurd h Bool.false_ne_true
theorem pmlockWrite (v : BitVec 64) : Statement (.pmlockWrite v) := fun h => absurd h Bool.false_ne_true
theorem attcmdGo (v : BitVec 64) : Statement (.attcmdGo v) := fun h => absurd h Bool.false_ne_true
theorem attestReportDone : Statement (.attestReportDone) := fun h => absurd h Bool.false_ne_true
theorem kdataWrite (v : BitVec 64) : Statement (.kdataWrite v) := fun h => absurd h Bool.false_ne_true
theorem kcmdInstall : Statement (.kcmdInstall) := fun h => absurd h Bool.false_ne_true
theorem kcmdRandom : Statement (.kcmdRandom) := fun h => absurd h Bool.false_ne_true
theorem kcmdDone : Statement (.kcmdDone) := fun h => absurd h Bool.false_ne_true
theorem portRecovery (port : Nat) : Statement (.portRecovery port) := fun h => absurd h Bool.false_ne_true
theorem liveLaneLoss (port : Nat) (loss : LaneLoss) : Statement (.liveLaneLoss port loss) := fun h => absurd h Bool.false_ne_true

theorem copyUnread {prom : Bool} {x : XReg} (h : (prom || decide (x = 0)) = true) : (!prom && x6 x != 0#6) = false := by
  cases prom
  · simp at h; simp [h]
  · rfl

/-- The fields of a COPY word, whatever its lowest mode bit. -/
theorem copyWord (m : Marks) (q : BitVec 2) (prom cv : Bool) (rm : BitVec 3) (nanm : Bool) (ka kb : KIdx) (x : XReg)
    (h2 : (Instr.copy m q prom cv rm nanm ka kb x).ok2 = true) (h4 : (prom || decide (x = 0)) = true) :
    dCopy (splitE (eW 0x78 m ka kb 0 (x6 x) (0#1 ++ q ++ swBit nanm ++ rm ++ swBit cv ++ swBit prom ++ 0#1))) =
      .ok (.copy m q prom cv rm nanm ka kb x) := by
  rw [eW, splitE_joinE]
  have hz := copyUnread h4
  simp only [x6_ne] at hz
  simp [dCopy, hz]
  exact finish_ok _ h2 rfl h4

theorem copyBit (m : Marks) (ka kb : KIdx) (x : XReg) (p : BitVec 9) (b : BitVec 1) :
    (eW 0x78 m ka kb 0 (x6 x) (p ++ b)).extractLsb' 0 1 = b :=
  (extract_low _ _ _ _ (by decide)).trans (extract_at _ _ _ rfl)

/-- Clearing the lowest bit of a COPY word clears its mode's lowest bit. -/
theorem copyClear (m : Marks) (ka kb : KIdx) (x : XReg) (p : BitVec 9) :
    eW 0x78 m ka kb 0 (x6 x) (p ++ 1#1) &&& ~~~1#64 = eW 0x78 m ka kb 0 (x6 x) (p ++ 0#1) := by
  have key : ∀ (h : BitVec 54) (k : BitVec 10), (h ++ k : BitVec 64) &&& ~~~1#64 = h ++ (k &&& ~~~1#10) := by
    intro h k
    refine BitVec.eq_of_getLsbD_eq (fun i hi => ?_)
    have e : (h ++ k : BitVec 64).getLsbD i = if i < 10 then k.getLsbD i else h.getLsbD (i - 10) := BitVec.getLsbD_append
    have e' : (h ++ (k &&& ~~~1#10) : BitVec 64).getLsbD i = if i < 10 then (k &&& ~~~1#10).getLsbD i else h.getLsbD (i - 10) :=
      BitVec.getLsbD_append
    rw [BitVec.getLsbD_and, e, e', BitVec.getLsbD_not]
    by_cases h10 : i < 10
    · rw [if_pos h10, if_pos h10, BitVec.getLsbD_and, BitVec.getLsbD_not]
      simp only [hi, h10, BitVec.getLsbD_ofNat, decide_true, Bool.true_and]
    · rw [if_neg h10, if_neg h10]
      have : (1#64).getLsbD i = false := by
        rw [BitVec.getLsbD_ofNat, Nat.testBit_lt_two_pow (Nat.one_lt_two_pow (by omega)), Bool.and_false]
      rw [this]; simp only [Bool.not_false, Bool.and_true]
      rw [decide_eq_true (by omega : i < 64), Bool.and_true]
  refine (key _ _).trans ?_
  have : (p ++ 1#1 : BitVec 10) &&& ~~~1#10 = p ++ 0#1 := by revert p; decide
  rw [this]; rfl

theorem copy (m : Marks) (q : BitVec 2) (prom cv : Bool) (rm : BitVec 3) (nanm : Bool) (ka kb : KIdx) (x : XReg) :
    Statement (.copy m q prom cv rm nanm ka kb x) := by
  refine single rfl (fun h2 _ h4 n => ?_)
  exact (decode_copy _ n (opOf_joinE _ _) (copyBit m ka kb x _ 0#1)).trans (copyWord m q prom cv rm nanm ka kb x h2 h4)

theorem copyMmaBundle (m : Marks) (q : BitVec 2) (prom cv : Bool) (rm : BitVec 3) (nanm : Bool) (ka kb : KIdx) (x : XReg)
    (z : Bool) (ma mb mc : KIdx) : Statement (.copyMmaBundle m q prom cv rm nanm ka kb x z ma mb mc) := by
  intro hw n
  obtain ⟨h2, -, h4⟩ := wf_ok hw
  have hb := isBundle_true (eW 0x78 { gap := 0, sw := false } ka kb 0 (x6 x)
      (0#1 ++ q ++ swBit nanm ++ rm ++ swBit cv ++ swBit prom ++ 1#1)) (opOf_joinE _ _) (copyBit _ _ _ _ _ _)
  have hc : decodeWord (eW 0x78 { gap := 0, sw := false } ka kb 0 (x6 x)
      (0#1 ++ q ++ swBit nanm ++ rm ++ swBit cv ++ swBit prom ++ 0#1)) =
        .ok (.copy { gap := 0, sw := false } q prom cv rm nanm ka kb x) :=
    (decodeWord_op _ 0x78#8 (opOf_joinE _ _) (by decide)).trans
      (copyWord { gap := 0, sw := false } q prom cv rm nanm ka kb x h2 h4)
  have hm : decodeWord (eW 0x70 m ma mb mc 0 (0#9 ++ swBit z)) = .ok (.mma m z ma mb mc) := by
    refine (decodeWord_op _ 0x70#8 (opOf_joinE _ _) (by decide)).trans ?_
    change dMma (splitE (joinE _ _)) = _
    rw [splitE_joinE]
    simp [dMma]
    exact finish_ok _ rfl rfl rfl
  have ho : opOf (eW 0x70 m ma mb mc 0 (0#9 ++ swBit z)) = 0x70#8 := opOf_joinE _ _
  have hp : pair (eW 0x78 { gap := 0, sw := false } ka kb 0 (x6 x)
      (0#1 ++ q ++ swBit nanm ++ rm ++ swBit cv ++ swBit prom ++ 1#1)) (eW 0x70 m ma mb mc 0 (0#9 ++ swBit z)) =
        .ok (.copyMmaBundle m q prom cv rm nanm ka kb x z ma mb mc) := by
    have hk := copyClear { gap := 0, sw := false } ka kb x (0#1 ++ q ++ swBit nanm ++ rm ++ swBit cv ++ swBit prom)
    have hd : decodeWord (eW 0x78 { gap := 0, sw := false } ka kb 0 (x6 x)
        (0#1 ++ q ++ swBit nanm ++ rm ++ swBit cv ++ swBit prom ++ 1#1) &&& ~~~1) =
          .ok (.copy { gap := 0, sw := false } q prom cv rm nanm ka kb x) := (congrArg decodeWord hk).trans hc
    simp only [pair, hd, hm, ho]
    rfl
  exact (if_pos hb).trans hp

end Sys2Proof.Laws.RoundTrip
end

