-- ==== Sys2Proof/Laws/Place.lean ====
section
/-! SUPPORT. A placement names each glade once. -/
namespace Sys2Proof.Machine
/-- The groves a launch is placed in are distinct glades of the free ones. -/
theorem placeGroves_nodup (l k : Nat) (free gs : List Nat) (hf : free.Nodup) (h : placeGroves l k free = some gs) :
    gs.Nodup ∧ ∀ g ∈ gs, g ∈ free := by
  induction k generalizing free gs with
  | zero => simp only [placeGroves, Option.some.injEq] at h; subst h; simp
  | succ k ih =>
    simp only [placeGroves] at h
    split at h
    · cases h
    · rename_i v _
      obtain ⟨r, hr, rfl⟩ := Option.map_eq_some_iff.mp h
      obtain ⟨hn, hs⟩ := ih _ _ (hf.filter _) hr
      have hg : ((free.filter (fun g => groveOf g == v)).take l).Nodup := (hf.filter _).sublist (List.take_sublist _ _)
      refine ⟨List.nodup_append.mpr ⟨hg, hn, ?_⟩, ?_⟩
      · intro a ha b hb hab
        subst hab
        have := hs a hb
        simp only [List.mem_filter] at this
        simp_all
      · intro g hgm
        rcases List.mem_append.mp hgm with hg1 | hg2
        · exact (List.mem_filter.mp (List.mem_of_mem_take hg1)).1
        · exact (List.mem_filter.mp (hs g hg2)).1

theorem placement_nodup {c : Ctl} {p : Nat} {r : LRec} {x gs : List Nat} (h : placement c p r x = some gs) : gs.Nodup :=
  (placeGroves_nodup _ _ _ _ (List.nodup_range.filter _) h).1
end Sys2Proof.Machine
end

