-- ==== Sys2Proof/Tests/Slice0.lean ====
section
/-! SUPPORT. Tests of the model: decoding, well-formedness, single steps, and for every statement states that meet its hypotheses. -/
namespace Sys2Proof.Tests
open Sys2Proof Sys2Proof.Machine
set_option Elab.async false

/-! ## Small states -/

def m0 : Marks := ⟨0, false⟩
def m7 : Marks := ⟨7, false⟩
/-- A monitor task at 0x100. -/
def task0 : Task := mgmtTask 2 0 0x100
/-- A glade with task 0 alone in its slot. -/
def gladeOne (t : Task) : Glade := { Glade.reset with ctx := { GladeCtx.empty with tasks := [(0, t)] } }
/-- The state after reset with one glade changed. -/
def withGlade (g : Nat) (G : Glade) : State := { State.reset with ctl := { State.reset.ctl with glades := [(g, G)] } }
/-- Task `t` in slot 0 of glade 256, the current task at reset. -/
def on (t : Task) : State := withGlade 256 (gladeOne t)
def plain : State := on task0
/-- Its x registers set. -/
def regd (l : List (Nat × Word)) : Task :=
  { task0 with regs := l.foldl (fun r p => r.putX (BitVec.ofNat 5 p.1) p.2) task0.regs }
def regs (l : List (Nat × Word)) : State := on (regd l)
/-- The same state, with accesses left in their queues. -/
def deferred (s : State) : State := { s with ctl := { s.ctl with model := { s.ctl.model with defer := true } } }
/-- Bytes of the scratchpad of glade 256, no byte 0. -/
def scrBytes (off : Nat) (l : List Byte) (s : State) : State :=
  { s with mem := (List.range l.length).map (fun k => (scrAt 256 (off + k), l.getD k 0)) }
def inFlight (store fe : Bool) : Out :=
  { id := 5, store := store, atom := false, lvl := 0, left := 1, stage := 0, bad := none, dest := .x 3, gap := 0
    pc := 0x100, fe := fe, sp := .dev }
def withOuts (l : List Out) (t : Task) : Task := { t with fl := { t.fl with outs := l } }
def withSys (f : Sys → Sys) (t : Task) : Task := { t with sys := f t.sys }
def withCtx (f : GladeCtx → GladeCtx) (t : Task) : State :=
  withGlade 256 { gladeOne t with ctx := f (gladeOne t).ctx }

/-- No task of such a state sleeps on a barrier (R208), nor on anything else. -/
theorem awake (x : GladeCtx → GladeCtx) (T : Task) (hx : (x (gladeOne T).ctx).tasks = [(0, T)]) (h : ∀ z, T.run ≠ .sleeping z)
    (a n g k : Nat) : barSleeper ((withCtx x T).taskAt g k) a n = false := by
  have hg : ((withCtx x T).gladeAt g).ctx.tasks = if g = 256 then [(0, T)] else [] := by
    by_cases h1 : g = 256
    · subst h1; rw [if_pos rfl]; exact hx
    · rw [if_neg h1]
      simp [State.gladeAt, gladeOf, withCtx, withGlade, Tab.getD, Tab.find, Ne.symm h1, Glade.reset]
      rfl
  have ht : (withCtx x T).taskAt g k = T ∨ (withCtx x T).taskAt g k = Task.none := by
    show Tab.getD ((withCtx x T).gladeAt g).ctx.tasks k Task.none = T ∨ Tab.getD ((withCtx x T).gladeAt g).ctx.tasks k Task.none = Task.none
    rw [hg]
    by_cases h1 : g = 256
    · by_cases h2 : k = 0
      · left; simp [h1, h2, Tab.getD, Tab.find]
      · right; simp [h1, Ne.symm h2, Tab.getD, Tab.find]
    · right; rw [if_neg h1]; rfl
  rcases ht with e | e
  · rw [e]; unfold barSleeper; split <;> rename_i q
    · exact absurd q (h _)
    · rfl
  · rw [e]; rfl
theorem unshared (s : State) (h : s.task.fl.behind = []) : s.Unshared := fun _ hi => absurd (h ▸ hi) List.not_mem_nil
theorem plain_quiet : plain.Quiet := ⟨rfl, rfl, rfl, rfl⟩
theorem plain_clear : plain.Clear := ⟨rfl, rfl, rfl, rfl, rfl, rfl, rfl, rfl, by decide⟩

/-! ## Reset -/

theorem test_reset_mem : State.reset.mem = [] := by decide
theorem test_reset_tick : State.reset.ctl.tick = 0 := by decide
/-- R353: NEXT is 1 and QUANTUM 500,000 in every partition. -/
theorem test_reset_next : (State.reset.part 31).sched.next = 1 ∧ (State.reset.part 0).sched.quantum = 500000 := by decide

/-! ## Decoding: words the spec writes out, or built field by field from its encodings -/

/-- R108: ADDI x7, x3, -5. -/
theorem test_decode_addi : decode 0x1101C300FFFFFFFB 0 = .ok (.addi m0 7 3 0xFFFFFFFB) := by decide
/-- R106: SUB x3, x1, x2 with GAP 1. -/
theorem test_decode_sub : decode 0x1020C10800100000 0 = .ok (.sub ⟨1, false⟩ 3 1 2) := by decide
/-- R106, R111: SUB x8, x3, x1 and MOVI x1, 5. -/
theorem test_decode_alu : decode 0x10E2030400100000 0 = .ok (.sub m7 8 3 1) ∧
    decode 0x1420400000000005 0 = .ok (.movi ⟨1, false⟩ 1 5) := by decide
/-- R105: NOP. -/
theorem test_decode_nop : decode 0x0100000000000000 0 = .ok (.nop m0 0) := by decide
/-- R115: BNE x5, x0, -3, predicted. -/
theorem test_decode_bne : decode 0x20114010FFFFFFFD 0 = .ok (.bne ⟨0, true⟩ 5 0 0xFFFFFFFD) := by decide
/-- R125: LD.D of the fleeting store, acquiring. -/
theorem test_decode_ld : decode 0x300242F040000040 0 = .ok (.ldD m0 9 2 .flt 0 .acq 64) := by decide
/-- R143: VFMA, and the unassigned FN 0xA0. -/
theorem test_decode_vfma : decode 0x5208E18A48000000 0 = .ok (.vfma m0 .f .rne 3 1 2 4) := by decide
/-- R149: a segmented scan. -/
theorem test_decode_vscan : decode 0x5609238804000000 0 = .ok (.vscan m0 .i32 .add 4 3 (some 2)) := by decide
/-- R175: MMA.Z. -/
theorem test_decode_mma : decode 0x7000100110080001 0 = .ok (.mma m0 true 0x010 0x011 0x008) := by decide
/-- R200: AMO.ADD.D. -/
theorem test_decode_amo : decode 0x4001461C04330000 0 = .ok (.amoAdd m0 true 5 6 7 .scr 0 .acqrel) := by decide
/-- R211: FCLAIM and FRENEW. -/
theorem test_decode_tile : decode 0x3601430000200000 0 = .ok (.fclaim m0 5 3) ∧
    decode 0x36E4C20000000000 0 = .ok (.frenew m7 19 2) := by decide
/-- R217: EXIT. -/
theorem test_decode_exit : decode 0x95E0000000000000 0 = .ok (.exit m7) := by decide
/-- R221: STRM.MS. -/
theorem test_decode_strm : decode 0x8BE0070000003406 0 = .ok (.strmMs m7 true 0 0x007 13) := by decide
/-- R223: SENDVC. -/
theorem test_decode_sendvc : decode 0x8DE0010000200000 0 = .ok (.sendvc m7 2 0 1) ∧
    decode 0x8DE0000008200000 0 = .ok (.sendvc m7 2 4 0) := by decide
/-- R225: SPRR x5, TICK. -/
theorem test_decode_sprr : decode 0xA201400400000000 0 = .ok (.sprr m0 5 0x040) := by decide
/-- R229: LEASE.REVOKE and INVPG. -/
theorem test_decode_lease : decode 0xA6014A2C00100000 0 = .ok (.leaseRevoke m0 5 10 11) ∧
    decode 0xA7E00A2C00100000 0 = .ok (.invpg m7 10 11 true) := by decide
/-- R395, R396: PCTR.SEL and HIST.ARM. -/
theorem test_decode_monitors : decode 0xABE0031000100000 0 = .ok (.pctrSel m7 3 4) ∧
    decode 0xACE0051870100000 0 = .ok (.histArm m7 5 6 7) := by decide
/-- R431: RETIRE.BEGIN. -/
theorem test_decode_retire : decode 0xA801460000000000 0 = .ok (.retireBegin m0 5 6) := by decide
/-- R93: an opcode with no instruction, and an unassigned FN. -/
theorem test_decode_illegal : (decode 0xFF00000000000000 0).toOption = none ∧ (decode 0x5208E18A4A000000 0).toOption = none := by
  decide

/-! ## WellFormed: one ill-formed term for each check -/

theorem test_illformed_value : (Instr.loop m0 3 0).ok2 = false ∧ (Instr.loop m0 3 0).wf = false := by decide
theorem test_illformed_spr : (Instr.sprr m0 3 0x001).ok3 = false ∧ (Instr.sprr m0 3 0x001).wf = false := by decide
theorem test_illformed_unread : (Instr.shli m0 1 2 64).ok4 = false ∧ (Instr.shli m0 1 2 64).wf = false := by decide
theorem test_illformed_event : Instr.tick.core = false ∧ Instr.tick.wf = false := by decide
theorem test_wellformed : (Instr.shli m0 1 2 63).wf = true ∧ (Instr.sprr m0 3 0x040).wf = true := by decide


/-! ## Every statement's hypotheses are met: scalar and vector instructions -/

theorem witness_ScalarFrame : ∃ t, intoX (.add m0 1 2 3) = some (m0, 1) ∧ exec (.add m0 1 2 3) plain = .next t := ⟨_, rfl, rfl⟩
theorem witness_VectorAndControlFrame : (∃ t, intoV (.vadd m0 .w 1 2 3) = some (m0, 1) ∧ exec (.vadd m0 .w 1 2 3) plain = .next t) ∧
    (∃ t, controlOnly (.bfe m0 1) = true ∧ exec (.bfe m0 1) plain = .next t) := ⟨⟨_, rfl, rfl⟩, ⟨_, rfl, rfl⟩⟩
theorem witness_settled : plain.Settled := rfl
/-- Each ground on which an IALU, IALUI, IBIT, MOVI, MOVIH, LEA, branch or JR word is refused, at its boundary. -/
theorem witness_IntegerOperations : plain.Settled ∧
    ([0x1000000001200000#64, 0x1000000010000000, 0x1008000000000000, 0x1000200000000000, 0x1000008000000000].all (fun w =>
      let f := fun (lo k : Nat) => (w.extractLsb' lo k).toNat
      decide (opOf w = 0x10 ∧ (0x12 ≤ f 20 8 ∨ f 28 6 ≠ 0 ∨ 32 ≤ f 46 6 ∨ 32 ≤ f 40 6 ∨ 32 ≤ f 34 6))) = true) ∧
    ([0x1100001200000000#64, 0x1108000000000000, 0x1100200000000000, 0x1100000500000040, 0x1100000900000040].all (fun w =>
      let f := fun (lo k : Nat) => (w.extractLsb' lo k).toNat
      decide (opOf w = 0x11 ∧ (0x12 ≤ f 32 8 ∨ 32 ≤ f 46 6 ∨ 32 ≤ f 40 6 ∨ (5 ≤ f 32 8 ∧ f 32 8 ≤ 9 ∧ 64 ≤ f 0 32)))) = true) := ⟨rfl, by decide +kernel⟩
theorem witness_MultiplyDivide : plain.Settled ∧ plain.x 2 = 0 ∧ (regs [(2, 3)]).Settled ∧ (regs [(2, 3)]).x 2 ≠ 0 := by
  refine ⟨rfl, ?_, rfl, ?_⟩ <;> decide +kernel
theorem witness_BitOperations : plain.Settled ∧
    ([0x1300000000A00000#64, 0x1300000400000000, 0x1300000010000000, 0x1308000000000000, 0x1300200000000000].all (fun w =>
      let f := fun (lo k : Nat) => (w.extractLsb' lo k).toNat
      decide (opOf w = 0x13 ∧ (0x0A ≤ f 20 8 ∨ f 34 6 ≠ 0 ∨ f 28 6 ≠ 0 ∨ 32 ≤ f 46 6 ∨ 32 ≤ f 40 6))) = true) := ⟨rfl, by decide +kernel⟩
theorem witness_ConstantsAndAddresses : plain.Settled ∧ (1 : XReg) ≠ 0 ∧
    ([0x1400000100000000#64, 0x1400010000000000, 0x1408000000000000].all (fun w =>
      let f := fun (lo k : Nat) => (w.extractLsb' lo k).toNat
      decide (opOf w = 0x14 ∧ (f 32 8 ≠ 0 ∨ f 40 6 ≠ 0 ∨ 32 ≤ f 46 6))) = true) ∧
    ([0x1500000100000000#64, 0x1500200000000000, 0x1508000000000000].all (fun w =>
      let f := fun (lo k : Nat) => (w.extractLsb' lo k).toNat
      decide (opOf w = 0x15 ∧ (f 32 8 ≠ 0 ∨ 32 ≤ f 40 6 ∨ 32 ≤ f 46 6))) = true) ∧
    ([0x1600000000400000#64, 0x1600000001100000, 0x1600000010000000, 0x1608000000000000, 0x1600200000000000, 0x1600008000000000].all (fun w =>
      let f := fun (lo k : Nat) => (w.extractLsb' lo k).toNat
      decide (opOf w = 0x16 ∧ ((4 ≤ f 20 8 ∧ f 20 8 ≠ 0x10) ∨ f 28 6 ≠ 0 ∨ 32 ≤ f 46 6 ∨ 32 ≤ f 40 6 ∨ 32 ≤ f 34 6))) = true) := ⟨rfl, by decide +kernel⟩
def looped (l : List Word) : State := on { regd [(1, 2)] with regs := { (regd [(1, 2)]).regs with loops := l } }
theorem witness_BranchesAndLoops : plain.Settled ∧ fePending plain.task = false ∧
    fePending (on (withOuts [inFlight false true] task0)).task = true ∧
    ((looped [1, 1, 1, 1]).Settled ∧ 4 ≤ (looped [1, 1, 1, 1]).regs.loops.length) ∧
    ((looped [1, 1, 1]).Settled ∧ (looped [1, 1, 1]).regs.loops.length < 4 ∧ (looped [1, 1, 1]).x 2 = 0 ∧ (looped [1, 1, 1]).x 1 ≠ 0) ∧
    (looped []).regs.loops = [] ∧ (looped [1]).regs.loops = [1] ∧ (1 : Word).toNat ≤ 1 ∧ (looped [2]).regs.loops = [2] ∧
    1 < (2 : Word).toNat := by
  refine ⟨rfl, ?_, ?_, ⟨rfl, ?_⟩, ⟨rfl, ?_, ?_, ?_⟩, ?_⟩ <;> decide +kernel
theorem witness_branch_words :
    ([0x2000008000000000#64, 0x2008000000000000, 0x2000200000000000, 0x2000406000000000, 0x2000017000000000].all (fun w =>
      let f := fun (lo k : Nat) => (w.extractLsb' lo k).toNat
      decide (opOf w = 0x20 ∧ (8 ≤ f 36 4 ∨ 32 ≤ f 46 6 ∨ 32 ≤ f 40 6 ∨ (6 ≤ f 36 4 ∧ (f 46 6 ≠ 0 ∨ f 40 6 ≠ 0))))) = true) ∧
    ([0x2100400000000000#64, 0x2200010000000000, 0x2500001000000000].all (fun w =>
      let f := fun (lo k : Nat) => (w.extractLsb' lo k).toNat
      decide ((opOf w = 0x21 ∨ opOf w = 0x22 ∨ opOf w = 0x25) ∧ (f 46 6 ≠ 0 ∨ f 40 6 ≠ 0 ∨ f 36 4 ≠ 0))) = true) ∧
    ([0x2400010000000001#64, 0x2400001000000001, 0x2408000000000001, 0x2400000000000000, 0x24000000FFFFFFFF].all (fun w =>
      let f := fun (lo k : Nat) => (w.extractLsb' lo k).toNat
      decide (opOf w = 0x24 ∧ (f 40 6 ≠ 0 ∨ f 36 4 ≠ 0 ∨ 32 ≤ f 46 6 ∨ (w.extractLsb' 0 32).toInt ≤ 0))) = true) ∧
    opOf 0x2500000000000001#64 = 0x25 ∧ 1 ≤ ((0x2500000000000001#64).extractLsb' 0 32).toInt := by decide +kernel
theorem witness_JumpRegister : ((regs [(1, 0x10)]).Settled ∧ ((regs [(1, 0x10)]).x 1 + BitVec.ofInt 64 (8 * (3 : BitVec 32).toInt)).toNat % 8 = 0) ∧
    ((regs [(1, 0x14)]).Settled ∧ ((regs [(1, 0x14)]).x 1 + BitVec.ofInt 64 (8 * (3 : BitVec 32).toInt)).toNat % 8 ≠ 0) ∧
    ([0x2300010000000000#64, 0x2300001000000000, 0x2308000000000000].all (fun w =>
      let f := fun (lo k : Nat) => (w.extractLsb' lo k).toNat
      decide (opOf w = 0x23 ∧ (f 40 6 ≠ 0 ∨ f 36 4 ≠ 0 ∨ 32 ≤ f 46 6))) = true) := by
  refine ⟨⟨rfl, ?_⟩, ⟨rfl, ?_⟩, ?_⟩ <;> decide +kernel
theorem witness_VectorInteger : plain.Settled ∧ 0 < 2048 / laneBits .w := ⟨rfl, by decide +kernel⟩
theorem witness_VectorFloat : plain.Settled ∧ e2m1 ∈ [e4m3, e5m2, e2m1, bf16, fp32, fp64] ∧ (0 : Nat) = 0 ∧ 0 < 3 := by
  refine ⟨rfl, ?_⟩; decide
/-- v1: lanes +0, -0, 1, an infinity of either sign, a NaN. -/
def lanesTask : Task := { task0 with regs := task0.regs.putV 1 (ofLanes 32 [0, 0x80000000, 0x3F800000, 0x7F800000, 0xFF800000, 0x7FC00001]) }
theorem witness_VectorFunctionsAndConversions : (on lanesTask).Settled ∧
    (let A := fun i => lane 32 ((on lanesTask).v 1) i
     A 0 = 0 ∧ A 1 = 0x80000000 ∧ A 2 = 0x3F800000 ∧ A 3 = 0x7F800000 ∧ A 4 = 0xFF800000 ∧ (fp32.val (A 5)).isNan = true) ∧
    Rnd.rne ≠ .sr ∧ (cvPair 0).2.bits < (cvPair 0).1.bits ∧ (cvPair 1).1.bits < (cvPair 1).2.bits := by
  refine ⟨rfl, ?_⟩; decide +kernel
theorem witness_LanesAndReductions : plain.Settled ∧ tyFmt .i32 = none ∧ (tyFmt .f ≠ none → ROp.max = .add ∨ ROp.max = .min ∨ ROp.max = .max) ∧ (none : Option VReg) = none ∧ laneBits .w = 32 := by
  refine ⟨rfl, ?_⟩; decide +kernel


/-! ## Memory, synchronisation -/

theorem witness_AccessTraps : let s := regs [(1, 1), (2, 0x180000), (3, 0x400000), (4, 0x101)]
    s.Settled ∧ ((s.x 1 + (0 : BitVec 30).signExtend 64).toNat % 2 ≠ 0) ∧
    ((s.x 2 + (0 : BitVec 30).signExtend 64).toNat % 8 = 0 ∧ 0x180000 ≤ (s.x 2 + (0 : BitVec 30).signExtend 64).toNat) ∧
    ((s.x 3 + (0 : BitVec 30).signExtend 64).toNat % 8 = 0 ∧ 0x400000 ≤ (s.x 3 + (0 : BitVec 30).signExtend 64).toNat) ∧
    (s.x 4).toNat % 4 ≠ 0 ∧ (s.x 1 + s.x 0).toNat % (if Space.scr = .dev then 256 else 4) ≠ 0 ∧
    (s.x 4 + s.x 0).toNat % (if Space.dev = .dev then 256 else 4) ≠ 0 := by
  refine ⟨rfl, ?_⟩; decide +kernel
/-- The last dword of the scratchpad, and a dword of the device. -/
def loadsAt (a : Word) : State := deferred (regs [(1, a), (2, 5), (3, 7)])
theorem witness_Loads_issued : ∀ p ∈ [(Space.scr, 0x17FFF8#64), (.dev, 0x1000)], ∃ x,
    (loadsAt p.2).place p.1 p.2 8 8 .read = .ok x ∧ (loadsAt p.2).Settled ∧ (loadsAt p.2).x 1 + (0 : BitVec 30).signExtend 64 = p.2 ∧
    ((loadsAt p.2).looked p.1 p.2 8 8 .read).task.fl.sq = [] ∧ ((loadsAt p.2).looked p.1 p.2 8 8 .read).Unshared ∧
    mayIssue (Work.start ((loadsAt p.2).looked p.1 p.2 8 8 .read)) 0 [((loadsAt p.2).looked p.1 p.2 8 8 .read).request p.1 p.2 x (.read 8)] = true ∧
    ((loadsAt p.2).looked p.1 p.2 8 8 .read).ctl.model.defer = true := by
  intro p h
  fin_cases h
  · exact ⟨_, rfl, rfl, by decide +kernel, rfl, unshared _ rfl, by decide +kernel, rfl⟩
  · exact ⟨_, rfl, rfl, by decide +kernel, rfl, unshared _ rfl, by decide +kernel, rfl⟩
/-- Tile 1 of the fleeting store is live, tile 0 expired. -/
def tiled (l : List (Nat × Word)) : State := withCtx (fun x => { x with births := [(1, 0)] }) (regd l)
theorem witness_Loads_done : let s := tiled [(1, 0x17FFF8), (2, 0x1FF8)]
    s.Quiet ∧ s.Clear ∧ (s.x 1 + (0 : BitVec 30).signExtend 64).toNat % 8 = 0 ∧ (s.x 1 + (0 : BitVec 30).signExtend 64).toNat < 0x180000 ∧
    (s.x 2 + (0 : BitVec 30).signExtend 64).toNat < 0x400000 ∧ expired s.ctl s.g (0x1FF8 / 4096) = false ∧
    expired s.ctl s.g ((s.x 0 + (0 : BitVec 30).signExtend 64).toNat / 4096) = true := by
  refine ⟨⟨rfl, rfl, rfl, rfl⟩, ⟨rfl, rfl, rfl, rfl, rfl, rfl, rfl, rfl, by decide⟩, ?_⟩; decide +kernel
theorem witness_Stores_entered : let s := loadsAt 0x17FFF8; let ea := s.x 1 + (0 : BitVec 30).signExtend 64
    ∃ x, s.place .scr ea 8 8 .write = .ok x ∧ s.Settled ∧ (s.looked .scr ea 8 8 .write).Settled ∧
    (let s1 := s.looked .scr ea 8 8 .write
     mayIssue (Work.start s1) 1 [s1.request .scr ea x (.write (natLe 8 (s1.x 2).toNat))] = true) := ⟨_, rfl, rfl, rfl, by decide +kernel⟩
/-- One store of 4 bytes to scratchpad offset 0x17FFFC in SQ(t). -/
def storeReq : Req :=
  { id := 7, g := 256, t := 0, sp := .scr, addr := scrAt 256 0x17FFFC, va := 0x17FFFC, acc := .write [1, 2, 3, 4], lane := 0, part := 0
    launch := 0, ext := none, key := 0, svc := true, stack := 0, born := 0, heldAt := 0 }
def storeOutOf : Out := { inFlight true false with id := 7, dest := .none, sp := .scr }
def storing (wait : List Nat) : State :=
  on { task0 with fl := { Flight.empty with sq := [{ id := 7, reqs := [storeReq], waitFor := wait, scope := 0 }], outs := [storeOutOf, inFlight false false] } }
theorem witness_Stores_drain : (∃ e rest, ((storing []).taskAt 256 0).fl.sq = e :: rest ∧ e.reqs = [storeReq] ∧ e.waitFor = [] ∧ rest = []) ∧
    (∀ o ∈ ((storing []).taskAt 256 0).fl.outs, o.id = storeReq.id → o.store = true ∧ o.atom = false ∧ o.dest = .none ∧ o.bad = none) ∧
    drainReady (storing []).ctl ((storing []).taskAt 256 0) = true ∧ OwnStore 256 0 storeReq 0x17FFFC [1, 2, 3, 4] ∧
    (let d := deferred (storing [])
     d.ctl.model.defer = true ∧ drainReady d.ctl (d.taskAt 256 0) = true) ∧
    drainReady (storing [5]).ctl ((storing [5]).taskAt 256 0) = false ∧
    (storing []).g = 256 ∧ (storing []).t = 0 ∧ (storing []).Clear ∧ storeReq.addr = scrAt 256 0x17FFFC ∧
    0x17FFFC % 4 = 0 ∧ (storing []).mem.wf = true ∧ storeReq.whole = 0 ∧ storeReq.acc = .write [1, 2, 3, 4] ∧
    barSleeper ((storing []).taskAt 256 0) (scrAt 256 0x17FFFC) 4 = false := by
  refine ⟨⟨_, _, rfl, rfl, rfl, rfl⟩, ?_, by decide +kernel, ⟨⟨rfl, rfl⟩, rfl, rfl, rfl, rfl, by decide, by decide, by decide⟩, ⟨rfl, by decide +kernel⟩,
    by decide +kernel, rfl, rfl, ⟨rfl, rfl, rfl, rfl, rfl, rfl, rfl, rfl, by decide⟩, rfl, rfl, rfl,
    rfl, rfl, rfl⟩
  decide +kernel
/-- A second task of the glade, asleep on the barrier word at 0x17FFFC in phase 0. -/
def sleeper : Task := { task0 with run := .sleeping (.bar (scrAt 256 0x17FFFC) 0 4) }
def beside (s : State) : State :=
  { s with ctl := { s.ctl with glades := s.ctl.glades.map (fun p => (p.1, { p.2 with ctx := { p.2.ctx with tasks := p.2.ctx.tasks ++ [(1, sleeper)] } })) } }
theorem witness_Stores_drain_wakes : let s := beside (storing [])
    (∃ e, (s.taskAt 256 0).fl.sq = [e] ∧ e.reqs = [storeReq] ∧ e.waitFor = []) ∧ s.g = 256 ∧ s.t = 0 ∧ s.Clear ∧
    (∀ o ∈ (s.taskAt 256 0).fl.outs, o.id = storeReq.id → o.store = true ∧ o.atom = false ∧ o.dest = .none ∧ o.bad = none) ∧ s.mem.wf = true ∧
    barSleeper (s.taskAt 256 0) (scrAt 256 0x17FFFC) 4 = false ∧
    (s.taskAt 256 1).run = .sleeping (.bar (scrAt 256 0x17FFFC) 0 4) ∧ leNat [(1 : Byte), 2, 3, 4] / 2 ^ 26 % 16 ≠ 0 := by
  refine ⟨⟨_, rfl, rfl, rfl⟩, rfl, rfl, ⟨rfl, rfl, rfl, rfl, rfl, rfl, rfl, rfl, by decide⟩, ?_, rfl, rfl, rfl, ?_⟩ <;> decide +kernel
theorem witness_VectorLoadsAndStores : let s := loadsAt 0x17FF00; let ea := s.x 1 + s.x 0
    s.Settled ∧ s.t < 16 ∧ (∃ x, s.place .scr ea 256 4 .read = .ok x ∧ (s.looked .scr ea 256 4 .read).task.fl.sq = [] ∧
      (s.looked .scr ea 256 4 .read).Unshared ∧
      (let s1 := s.looked .scr ea 256 4 .read
       mayIssue (Work.start s1) 0 (loadPieces (Work.start s1) s1.ctl.model.nextId .scr ea.toNat x 256 4 .none) = true ∧ s1.ctl.model.defer = true)) ∧
    (∃ x, s.place .scr ea 256 4 .write = .ok x ∧ (s.looked .scr ea 256 4 .write).Settled ∧
      (let s2 := s.looked .scr ea 256 4 .write
       mayIssue (Work.start s2) 1 (storePieces (Work.start s2) s2.ctl.model.nextId .scr ea.toNat x (natLe 256 (s2.v 1).toNat) (vecStep .scr)) = true)) := by
  refine ⟨rfl, by decide, ⟨_, rfl, rfl, unshared _ rfl, ?_⟩, ⟨_, rfl, rfl, ?_⟩⟩ <;> decide +kernel
theorem witness_VectorLoads_done : let s := tiled [(1, 0x17FF00), (2, 0x1F00)]
    s.Quiet ∧ s.Clear ∧ (s.x 1 + s.x 0).toNat % 4 = 0 ∧ (s.x 1 + s.x 0).toNat + 256 ≤ 0x180000 ∧ (s.x 2 + s.x 0).toNat + 256 ≤ 0x400000 ∧
    expired s.ctl s.g ((s.x 2 + s.x 0).toNat / 4096) = false ∧ expired s.ctl s.g (((s.x 2 + s.x 0).toNat + 255) / 4096) = false := by
  refine ⟨⟨rfl, rfl, rfl, rfl⟩, ⟨rfl, rfl, rfl, rfl, rfl, rfl, rfl, rfl, by decide⟩, ?_⟩; decide +kernel
/-- Lane 0 of v1 at the last word of the scratchpad, the other lanes off; v2 has every lane off. -/
def gathering : State := deferred (on { regd [(1, 0x100000)] with regs :=
  ((regd [(1, 0x100000)]).regs.putV 1 (ofLanes 32 (0x7FFFC :: List.replicate 63 0xFFFFFFFF))).putV 2 (BitVec.allOnes 2048) })
set_option maxRecDepth 8000 in
set_option exponentiation.threshold 2048 in
theorem witness_GatherScatter : let s := gathering; let l := s.lanesOn 1 1
    s.Settled ∧ s.lanesOn 1 2 = [] ∧ s.Unshared ∧ guardsOpen s.task 0 = true ∧ l = [(0, 0x17FFFC)] ∧
    (∃ ls, s.placeLanes .scr 4 .read l = .ok ls ∧ ls.length = 1 ∧
      (let s1 := s.lookedLanes .scr 4 .read l
       s1.task.fl.sq = [] ∧ s1.Unshared ∧ s1.ctl.model.defer = true ∧ mayIssue (Work.start s1) 0 (ls.map (fun l =>
         mkReq (Work.start s1) s1.ctl.model.nextId .scr l.2.1.toNat l.2.2 (.read 4) (32 * l.1))) = true)) ∧
    (∃ ls, s.placeLanes .scr 4 .write l = .ok ls ∧ ls.length = 1 ∧
      (let s2 := s.lookedLanes .scr 4 .write l
       s2.Settled ∧ mayIssue (Work.start s2) 1 ((List.range ls.length).zip ls |>.map (fun p => mkReq (Work.start s2)
         (s2.ctl.model.nextId + p.1) .scr p.2.2.1.toNat p.2.2.2 (.write (natLe 4 (lane 32 (s2.v 1) p.2.1))) 0)) = true)) ∧
    (∃ p, (on { regd [(1, 0x100001)] with regs := gathering.regs.putX 1 0x100001 }).lanesOn 1 1 = [p] ∧ p.2.toNat % 4 ≠ 0) := by
  refine ⟨rfl, by decide +kernel, unshared _ rfl, rfl, by decide +kernel, ⟨_, rfl, rfl, by decide +kernel, unshared _ (by decide +kernel), by decide +kernel, by decide +kernel⟩,
    ⟨_, rfl, rfl, by unfold State.Settled; decide +kernel, by decide +kernel⟩, ⟨(0, 0x17FFFD), ?_⟩⟩; decide +kernel
/-- The same offset, from the scratchpad's last word and from tiles of the fleeting store that are live and expired. -/
def gatherTask (a : Word) : Task :=
  { regd [(1, a)] with regs := (regd [(1, a)]).regs.putV 1 (ofLanes 32 (0x7FFFC :: List.replicate 63 0xFFFFFFFF)) }
def gatherNow (a : Word) : State := withCtx (fun x => { x with births := [(0x380, 0)] }) (gatherTask a)
theorem witness_GatherNow : ∀ p ∈ [(gatherNow 0x100000, 0x17FFFC#64), (gatherNow 0x301000, 0x380FFC), (gatherNow 0x302000, 0x381FFC)],
    p.1.Quiet ∧ p.1.Clear ∧ p.1.lanesOn 1 1 = [(0, p.2)] ∧ p.2.toNat % 4 = 0 ∧ p.2.toNat < 0x400000 ∧
    (p.2.toNat < 0x180000 ∨ expired p.1.ctl p.1.g (p.2.toNat / 4096) = decide (p.2 = 0x381FFC)) := by
  intro p h
  fin_cases h <;>
    exact ⟨⟨rfl, rfl, rfl, rfl⟩, ⟨rfl, rfl, rfl, rfl, rfl, rfl, rfl, rfl, by decide⟩, by decide +kernel, by decide, by decide, by decide +kernel⟩
theorem witness_Atomics_issued : let s := loadsAt 0x17FFF8
    s.Settled ∧ (9, Instr.amoCas m0 true 4 1 2 3 .scr 0 .acqrel) ∈ atomics m0 true 4 1 2 3 .scr 0 .acqrel ∧
    ∃ x, s.place .scr (s.x 1) 8 8 .both = .ok x ∧ (s.looked .scr (s.x 1) 8 8 .both).Quiet ∧
    (let s1 := s.looked .scr (s.x 1) 8 8 .both
     mayIssue (Work.start s1) 2 [s1.request .scr (s.x 1) x (.amo 9 8 ((s1.x 2).toNat % 2 ^ 64) ((s1.x 3).toNat % 2 ^ 64))] = true ∧
     s1.ctl.model.defer = true) := by
  refine ⟨rfl, ?_, _, rfl, ⟨rfl, rfl, rfl, rfl⟩, ?_⟩ <;> decide +kernel
/-- A release behind a load in flight. -/
theorem witness_Atomics_waits : let s := on (withOuts [inFlight false false] (regd [(1, 0x17FFF8)]))
    s.Settled ∧ (∃ x, s.place .scr (s.x 1) 8 8 .both = .ok x) ∧ isRel .acqrel = true ∧
    ∃ o ∈ (s.looked .scr (s.x 1) 8 8 .both).task.fl.outs, performedAt (s.looked .scr (s.x 1) 8 8 .both).task 7 o.id = false := by
  refine ⟨rfl, ⟨_, rfl⟩, rfl, ?_⟩; decide +kernel
theorem witness_Atomics_done : let s := regs [(1, 0x17FFFC), (2, 5)]
    s.Quiet ∧ s.Clear ∧ s.mem.wf = true ∧ (10, Instr.amoFadd m0 4 1 2 .scr 0 .acqrel) ∈ atomics m0 false 4 1 2 3 .scr 0 .acqrel ∧
    (s.x 1).toNat % 4 = 0 ∧ (s.x 1).toNat < 0x180000 ∧ s.NoBarSleeper (scrAt s.g (s.x 1).toNat) 4 := by
  refine ⟨⟨rfl, rfl, rfl, rfl⟩, ⟨rfl, rfl, rfl, rfl, rfl, rfl, rfl, rfl, by decide⟩, rfl, by decide, by decide, by decide,
    awake id _ rfl (by intro z h; cases h) _ _⟩
/-- At 0x17FFFC stands 0: x3 differs, x0 does not; x2 is a deadline. -/
def monitoring : State := regs [(1, 0x17FFFC), (2, 1), (3, 1)]
theorem witness_MonitorsAndWakes : let s := monitoring
    s.Quiet ∧ s.Clear ∧ (s.x 1).toNat % 4 = 0 ∧ (s.x 1).toNat < 0x180000 ∧ leNat (s.scr 0x17FFFC 4) ≠ (s.x 3).toNat % 2 ^ 32 ∧
    leNat (s.scr 0x17FFFC 4) = (s.x 0).toNat % 2 ^ 32 ∧ (2 : XReg) ≠ 0 ∧ s.ctl.tick < (s.x 2).toNat ∧
    (let u := { s with ctl := { s.ctl with tick := 1 } }
     (u.x 2).toNat ≤ u.ctl.tick ∧ leNat (u.scr 0x17FFFC 4) = (u.x 0).toNat % 2 ^ 32) := by
  refine ⟨⟨rfl, rfl, rfl, rfl⟩, ⟨rfl, rfl, rfl, rfl, rfl, rfl, rfl, rfl, by decide⟩, ?_⟩; decide +kernel
theorem witness_wakes : (∀ dl ∈ [0, 1], ((on { task0 with run := .sleeping (.waitmon 0x100 4 (some dl) 3 0x100) }).taskAt 256 0).run = .sleeping (.waitmon 0x100 4 (some dl) 3 0x100)) ∧
    0 ≤ plain.ctl.tick ∧ plain.ctl.tick < 1 ∧
    (∀ dl ∈ [0, 1], ((on { task0 with run := .sleeping (.sleepuntil dl false) }).taskAt 256 0).run = .sleeping (.sleepuntil dl false)) ∧
    promiseBroken ((on { task0 with run := .sleeping (.sleepuntil 0 false) }).taskAt 256 0) 0 = false ∧
    (∃ p ∈ [scrAt 256 0x100], p ∈ unitsOf (scrAt 256 0x100) 4) := by
  refine ⟨?_, ?_, ?_, ?_, rfl, by decide +kernel⟩
  · intro dl h; rfl
  · decide
  · decide
  · intro dl h; rfl
/-- A barrier word at 0x17FFFC: `p` parties, `a` arrived, and the task's membership. -/
def barrier (v : List Byte) (l : List BarEntry) : State :=
  scrBytes 0x17FFFC v (on { regd [(1, 0x17FFFC), (2, 2 ^ 26)] with fl := { Flight.empty with bars := l } })
def barMember (arrived : Bool) : BarEntry := { addr := scrAt 256 0x17FFFC, sp := .scr, va := 0x17FFFC, arrived := arrived, phase := 0 }
theorem witness_Barriers_members : let s := barrier [2] [barMember false]; let n := barrier [2] []
    (s.Quiet ∧ s.Clear ∧ s.mem.wf = true ∧ (s.x 1).toNat % 4 = 0 ∧ (s.x 1).toNat < 0x180000 ∧
      s.task.fl.bars.any (fun e => e.addr == scrAt s.g (s.x 1).toNat) = true ∧
      s.task.fl.bars.find? (fun e => e.addr == scrAt s.g (s.x 1).toNat) = some (barMember false) ∧ s.task.run = .runnable) ∧
    (n.Quiet ∧ n.Clear ∧ n.mem.wf = true ∧ n.task.fl.bars.any (fun e => e.addr == scrAt n.g (n.x 1).toNat) = false ∧
      n.task.fl.bars.length < 8 ∧ leNat (n.scr 0x17FFFC 4) % 2 ^ 13 < 8191) ∧
    leNat ((barrier [0xFF, 0x1F] []).scr 0x17FFFC 4) % 2 ^ 13 = 8191 := by
  refine ⟨⟨⟨rfl, rfl, rfl, rfl⟩, ⟨rfl, rfl, rfl, rfl, rfl, rfl, rfl, rfl, by decide⟩, ?_⟩,
    ⟨⟨rfl, rfl, rfl, rfl⟩, ⟨rfl, rfl, rfl, rfl, rfl, rfl, rfl, rfl, by decide⟩, ?_⟩, ?_⟩ <;> decide +kernel
theorem witness_Barriers_arrivals : let s := barrier [2] [barMember false]; let l := barrier [1] [barMember false]
    (barrier [2] []).task.fl.bars.find? (fun e => e.addr == scrAt 256 0x17FFFC) = none ∧
    s.task.fl.bars = [barMember false] ∧ (barOf (leNat (s.scr 0x17FFFC 4))).arrived + 1 < (barOf (leNat (s.scr 0x17FFFC 4))).parties ∧
    0 < (barOf (leNat (l.scr 0x17FFFC 4))).parties ∧
    (barOf (leNat (l.scr 0x17FFFC 4))).parties ≤ (barOf (leNat (l.scr 0x17FFFC 4))).arrived + 1 ∧ l.task.run = .runnable ∧
    (s.x 2).toNat / 2 ^ 26 % 16 ≠ (barOf (leNat (s.scr 0x17FFFC 4))).phase ∧
    (s.x 0).toNat / 2 ^ 26 % 16 = (barOf (leNat (s.scr 0x17FFFC 4))).phase := by decide +kernel
theorem witness_FleetingTiles : let s := tiled [(1, 0x1000), (2, 0x400000), (3, 0x3FF000)]
    s.Quiet ∧ s.Clear ∧ s.mem.wf = true ∧ 0x400000 ≤ (s.x 2).toNat ∧ (s.x 1).toNat < 0x400000 ∧ (s.x 3).toNat < 0x400000 ∧
    Tab.find s.here.ctx.births ((s.x 1).toNat / 4096) = some 0 ∧ Tab.find s.here.ctx.births ((s.x 3).toNat / 4096) = none := by
  refine ⟨⟨rfl, rfl, rfl, rfl⟩, ⟨rfl, rfl, rfl, rfl, rfl, rfl, rfl, rfl, by decide⟩, ?_⟩; decide +kernel
theorem barOk_of {s : State} {a : Nat} (h : ∀ g k, barSleeper (s.taskAt g k) a 4 = false) : s.BarOk a := fun g k e => by
  rw [h g k] at e; cases e
/-- No member's states above have a sleeper on the word; and one has, in its present phase, beside the last arrival. -/
theorem witness_Barriers_alone : (∀ v l, (barrier v l).BarOk (scrAt 256 0x17FFFC)) ∧
    (let s := beside (barrier [1] [barMember false]); let loc := scrAt 256 0x17FFFC
     s.Quiet ∧ s.Clear ∧ s.mem.wf = true ∧ s.BarOk loc ∧ s.task.fl.bars = [barMember false] ∧ s.task.run = .runnable ∧
     (barOf (leNat (s.scr 0x17FFFC 4))).parties = 1 ∧ (barOf (leNat (s.scr 0x17FFFC 4))).arrived = 0 ∧
     (s.taskAt 256 1).run = .sleeping (.bar loc (barOf (leNat (s.scr 0x17FFFC 4))).phase 4) ∧
     Tab.find (s.gladeAt 256).ctx.tasks 1 = some (s.taskAt 256 1) ∧ Tab.find s.ctl.glades 256 = some (s.gladeAt 256)) := by
  refine ⟨fun v l => barOk_of fun g k => awake id _ rfl (by intro z h; cases h) _ _ g k, ⟨rfl, rfl, rfl, rfl⟩,
    ⟨rfl, rfl, rfl, rfl, rfl, rfl, rfl, rfl, by decide⟩, rfl, ?_, rfl, rfl, by decide +kernel, by decide +kernel, by decide +kernel, rfl, rfl⟩
  intro g k h
  by_cases h1 : g = 256
  · subst h1
    by_cases h2 : k = 0
    · subst h2; exact absurd h (by decide +kernel)
    · by_cases h3 : k = 1
      · subst h3; exact ⟨4, by decide +kernel⟩
      · have e : (beside (barrier [1] [barMember false])).taskAt 256 k = Task.none := by
          show Tab.getD [(0, _), (1, _)] k Task.none = _
          simp [Tab.getD, Tab.find, Ne.symm h2, Ne.symm h3]
        rw [e] at h; exact absurd h (by decide +kernel)
  · have e : (beside (barrier [1] [barMember false])).taskAt g k = Task.none := by
      show Tab.getD (Tab.getD [(256, _)] g Glade.reset).ctx.tasks k Task.none = _
      simp [Tab.getD, Tab.find, Ne.symm h1]; rfl
    rw [e] at h; exact absurd h (by decide +kernel)
/-- A fence's guard over a load in flight, in front of a load, a store and an atomic. -/
def guarded : State := on { regd [(1, 0x17FFF8)] with fl := { Flight.empty with outs := [inFlight false false], guards := [⟨[5], 1, 0⟩] } }
theorem witness_Fences : let s := guarded; let G : Guard := ⟨[5], 1, 0⟩
    s.Settled ∧ s.task.fl.sq = [] ∧ s.Unshared ∧ G ∈ s.task.fl.guards ∧ (∃ i ∈ G.ids, performedAt s.task G.scope i = false) ∧
    (s.x 1).toNat % 8 = 0 ∧ (s.x 1).toNat < 0x180000 ∧ G.covers = 0 := by
  refine ⟨rfl, rfl, unshared _ rfl, by decide +kernel, ⟨5, by decide, by decide +kernel⟩, ?_⟩; decide +kernel
/-- A fence entry of task 0 that waits for command 3 of MQ and store 5. -/
def aCmd (id : Nat) (op : CmdOp) : Cmd :=
  { id := id, t := 0, op := op, ka := 0, kb := 0, kc := 0, slot := 0, s0 := 0, s1 := 0, begun := false, unit := 0, got := [], puts := []
    toks := [], off := 0, aux := 0, flags := 0, count := 0, fin := false, starts := 0, after := none, hda := 0, hdb := 0, wrote := []
    cleared := [], vaPart := 0 }
def fenced (mq : List Cmd) (outs : List Out) : State :=
  withCtx (fun x => { x with eng := { x.eng with
    qs := { Queues.empty with mq := mq ++ [aCmd 9 .fence] }
    fences := [{ id := 9, t := 0, queues := [.mq], cmds := [(.mq, 3)], stores := [5], scope := 0 }] } }) (withOuts outs task0)
theorem witness_FencesOfTasksAndQueues : (0 : BitVec 10) = 0 ∧ (1 : BitVec 10) ≠ 0 ∧ (1 : BitVec 3) ≠ 0 ∧
    (∀ s ∈ [fenced [aCmd 3 .mzero] [], fenced [] [inFlight true false], fenced [] []], ∃ f,
      (s.gladeAt 256).ctx.eng.fences.find? (fun f => f.id == 9) = some f ∧ f.cmds = [(.mq, 3)] ∧ f.stores = [5] ∧ f.t = 0 ∧ f.scope = 0) ∧
    [(Queue.mq, 3)].any (fun p => (cmdsOf (fenced [aCmd 3 .mzero] []).ctl 256 p.1).any (fun c => c.id == p.2)) = true ∧
    [5].all (performedAt ((fenced [] [inFlight true false]).taskAt 256 0) 0) = false ∧
    [(Queue.mq, 3)].any (fun p => (cmdsOf (fenced [] []).ctl 256 p.1).any (fun c => c.id == p.2)) = false ∧
    [5].all (performedAt ((fenced [] []).taskAt 256 0) 0) = true := by
  refine ⟨rfl, by decide, by decide, ?_, ?_⟩
  · intro s h; fin_cases h <;> exact ⟨_, rfl, rfl, rfl, rfl, rfl⟩
  · decide +kernel


/-! ## Time, buffers, keys, engines, planes, channels -/

theorem witness_TimeGeneratorExit : let s := regs [(1, 1)]
    let p := on { regd [] with fl := { Flight.empty with recs := [{ id := 3, q := .cq0, slot := 0, done := false, flags := 0, count := 0, prom := some 0 }] } }
    s.Settled ∧ (s.x 0).toNat ≤ s.ctl.tick ∧ promiseBroken s.task 0 = false ∧ promiseBroken p.task (p.x 0).toNat = true ∧ p.Settled ∧
    s.ctl.tick < (s.x 1).toNat ∧ (storing []).task.fl.sq ≠ [] ∧ resultsPending (on (withOuts [inFlight false false] task0)).task = true ∧
    (let b := on (withOuts [inFlight false false] (regd [(1, 1)]))
     b.Settled ∧ b.ctl.tick < (b.x 1).toNat ∧ resultsPending b.task = true) ∧
    s.task.fl.sq = [] ∧ resultsPending s.task = false ∧ s.sys.inh = false ∧ s.task.fl.bars = [] := by
  refine ⟨rfl, ?_, rfl, ?_, rfl, ?_, ?_, ?_, ⟨rfl, ?_⟩, ?_⟩ <;> decide +kernel
/-- q1 bound to entry 2, a ring of four slots of 256 bytes at offset 0x1000 with one filled; q2 unbound; q3 bound to entry 3, not set up. -/
def ring4 : Buf := { base := 0x1000, space := 1, slot := 256, count := 4, head := 3, tail := 0, filled := 1 }
def ringTask : Task :=
  let T := regd [(1, 2 ^ 32 + 0x17FFC0), (2, 64), (3, 1), (4, 64), (5, 3), (6, 5)]
  { T with regs := (T.regs.putQ 1 (some 2)).putQ 3 (some 3) }
def ringed (B : Buf) : State := withCtx (fun x => { x with eng := { x.eng with bufs := [(2, B)] } }) ringTask
def ringBusy : State := withCtx (fun x => { x with eng := { x.eng with bufs := [(2, ring4)], qs := { Queues.empty with cq0 := [{ aCmd 3 (.fill 0) with kb := BitVec.ofNat 512 (2 ^ 31 + (2 ^ 31 + 2 * 2 ^ 16) * 2 ^ 480) }] } } }) ringTask
theorem witness_BufferTable : let s := ringed ring4; let e := ringed { ring4 with filled := 0, tail := 3 }; let f := ringed { ring4 with filled := 4, tail := 3 }
    s.Settled ∧ (s.x 3).toNat < 64 ∧ 64 ≤ (s.x 4).toNat ∧ s.q 2 = none ∧ s.q 1 = some 2 ∧ s.q 3 = some 3 ∧
    entryBusy ringBusy.ctl ringBusy.g 2 = true ∧ ringBusy.q 1 = some 2 ∧ entryBusy s.ctl s.g 2 = false ∧ (s.buf 2).filled ≠ 0 ∧
    (let A := (e.x 1).toNat
     (A / 2 ^ 32 % 4 = 1) ∧ A % 2 ^ 22 % 64 = 0 ∧ 0 < (e.x 2).toNat ∧ (e.x 2).toNat % 64 = 0 ∧ (e.x 2).toNat ≤ 0x400000 ∧
     0 < (e.x 3).toNat ∧ (e.x 3).toNat ≤ 4096 ∧ A % 2 ^ 22 + (e.x 2).toNat * (e.x 3).toNat ≤ 0x180000) ∧
    entryBusy e.ctl e.g 2 = false ∧ (e.buf 2).filled = 0 ∧ (s.buf 3).count = 0 ∧ (s.buf 2).count ≠ 0 ∧
    -- QADV and QWAIT: above COUNT, none, enough, not enough
    (s.buf 2).count < (s.x 6).toNat + 0 ∧ (s.x 0).toNat + 0 = 0 ∧ 0 < (s.x 3).toNat + 0 ∧ (s.x 3).toNat + 0 ≤ (s.buf 2).filled ∧
    (s.x 5).toNat + 0 ≤ (s.buf 2).count - (s.buf 2).filled ∧ (e.buf 2).filled < (e.x 3).toNat ∧ (e.x 3).toNat ≤ (e.buf 2).count ∧
    (f.buf 2).count - (f.buf 2).filled < (f.x 3).toNat ∧ (f.x 3).toNat ≤ (f.buf 2).count := by
  refine ⟨rfl, ?_⟩; decide +kernel
theorem witness_BufferTable_local : ∀ st, ∀ o ∈ (ringed ring4).task.fl.outs, o.store = st → o.sp ≠ .scr ∧ o.sp ≠ .flt := by
  intro st o h; exact absurd h (List.not_mem_nil)
/-- QWAIT with fewer slots filled or free than it asks for, with nothing in flight and with a load in flight. -/
theorem witness_BufferTable_waits : let e := ringed { ring4 with filled := 0, tail := 3 }
    let p := withCtx (fun x => { x with eng := { x.eng with bufs := [(2, { ring4 with filled := 2, tail := 3 })] } }) (withOuts [inFlight false false] ringTask)
    resultsPending e.task = false ∧ (e.buf 2).filled < (3 : BitVec 13).toNat ∧ (3 : BitVec 13).toNat ≤ (e.buf 2).count ∧
    p.Settled ∧ p.q 1 = some 2 ∧ resultsPending p.task = true ∧ (p.buf 2).filled < (3 : BitVec 13).toNat ∧
    (p.buf 2).count - (p.buf 2).filled < (3 : BitVec 13).toNat ∧ (3 : BitVec 13).toNat ≤ (p.buf 2).count ∧
    -- QADV behind a local load or store
    (∀ st, let l := withCtx (fun x => { x with eng := { x.eng with bufs := [(2, { ring4 with filled := 2, tail := 1 })] } }) (withOuts [{ inFlight st false with sp := .scr }] ringTask)
     l.Settled ∧ l.q 1 = some 2 ∧ 0 < (l.x 3).toNat + 0 ∧ (l.x 3).toNat + 0 ≤ (l.buf 2).filled ∧ (l.x 3).toNat + 0 ≤ (l.buf 2).count - (l.buf 2).filled ∧
     ¬∀ o ∈ l.task.fl.outs, o.store = st → o.sp ≠ .scr ∧ o.sp ≠ .flt) := by
  refine ⟨?_, ?_, ?_, rfl, ?_, ?_, ?_, ?_, ?_, ?_⟩
  case refine_9 => intro st; refine ⟨rfl, ?_⟩; cases st <;> decide +kernel
  all_goals decide +kernel
theorem witness_BufferSlots : let s := ringed ring4; let e := ringed { ring4 with filled := 0, tail := 3 }; let f := ringed { ring4 with filled := 4, tail := 3 }
    s.Quiet ∧ s.Clear ∧ s.mem.wf = true ∧ s.q 1 = some 2 ∧ (s.buf 2).space = 1 ∧ 0 < (s.buf 2).count ∧ 256 * (0 + 1) ≤ (s.buf 2).slot ∧
    (s.buf 2).base % 64 = 0 ∧ (s.buf 2).slot % 64 = 0 ∧ (s.buf 2).base + (s.buf 2).slot * (s.buf 2).count ≤ 0x180000 ∧
    0 + 1 ≤ (s.buf 2).filled ∧ 0 + 1 ≤ (s.buf 2).count - (s.buf 2).filled ∧ (e.buf 2).filled < 0 + 1 ∧ (f.buf 2).count - (f.buf 2).filled < 0 + 1 := by
  refine ⟨⟨rfl, rfl, rfl, rfl⟩, ⟨rfl, rfl, rfl, rfl, rfl, rfl, rfl, rfl, by decide⟩, rfl, ?_⟩; decide +kernel
/-- A key: format, space, rank, TRANS, PACKED, BASE, the first two extents, the row stride. -/
def aKey (fmt space rank trans packed base d0 d1 stride : Nat) : Key :=
  BitVec.ofNat 512 (2 ^ 31 + packed * 2 ^ 14 + trans * 2 ^ 13 + (rank - 1) * 2 ^ 11 + space * 2 ^ 8 + fmt + base * 2 ^ 32 +
    d0 * 2 ^ 96 + d1 * 2 ^ 128 + stride * 2 ^ 224)
/-- BF16 keys 0 and 1 (TRANS), an accumulator 2, FP32 3, a packed 4, indexes 6. -/
def keyTab : Tab Key := [(0, aKey 0x20 1 2 0 0 0 4 4 8), (1, aKey 0x20 1 2 1 0 0x100 4 4 8), (2, aKey 0x21 4 2 0 0 0 4 4 0),
  (3, aKey 0x21 1 2 0 0 0x200 4 4 16), (4, aKey 0x20 1 2 0 1 0x400 4 4 0), (6, aKey 0x02 1 1 0 0 0x800 4 0 0)]
def keyed : State := withCtx (fun x => { x with eng := { x.eng with keys := keyTab } }) (regd [(1, 0x40), (2, 0x400)])
theorem witness_Keyring : let s := deferred keyed; let s1 := s.looked .scr (s.x 1) 64 64 .read; let s2 := s.looked .scr (s.x 1) 64 64 .write
    s.Settled ∧ 1024 ≤ (1024 : KIdx).toNat ∧ (1023 : KIdx).toNat < 1024 ∧
    s.t < 16 ∧ (∃ p, s.place .scr (s.x 1) 64 64 .read = .ok p ∧ s1.task.fl.sq = [] ∧ s1.Unshared ∧ s1.ctl.model.defer = true ∧
      mayIssue (Work.start s1) 0 (loadPieces (Work.start s1) s1.ctl.model.nextId .scr (s.x 1).toNat p 64 4 .none) = true) ∧
    (∃ p, s.place .scr (s.x 1) 64 64 .write = .ok p ∧
      mayIssue (Work.start s2) 1 (storePieces (Work.start s2) s2.ctl.model.nextId .scr (s.x 1).toNat p (natLe 64 (s2.key 0).toNat) (vecStep .scr)) = true) ∧
    keyed.Quiet ∧ keyed.Clear ∧ (keyed.x 1).toNat % 64 = 0 ∧ (keyed.x 1).toNat < 0x180000 ∧ kValid (keyed.key 7) = false ∧ kValid (keyed.key 1) = true := by
  refine ⟨rfl, by decide, by decide, by decide, ⟨_, rfl, rfl, unshared _ rfl, rfl, by decide +kernel⟩, ⟨_, rfl, by decide +kernel⟩, ⟨rfl, rfl, rfl, rfl⟩,
    ⟨rfl, rfl, rfl, rfl, rfl, rfl, rfl, rfl, by decide⟩, ?_⟩
  decide +kernel
/-- For each command keys that pass, and keys that do not. -/
theorem witness_EngineCommands : keyed.Settled ∧ (let W := Work.start keyed
    [keyFault W (mmaUses W 0 1 2) (mmaDesync W 0 1), keyFault W [{ ix := 2, k := keyed.key 2, role := accRole .write, rel := [] }] none,
     keyFault W (moutUses W 2 3) (if desyncs (keyed.key 3) (kLog (keyed.key 3) 1) (kLog (keyed.key 3) 0) then some 3 else none), keyFault W (packUses W 0 4) none,
     keyFault W (unpackUses W 4 0) none, keyFault W (gatherUses W 0 0 6) none, keyFault W (scatterUses W 0 0 6) none,
     keyFault W [{ ix := 0, k := keyed.key 0, role := memRole .write, rel := [] }] none, keyFault W (collUses W 3 3) none,
     keyFault W (copyUses W false 0 0) none] = List.replicate 10 none ∧
    (keyFault W (mmaUses W 0 0 2) (mmaDesync W 0 0)).isSome = true ∧ (keyFault W (packUses W 0 0) none).isSome = true ∧
    (keyFault W (unpackUses W 0 0) none).isSome = true ∧ (keyFault W (collUses W 4 4) none).isSome = true ∧
    bundleFault W (copyUses W false 0 0) (mmaUses W 0 1 2) none (mmaDesync W 0 1) = none) ∧
    [Queue.mq, .cq0, .cq1, .cq2, .cq3, .xq].all (fun q => qRoom keyed.ctl keyed.g q) = true := by
  refine ⟨rfl, ?_⟩; decide +kernel
/-- A P1 task whose key 0 lies in the device, while every stack is in self-refresh: its walk waits. -/
def asleep (l : List (Nat × Word)) : State :=
  { State.reset with
    mem := [(0x10000, 1), (0x10002, 2), (0x20000, 0x0F), (0x20006, 0x10)]
    ctl := { State.reset.ctl with
      glades := [(256, let G := gladeOne (withSys (fun s => { s with priv := 1 }) (regd l))
        { G with ctx := { G.ctx with eng := { G.ctx.eng with keys := [(0, aKey 0x20 0 2 0 0 0 4 4 8), (3, aKey 0x21 0 2 0 0 0x200 4 4 16)] } } })]
      parts := [(0, { Part.reset with sched := { PartSched.reset with ptroot := 0x10000 } })]
      repair := { State.reset.ctl.repair with sref := List.range 12 } } }
theorem witness_waiting_walks : let s := asleep [(2, 1)]; let W := Work.start s
    s.Settled ∧ (keyFault W [{ ix := 0, k := s.key 0, role := memRole .write, rel := [] }] none).map (·.code) = some 0 ∧
    (keyFault W ((streamUses W 2 3).map (fun u => { u with role := { u.role with need := .read } })) none).map (·.code) = some 0 ∧
    (spanFault W .dev (s.x 0).toNat (4 * (s.x 2).toNat) .read).map (·.code) = some 0 := by
  refine ⟨rfl, ?_⟩; decide +kernel
/-- A full copy queue. -/
def fullQueue : State := withCtx (fun x => { x with eng := { x.eng with
  keys := keyTab
  qs := { Queues.empty with cq0 := List.replicate 64 (aCmd 3 (.fill 0)), xq := List.replicate 64 (aCmd 3 .release), sr := List.replicate 64 (aCmd 3 .release) } } }) (regd [(1, 0x40)])
theorem witness_CopyCommands : keyFault (Work.start fullQueue) (copyUses (Work.start fullQueue) false 0 0) none = none ∧
    qRoom fullQueue.ctl fullQueue.g .cq0 = false ∧ qRoom fullQueue.ctl fullQueue.g .xq = false ∧
    keyFault (Work.start keyed) (copyUses (Work.start keyed) false 0 0) none = none ∧ qRoom keyed.ctl keyed.g (cqOf 0) = true := by decide +kernel
def recOf (id : Nat) (q : Queue) (done : Bool) : Rec := { id := id, q := q, slot := 1, done := done, flags := 1, count := 2, prom := none }
def recorded (l : List Rec) : State := on { regd [(1, 0x17FFC0), (2, 0x20), (3, 0x180000)] with fl := { Flight.empty with recs := l } }
theorem witness_CollectiveCommandsAndWaits : let s := recorded [recOf 3 .mq true, recOf 4 .xq false]
    s.Settled ∧ (s.x 2).toNat % 64 ≠ 0 ∧ (s.x 3).toNat % 64 = 0 ∧ 0x180000 ≤ (s.x 3).toNat ∧ (s.x 1).toNat % 64 = 0 ∧ (s.x 1).toNat < 0x180000 ∧
    qRoom s.ctl s.g .xq = true ∧ (∀ r ∈ s.task.fl.recs.filter (fun r => decide (r.q = .mq)), r.done = true) ∧
    (∃ r ∈ s.task.fl.recs.filter (fun r => decide (r.q = .xq)), r.done = false) ∧ resultsPending s.task = false ∧
    (let p := on { task0 with fl := { Flight.empty with recs := [recOf 4 .xq false], outs := [inFlight false false] } }
     resultsPending p.task = true ∧ ∃ r ∈ p.task.fl.recs.filter (fun r => decide (r.q = .xq)), r.done = false) := by
  refine ⟨rfl, ?_⟩; decide +kernel
/-- Element 1 of plane 0: an ALU with IN0 fed. -/
def anElem (kind : Nat) : Elem := { Elem.empty with kind := kind, ins := (Vector.replicate 9 0).set 0 0x8001 }
def aPlane (kind : Nat) (st : PState) : Plane := { Plane.empty with elems := [(1, anElem kind)], st := st }
def cfgPort0 : CfgPort := { t := 0, sp := .scr, ea := 0x17FFF8, count := 3, idx := 0, failed := [], named := [], stop := none }
def planed (P : Plane) (port : Option CfgPort) (t : Task) : State :=
  withCtx (fun x => { x with net := { x.net with planes := x.net.planes.set 0 P, port := port } }) t
theorem witness_PlaneConfiguration : let T := regd [(1, 0x17FFF8), (2, 1), (3, 0x1), (4, 65537)]
    let s := planed (aPlane 1 .halted) none T; let b := planed (aPlane 1 .halted) (some cfgPort0) T
    let c := scrBytes 0x17FFF8 [1, 1, 0x4B, 0x01] b
    s.Settled ∧ b.here.ctx.net.port ≠ none ∧ s.here.ctx.net.port = none ∧ 65536 < (s.x 4).toNat ∧ (s.x 0).toNat = 0 ∧
    0 < (s.x 2).toNat ∧ (s.x 2).toNat ≤ 65536 ∧ (s.x 3).toNat % 4 ≠ 0 ∧ (s.x 1).toNat % 4 = 0 ∧
    (spanFault (Work.start s) .scr 0x180000 4 .read).isSome = true ∧ spanFault (Work.start s) .scr (s.x 1).toNat 4 .read = none ∧
    (¬∃ o ∈ s.task.fl.outs, o.store = true) ∧ guardsOpen s.task 0 = true ∧
    guardsOpen { T with fl := { Flight.empty with outs := [inFlight false false], guards := [⟨[5], 1, 0⟩] } } 0 = false ∧
    cfgPort0.failed = [] ∧ (c.gladeAt 256).banks = [] ∧
    c.ctl.marks.poison = [] ∧ c.ctl.marks.latent = [] ∧ c.ctl.marks.soft = [] ∧ (c.gladeAt 256).halted = false ∧
    (c.gladeAt 256).ctx.net.port = some cfgPort0 ∧ cfgPort0.idx + 1 < cfgPort0.count ∧
    leNat ((List.range 4).map (fun k => c.byte (scrAt 256 (cfgPort0.ea + 4 * cfgPort0.idx + k)))) / 2 ^ 16 % 64 = 11 ∧
    cfgPort0.ea + 4 * cfgPort0.idx + 4 ≤ 0x180000 ∧ (plain.gladeAt 256).ctx.net.port = none := by
  refine ⟨rfl, ?_⟩; decide +kernel
theorem witness_PlaneControlAndStreams : let s := keyed; let W := Work.start keyed
    s.Settled ∧ (s.x 1).toNat < 1024 ∧ 1024 ≤ (s.x 2).toNat ∧
    keyFault W ((streamUses W 0 3).map (fun u => { u with role := { u.role with need := .read } })) none = none ∧
    keyFault W ((streamUses W 1 3).map (fun u => { u with role := { u.role with need := .write } })) none = none ∧
    (keyFault W ((streamUses W 2 3).map (fun u => { u with role := { u.role with need := .read } })) none).isSome = true ∧
    (keyFault W ((streamUses W 0 7).map (fun u => { u with role := { u.role with need := .read } })) none).isSome = true ∧
    qRoom s.ctl s.g .sr = true ∧ qRoom s.ctl s.g .sw = true ∧ qRoom s.ctl s.g .ms = true ∧
    qRoom fullQueue.ctl fullQueue.g .sr = false ∧
    (planeOf (planed (aPlane 1 .eligible) none task0).ctl 256 0).st = .eligible := by
  refine ⟨rfl, ?_⟩; decide +kernel


/-! ## Channels, traps, special registers, privileged operations -/

/-- A record of one glade that binds VC 2 (the task sends and receives) and VC 3 (with a spill region at 0x40000). -/
def rec0 : LRec :=
  { tolerant := false, hasdl := false, prio := 0, stages := 1, groves := 1, glades := 1, tasks := 1, shape := 0, deadline := 0, live := 4096
    keyva := 0, bufva := 0, scrva := 0, scrlen := 0, planes := List.replicate 4 (0, 0), deps := [], cwva := 0
    entries := 0x8000000000000100 :: List.replicate 15 0
    binds := [(0, 0, 0), (0, 0, 0), (0x100000001, 0, 0), (0x100000001, 0x40000, 4096)] ++ List.replicate 28 (0, 0, 0), ranges := [(0, 1, 3)] }
def ext0 (revoked : Bool) : Extent :=
  { va := 0, pages := 1, pa := 0x30000, indexed := false, revoked := revoked, hw := false, perm := 3, keyid := 1, tier := 0 }
def spillExt : Extent := { ext0 false with va := 0x40000, pa := 0x50000, hw := true }
def launch0 (st : LState) : Launch := { Launch.fresh rec0 with st := st, map := [(0, 0)], exts := [ext0 false, spillExt] }
/-- Partition 0 with launch 1, key ID 1 and a page table at 0x10000. -/
def part0 (L : Launch) : Part :=
  { Part.reset with launches := [(1, L)], sched := { PartSched.reset with next := 2, ptroot := 0x10000 }
                    ten := { PartTen.reset with pkeys := 0x100000001, groves := 1, pgroves := 1 } }
/-- Launch 1 on glade 0, whose context is changed by `f`; `t` is the current task. -/
def launched (L : Launch) (f : GladeCtx → GladeCtx) (t : Task) : State :=
  let G := { gladeOne t with owner := some ⟨0, 1, 0⟩ }
  { State.reset with ctl := { State.reset.ctl with
      glades := [(0, { G with ctx := f G.ctx })], parts := [(0, part0 L)], model := { State.reset.ctl.model with glade := 0 } } }
/-- The page table: one pointer, and one leaf of 256 MiB of key ID 1 that maps each page to itself. -/
def tree : Memory := [(0x10000, 1), (0x10002, 2), (0x20000, 0x0F), (0x20006, 0x10)]
def userTask (l : List (Nat × Word)) : Task := withSys (fun s => { s with priv := 0, launch := 1 }) (regd l)
def running (f : GladeCtx → GladeCtx) : State := launched (launch0 .running) f (userTask [(1, 0x1234)])
def tok1 : Token := ⟨0, 7⟩
def fly1 (v : Nat) : Fly := ⟨0, v, 0, v, tok1, 0, 1, 0, some 0, none, false⟩
def inbox (v : Nat) (l : List Token) (x : GladeCtx) : GladeCtx := { x with net := { x.net with vcin := [(v, { toks := l, hold := false })] } }
theorem witness_Channels : let s := running (inbox 2 [tok1]); let e := running id
    s.Settled ∧ e.Settled ∧
    (¬∃ b, bindOf s.ctl s.g 5 = some b ∧ b.1.testBit (32 + s.t) = true) ∧
    (∃ b, bindOf s.ctl s.g 2 = some b ∧ b.1.testBit (32 + s.t) = true) ∧
    (∃ b, bindOf s.ctl s.g 2 = some b ∧ b.1.testBit 16 = false ∧ b.1 / 2 ^ 20 % 16 = s.t) ∧
    s.task.fl.outs = [] ∧ s.task.fl.sq = [] ∧ s.here.owner = some ⟨0, 1, 0⟩ ∧ destOf s.ctl s.g 2 = some (0, 2) ∧
    sendWay (Work.start s) s.g 2 = .direct ∧ gladeGuard s.ctl s.g 0 0 = true ∧
    (let w := { s with ctl := { s.ctl with net := { s.ctl.net with fly := List.replicate Config.flyDepth (fly1 2) } } }
     sendWay (Work.start w) w.g 2 = .wait) ∧
    (s.inbound 2).hold = false ∧ (s.inbound 2).toks = [tok1] ∧ (e.inbound 2).toks = [] ∧
    (4 : BitVec 32).getLsbD 2 = true ∧ (0x20 : BitVec 32).getLsbD 5 = true := by
  refine ⟨rfl, rfl, ?_, ⟨_, rfl, rfl⟩, ⟨_, rfl, rfl, rfl⟩, rfl, rfl, rfl, ?_⟩
  · rintro ⟨b, h, -⟩
    have e : bindOf (running (inbox 2 [tok1])).ctl (running (inbox 2 [tok1])).g 5 = none := by decide +kernel
    exact absurd (e.symm.trans h) (by simp)
  · decide +kernel
/-- Masks for WAITVC: channel 2 alone is the task's and holds a word, or holds none; channel 5 is not. -/
theorem witness_Channels_masks : let s := running (inbox 2 [tok1]); let e := running id
    (∀ k < 32, (4 : BitVec 32).getLsbD k = true → k = 2) ∧ (∀ k < 32, (0x20 : BitVec 32).getLsbD k = true → k = 5) ∧
    ((s.inbound 2).hold = false ∧ (s.inbound 2).toks ≠ []) ∧ ¬((e.inbound 2).hold = false ∧ (e.inbound 2).toks ≠ []) ∧
    bindOf s.ctl s.g 5 = none := by decide +kernel
/-- A sender on glade 0 whose receiver, by VXDEST, stands in another grove, while a record of its guard waits for a full ring. -/
def guardedVc (f : GladeCtx → GladeCtx) : State :=
  let s := launched (launch0 .running) f (userTask [(1, 0x1234)])
  let P := part0 (launch0 .running)
  { s with ctl := { s.ctl with
    parts := [(0, { P with ten := { P.ten with vxdest := [(34, 0x8000000000000108)] } })]
    net := { s.ctl.net with
      events := [{ ring := some 0, tick := 0, d0 := evHead 1 0 0 0x12 4, d1 := 0, d2 := 0, d3 := 0, guard := some (guardOf 0) }] } } }
theorem witness_Channels_held : let s := guardedVc id
    s.Settled ∧ (∃ b, bindOf s.ctl s.g 2 = some b ∧ b.1.testBit (32 + s.t) = true) ∧ s.task.fl.outs = [] ∧ destOf s.ctl s.g 2 = some (8, 1) ∧
    sendWay (Work.start s) s.g 2 = .held := by
  refine ⟨rfl, ⟨_, rfl, rfl⟩, rfl, ?_⟩; decide +kernel
/-- The same task with a load in flight: a sender and a receiver wait for it. -/
theorem witness_Channels_waits : let s := launched (launch0 .running) id (withOuts [inFlight false false] (userTask [(1, 0x1234)]))
    s.Settled ∧ (∃ b, bindOf s.ctl s.g 2 = some b ∧ b.1.testBit (32 + s.t) = true ∧ b.1.testBit 16 = false ∧ b.1 / 2 ^ 20 % 16 = s.t) ∧
    (∃ i ∈ s.task.fl.outs.map (·.id), performedAt s.task (joinLevel s.g (((destOf s.ctl s.g 2).map (·.1)).getD s.g)) i = false) ∧
    ¬((s.inbound 2).hold = false ∧ (s.inbound 2).toks ≠ []) ∧ resultsPending s.task = true ∧ resultsPending (running id).task = false := by
  refine ⟨rfl, ⟨_, rfl, rfl, rfl, rfl⟩, ?_⟩; decide +kernel
/-- VC 3 of the glade waits at a full way since tick 0; and it holds a record, in the launch's own memory or behind a dead link. -/
def spilled (S : Spill) (x : Extent) : State :=
  launched { launch0 .running with exts := [ext0 false, x] } (fun x => { x with net := { x.net with spills := [(3, S)] } }) (userTask [])
def oneRecord : Spill := { Spill.empty with on := true, count := 1, tail := 1 }
theorem witness_ChannelTransport : let full := running (inbox 2 (List.replicate 16 tok1))
    let s := { running id with ctl := { (running id).ctl with net := { (running id).ctl.net with fly := [fly1 3, fly1 2] } } }
    let p := spilled { Spill.empty with waits := [(0, 0)] } spillExt
    let b := { p with ctl := { p.ctl with tick := 1024, net := { p.ctl.net with fly := List.replicate Config.flyDepth (fly1 3) } } }
    let h := spilled oneRecord spillExt
    let far := spilled oneRecord { spillExt with pa := 2 ^ 44 + 0x50000 }
    let d := { far with ctl := { far.ctl with links := { far.ctl.links with up := [] } } }
    (∀ f ∈ plain.ctl.net.fly, f.dst ≠ 0 ∨ f.dvc ≠ 2) ∧ (full.gladeAt 0).owner ≠ none ∧ 16 ≤ (vcBuf full.ctl 0 2).toks.length ∧
    s.ctl.net.fly = [fly1 3] ++ fly1 2 :: [] ∧ (∀ x ∈ [fly1 3], (x.dst ≠ 0 ∨ x.dvc ≠ 2) ∧ sameBinding (fly1 2) x = false) ∧
    (fly1 2).hop = none ∧ switchedOut s.ctl (fly1 2) = false ∧
    (s.gladeAt 0).owner ≠ none ∧ ¬16 ≤ (vcBuf s.ctl 0 2).toks.length ∧ admits s.ctl 0 = true ∧
    backPressed b.ctl 0 3 = true ∧ (∃ x ∈ (spillOf b.ctl 0 3).waits, 1024 ≤ (b.ctl.tick + 2 ^ 64 - x.2 % 2 ^ 64) % 2 ^ 64) ∧ 0 < spillRecs b.ctl 0 3 ∧
    (spillOf s.ctl 0 3).count = 0 ∧
    (∀ p ∈ [(h, Verdict.perform), (d, .lost)], 0 < (spillOf p.1.ctl 0 3).count ∧ flyCount p.1.ctl 0 3 = 0 ∧
      (p.1.gladeAt 0).owner = some ⟨0, 1, 0⟩ ∧ (spillWord p.1.ctl 0 3 ⟨0, 1, 0⟩).map (fun y => (y.dst, canDeliver p.1.ctl y)) = some (0, true) ∧
      p.1.ctl.marks.poison = [] ∧ p.1.ctl.marks.latent = [] ∧ p.1.ctl.marks.soft = [] ∧
      (spillPlace (Work.start p.1) 0 3 (spillOf p.1.ctl 0 3).head).map (fun x =>
        homeVerdict p.1.ctl (devReq (Work.start p.1) 0 0 x (.read 8))) = some (some p.2)) := by decide +kernel
/-- A task with a handler at 0x800. -/
def handled (inh : Bool) (estat : Word) : Task := withSys (fun s => { s with tvec := 0x800, inh := inh, estat := estat }) task0
def aCause (n : Nat) : Cause := ⟨n, 0x100, 0, 0, 0, false, 0⟩
def pending (o : List Out) : State := on { withOuts o (handled false 0) with pend := some (aCause 0xD) }
theorem witness_TrapEntry : (∀ o ∈ (on (handled false 0)).task.fl.outs, o.store = true) ∧ 3 ≠ 0x11 ∧ (on (handled false 0)).task.dbg.attach = false ∧
    (on (handled false 0)).sys.tvec ≠ 0 ∧ (on (handled false 0)).sys.inh = false ∧ plain.sys.tvec = 0 ∧
    3 ∈ [1, 2, 3, 4, 5, 6, 7, 8, 9, 0xB, 0xC, 0x11, 0x14] ∧ 0xA ∉ [1, 2, 3, 4, 5, 6, 7, 8, 9, 0xB, 0xC, 0x11, 0x14] ∧
    (∃ o ∈ (on (withOuts [inFlight false false] task0)).task.fl.outs, o.store = false) ∧
    (plain.taskAt 256 0).pend = none ∧ (∃ o ∈ ((pending [inFlight false false]).taskAt 256 0).fl.outs, o.store = false) ∧
    ((pending []).taskAt 256 0).pend = some (aCause 0xD) ∧ (∀ o ∈ ((pending []).taskAt 256 0).fl.outs, o.store = true) ∧
    ((pending []).taskAt 256 0).run = .runnable ∧ ((pending []).taskAt 256 0).wait = none ∧ (aCause 0xD).code ≠ 0x11 ∧
    ((pending []).taskAt 256 0).dbg.attach = false ∧ ((pending []).taskAt 256 0).sys.tvec ≠ 0 ∧ ((pending []).taskAt 256 0).sys.inh = false ∧
    (on (handled false 0)).task.held = none ∧ ((pending []).taskAt 256 0).held = none ∧
    (let h := on { handled false 0 with held := some ⟨aCause 0xE, true, false⟩ }
     h.task.held ≠ none ∧ (∀ o ∈ h.task.fl.outs, o.store = true)) ∧
    (let p := (pending [{ inFlight true false with sp := .scr }]).taskAt 256 0
     (∃ o ∈ p.fl.outs, o.store = true ∧ (o.sp = .scr ∨ o.sp = .flt)) ∧ ∃ c, p.pend = some c ∧ c.code = 0xD) := by
  refine ⟨?_, ?_, ?_, ?_, ?_, ?_, ?_, ?_, ?_, ?_, ?_, ?_, ?_, ?_, ?_, ?_, ?_, ?_, ?_, ?_, ?_, ?_, ?_, _, rfl, rfl⟩ <;> decide +kernel
theorem witness_TrapInstructions : (on (handled false 0)).task.held = none ∧ (∀ o ∈ (on (handled false 0)).task.fl.outs, o.store = true) ∧ (on (handled false 0)).sys.tvec ≠ 0 ∧
    (on (handled false 0)).sys.inh = false ∧ (on (handled false 0)).task.dbg.attach = false ∧
    (on (handled true 0)).sys.inh = true ∧ (on (handled true 0)).sys.estat.getLsbD 16 = false ∧
    (on (handled true 0x10000)).sys.inh = true ∧ (on (handled true 0x10000)).sys.estat.getLsbD 16 = true ∧
    (¬∀ o ∈ (on (withOuts [inFlight false false] (handled true 0))).task.fl.outs, o.store = true) := by decide +kernel
def withPriv (p : Nat) : State := on (withSys (fun s => { s with priv := p }) task0)
theorem witness_SpecialRegisters : (withPriv 0).Settled ∧ (withPriv 1).Settled ∧ (withPriv 2).Settled ∧ (withPriv 0).sys.priv = 0 ∧
    0x140 ≤ (0x140 : BitVec 12).toNat ∧ (withPriv 1).sys.priv < 2 ∧ 0x280 ≤ (0x280 : BitVec 12).toNat ∧
    (0x188 ≤ (0x18C : BitVec 12).toNat ∧ (0x18C : BitVec 12).toNat ≤ 0x18C) ∧ 0x100 ≤ (0x100 : BitVec 12).toNat ∧
    0x200 ≤ (0x200 : BitVec 12).toNat ∧ (¬∀ o ∈ (on (withOuts [inFlight false true] task0)).task.fl.outs, o.fe = false) ∧
    (∀ o ∈ plain.task.fl.outs, o.fe = false) ∧ 1 ≤ (withPriv 1).sys.priv ∧ (withPriv 2).sys.priv = 2 := by
  refine ⟨rfl, rfl, rfl, ?_⟩; decide +kernel
/-- A supervisor task on a machine where launch 1 of partition 0 runs. -/
def supervised (L : Launch) (R : Repair → Repair) (priv : Nat) (l : List (Nat × Word)) : State :=
  { State.reset with
    mem := tree
    ctl := { State.reset.ctl with
      glades := [(256, gladeOne (withSys (fun s => { s with priv := priv }) (regd l)))], parts := [(0, part0 L)], repair := R State.reset.ctl.repair } }
theorem witness_PrivilegedOperations : let L := { launch0 .running with exts := [ext0 true, spillExt] }
    let s := supervised L id 1 [(1, 1), (2, 1), (3, 9)]; let o := supervised (launch0 .ready) id 1 [(1, 1)]; let W := Work.start s
    (withPriv 0).Settled ∧ s.Settled ∧ (withPriv 0).sys.priv = 0 ∧ s.sys.priv < 2 ∧ 0 < s.sys.priv ∧
    o.launch 0 1 = some (launch0 .ready) ∧ (launch0 .ready).st ≠ .running ∧ (launch0 .ready).st ≠ .preempted ∧
    s.launch 0 1 = some L ∧ L.st = .running ∧ L.exts[9]? = none ∧ L.exts[0]? = some (ext0 true) ∧ (ext0 true).revoked = true ∧
    L.exts[1]? = some spillExt ∧ spillExt.revoked = false ∧
    (match (walkSpan W 0 3 1 0).1 with
      | .ok ls => decide ((runsOf (ls.map (·.toNat))).length = 1)
      | .error _ => false) = true ∧
    (match (walkSpan W 0 3 1 0x10000000).1 with
      | .ok _ => false
      | .error e => decide (e = (1, 0x10000000))) = true := by
  refine ⟨rfl, rfl, ?_⟩; decide +kernel
theorem witness_PrivilegedOperations_retire : let s := supervised (launch0 .running) id 2 [(1, 0), (2, 11), (3, 12), (4, 0x1002)]
    let b := supervised (launch0 .running) (fun r => { r with phaseAct := true }) 2 []
    let l := supervised (launch0 .running) (fun r => { r with live := 1 }) 2 []
    s.sys.priv = 2 ∧ b.ctl.repair.phaseAct = true ∧ s.ctl.repair.phaseAct = false ∧ 11 < (s.x 3).toNat ∧ (s.x 2).toNat ≤ 11 ∧
    s.ctl.repair.live.testBit 11 = true ∧ liveCount s.ctl ≠ 1 ∧ l.ctl.repair.live.testBit 0 = true ∧ liveCount l.ctl = 1 ∧
    ((s.x 4).toNat % 8192).testBit 12 = true ∧ ((s.x 1).toNat % 8192).testBit 12 = false ∧
    (arcPorts (planeOf s.ctl 0 0))[0]? = none ∧
    (arcPorts (planeOf (planed { aPlane 1 .eligible with nums := arcKeys (aPlane 1 .eligible) } none task0).ctl 256 0))[0]? = some (1, 0) := by decide +kernel
theorem witness_CountersAndMonitors : let s := regs [(1, 7), (2, 8), (3, 10), (4, 11), (5, 15), (6, 16), (7, 40), (8, 41), (9, 0x1B), (10, 0x1C)]
    let o := on (withOuts [inFlight true false] task0)
    s.Settled ∧ o.Settled ∧ 7 < (s.x 2).toNat ∧ (s.x 1).toNat ≤ 7 ∧ s.task.fl.outs = [] ∧ o.task.fl.outs ≠ [] ∧
    (s.x 3).toNat % 256 ≤ 10 ∧ 10 < (s.x 4).toNat % 256 ∧ (s.x 5).toNat ≤ 15 ∧ 15 < (s.x 6).toNat ∧ (s.x 7).toNat ≤ 40 ∧ 40 < (s.x 8).toNat ∧
    (0x10 ≤ (s.x 9).toNat ∧ (s.x 9).toNat ≤ 0x1B) ∧ ¬((1 ≤ (s.x 10).toNat ∧ (s.x 10).toNat ≤ 0xA) ∨ (0x10 ≤ (s.x 10).toNat ∧ (s.x 10).toNat ≤ 0x1B)) := by
  refine ⟨rfl, rfl, ?_⟩; decide +kernel
/-- An access of extent 0 performed in part, and a walk that meets a stack in self-refresh. -/
theorem witness_PrivilegedOperations_waits : let L := { launch0 .running with exts := [ext0 false, spillExt] }
    let s := supervised L id 1 [(1, 1)]; let a := supervised { launch0 .running with exts := [ext0 true] } (fun r => { r with sref := List.range 12 }) 1 [(1, 1)]
    let r : Req := { storeReq with sp := .dev, addr := 0x30004, va := 4, acc := .read 252, whole := 1, svc := false, part := 0, launch := 1, ext := some 0 }
    let s := { s with ctl := { s.ctl with net := { s.ctl.net with bridges := [(0, { Bridge.empty with fifo := [r] })] } } }
    s.Settled ∧ 0 < s.sys.priv ∧ revokeWaits s.ctl 0 1 0 = true ∧ revokeWaits a.ctl 0 1 0 = false ∧ (launch0 .running).st = .running ∧
    (match (walkSpan (Work.start a) 0 3 1 0).1 with
      | .ok _ => false
      | .error e => decide (e = none)) = true := by
  refine ⟨rfl, ?_⟩; decide +kernel
/-- The least record that is well formed, at 0x40000: version 1, one stage, grove, glade, task and range. -/
def leastRecord : Memory := [(0x40000, 1), (0x40004, 1), (0x40008, 1), (0x40009, 1), (0x4000A, 1), (0x4000C, 1), (0x40588, 1), (0x4058C, 1)]
def launching : State := { plain with mem := leastRecord, ctl := { plain.ctl with
  glades := [(256, gladeOne (regd [(1, 0x40000), (2, 0x40001), (3, 0x80000)]))] } }
theorem witness_Launching : let s := launching; let W := touchRecord (Work.start s) 0x40000
    s.Settled ∧ (s.x 2).toNat % 64 ≠ 0 ∧ (s.x 1).toNat % 64 = 0 ∧
    rangeFault (Work.start s) .read false (0x40000 + 2432) 3 0x40000 = none ∧ rangeFault (Work.start s) .read true (0x40000 + 2432) 3 0x40000 = none ∧
    (storing []).task.fl.sq ≠ [] ∧ s.task.fl.sq = [] ∧ (∀ o ∈ s.task.fl.outs, o.store = true) ∧
    recordOpen W 0x40000 (recordPlaces W 0x40000) = true := by
  refine ⟨rfl, ?_⟩; decide +kernel
theorem witness_Launching_answers : let s := launching; let W := touchRecord (Work.start s) 0x40000; let V := touchRecord (Work.start s) 0x80000
    (match (readRecord W (recordPlaces W 0x40000) 0x40000).1 with
      | .ok l => (match launchAnswer (s.part 0) 2 (dwords l) with
        | .ok r => decide (r.deps = [])
        | .error _ => false)
      | .error _ => false) = true ∧
    (match (readRecord V (recordPlaces V 0x80000) 0x80000).1 with
      | .ok l => (match launchAnswer (s.part 0) 2 (dwords l) with
        | .ok _ => false
        | .error r => decide (r = 2))
      | .error _ => false) = true := by decide +kernel
/-- A poisoned record, for a task with a handler. -/
theorem witness_Launching_poisoned : let q := launching
    let s := { q with ctl := { q.ctl with marks := { q.ctl.marks with poison := [0x40000] }
                                          glades := [(256, gladeOne (withSys (fun s => { s with tvec := 0x800 }) (regd [(1, 0x40000)])))] } }
    let W := touchRecord (Work.start s) 0x40000
    s.Settled ∧ recordOpen W 0x40000 (recordPlaces W 0x40000) = true ∧ s.task.held = none ∧ s.sys.tvec ≠ 0 ∧ s.sys.inh = false ∧
    s.task.fl.sq = [] ∧ s.task.fl.outs = [] ∧
    (match (readRecord W (recordPlaces W 0x40000) 0x40000).1 with
      | .ok _ => false
      | .error e => decide (e.1 = 0x40000)) = true := by
  refine ⟨rfl, ?_⟩; decide +kernel
/-- LWAIT: number 0, a launch that has completed, one that has not. -/
theorem witness_Launching_wait : let s := launched (launch0 .running) id (userTask [(1, 1), (2, 2)])
    let d := { s with ctl := { s.ctl with parts := [(0, { part0 (launch0 .running) with launches := [] })] } }
    s.Settled ∧ (s.x 0).toNat = 0 ∧ (s.part 0).sched.next ≤ (s.x 2).toNat ∧ 0 < (s.x 1).toNat ∧ (s.x 1).toNat < (s.part 0).sched.next ∧
    s.launch 0 1 ≠ none ∧ d.launch 0 1 = none ∧ resultsPending s.task = false ∧
    (let p := launched (launch0 .running) id (withOuts [inFlight false false] (userTask [(1, 1)]))
     p.Settled ∧ p.launch 0 1 ≠ none ∧ (p.x 1).toNat < (p.part 0).sched.next ∧ resultsPending p.task = true) := by
  refine ⟨rfl, ?_, ?_, ?_, ?_, ?_, ?_, ?_, rfl, ?_⟩ <;> decide +kernel


/-! ## Firings and requests -/

/-- Element 1 of a plane with every input routed. -/
def fireElem (kind cfg : Nat) : Elem := { Elem.empty with kind := kind, cfg := cfg, ins := Vector.replicate 9 0x8009 }
/-- Its plane, with tokens at its inputs; where `full`, what output 0 feeds holds two tokens. -/
def firePlane (x : Elem) (toks : List (Nat × Token)) (full : Bool) : Plane :=
  { Plane.empty with
    elems := (1, x) :: (if full then [(2, { Elem.empty with kind := 3, ins := (Vector.replicate 9 0).set 0 0x8001 })] else [])
    arcs := toks.map (fun t => (9 + t.1, { toks := [(t.2, t.1)], hold := false })) ++ (if full then [(18, { toks := [(⟨0, 1⟩, 0), (⟨0, 2⟩, 0)], hold := false })] else [])
    st := .eligible }
def fireState (P : Plane) (f : GladeCtx → GladeCtx) : State :=
  withCtx (fun x => f { x with net := { x.net with planes := x.net.planes.set 0 P, active := some 0, beats := 3 } }) task0
theorem good (s : State) (g : Nat) (h : (s.gladeAt g).ctlBad = []) (k : (s.gladeAt g).ctlSoft = []) (us : List CtlUnit) : s.CtlGood g us :=
  fun _ _ => ⟨h ▸ List.not_mem_nil, k ▸ List.not_mem_nil⟩
theorem fire_active (x : Elem) (toks : List (Nat × Token)) (full : Bool) : ActivePlane (fireState (firePlane x toks full) id) 256 0 :=
  ⟨rfl, rfl, rfl, rfl, show (0 : Nat) < 256 by decide, by decide, good _ _ rfl rfl _⟩
def dat (v : BitVec 32) : Token := ⟨0, v⟩
def eosTok (n : Nat) : Token := ⟨BitVec.ofNat 3 (4 + n), 0⟩
def done1 : Token := ⟨1, 0⟩
/-- The heads each kind's rule reads, a full output, and a free one. -/
theorem witness_ElementFirings :
    (List.range 17).all (fun k => decide (
      let P := firePlane (fireElem k 0) [(0, dat 5), (1, dat 0), (2, dat 7)] false
      elemOf P 1 = fireElem k 0 ∧ headTok P 1 0 = some ⟨0, 5⟩ ∧ headTok P 1 1 = some ⟨0, 0⟩ ∧ headTok P 1 2 = some ⟨0, 7⟩ ∧
      headTok P 1 8 = none ∧ outFree P 1 0 = true ∧ outFree (firePlane (fireElem k 0) [(0, dat 5)] true) 1 0 = false)) = true ∧
    (fireElem 1 1).cfg.testBit 0 = true ∧ (fireElem 1 0).cfg.testBit 0 = false ∧ (fireElem 1 0).klo < 65536 ∧ (fireElem 1 0).khi < 65536 := by
  decide +kernel
/-- AMERGE and ARB take the oldest head: at port 1, whose token came at beat 1, before port 2's. -/
theorem witness_ElementFirings_order : let P := firePlane (fireElem 7 0) [(1, dat 5), (2, dat 7)] false
    headAt P 1 1 = some (dat 5, 1) ∧ headAt P 1 0 = none ∧ headAt P 1 2 = some (dat 7, 2) ∧ headAt P 1 3 = none ∧
    headTok (firePlane (fireElem 11 0) [(8, dat 1)] false) 1 8 = some (dat 1) ∧ (fireElem 11 0).fifo = [] ∧
    (elemOf (firePlane { fireElem 11 0 with fifo := [2] } [(8, dat 1)] false) 1).fifo = [2] := by decide +kernel
/-- CARRY and LCE in both modes, DJOIN's tokens, and the ends of streams. -/
theorem witness_ElementFirings_modes :
    (fireElem 8 0).mode = 0 ∧ { fireElem 8 0 with mode := 1 }.mode ≠ 0 ∧
    headTok (firePlane (fireElem 9 0) [(0, dat 0)] false) 1 0 = some ⟨0, 0⟩ ∧ headTok (firePlane (fireElem 9 0) [(0, eosTok 3)] false) 1 0 = some ⟨7, 0⟩ ∧
    headTok (firePlane { fireElem 9 0 with mode := 1, n := 2, i := 1 } [(1, done1)] false) 1 1 = some ⟨1, 0⟩ ∧
    (List.range 4).all (fun j => decide (headTok (firePlane (fireElem 10 0) [(0, done1), (1, done1), (2, done1), (3, done1)] false) 1 j = some ⟨1, 0⟩)) = true ∧
    (let P := firePlane (fireElem 5 0) [(0, eosTok 1), (1, eosTok 2)] false
     headTok P 1 0 = some ⟨5, 0⟩ ∧ headTok P 1 1 = some ⟨6, 0⟩) ∧
    (let P := firePlane (fireElem 5 0) [(0, dat 1), (1, eosTok 2)] false
     headTok P 1 0 = some ⟨0, 1⟩ ∧ headTok P 1 1 = some ⟨6, 0⟩) ∧
    (let P := firePlane (fireElem 5 0) [(0, eosTok 1), (1, dat 2)] false
     headTok P 1 0 = some ⟨5, 0⟩ ∧ headTok P 1 1 = some ⟨0, 2⟩) ∧
    headTok (firePlane (fireElem 1 0) [(0, done1)] false) 1 0 = some ⟨1, 0⟩ := by decide +kernel
/-- The rows of R65: what each kind reads then, all ends of streams, an end beside data, and a DONE. -/
theorem witness_ElementFirings_ends :
    ([(1, 0, [0, 1]), (1, 1, [0]), (2, 0, [0, 1]), (3, 0, [0]), (5, 0, [0, 1]), (6, 0, [0, 1, 2]), (8, 0, [0, 2])].all (fun q => decide (
      let at_ := fun (a b c : Token) => firePlane (fireElem q.1 q.2.1) [(0, a), (1, b), (2, c)] false
      q.2.2.map (headTok (at_ (eosTok 1) (eosTok 2) (eosTok 3)) 1) = (q.2.2.map (fun j => eosTok (j + 1))).map some ∧
      q.2.2.map (headTok (at_ (eosTok 1) (dat 5) (dat 6)) 1) = (q.2.2.map (fun j => if j = 0 then eosTok 1 else dat (BitVec.ofNat 32 (4 + j)))).map some ∧
      headTok (at_ done1 (dat 5) (dat 6)) 1 0 = some ⟨1, 0⟩))) = true ∧
    (∀ n < 4, (eosTok n).k.getLsbD 2 = true) ∧ (dat 5).k = 0 ∧
    headTok (firePlane (fireElem 9 0) [(0, done1)] false) 1 0 = some ⟨1, 0⟩ ∧
    (headTok (firePlane { fireElem 9 0 with mode := 1 } [(1, dat 5)] false) 1 1 = some (dat 5) ∧ (dat 5).k ≠ 1) ∧
    (let P := firePlane (fireElem 10 0) [(0, done1), (1, dat 5)] false
     (List.range 4).filter (fun j => inRouted (inOf (fireElem 10 0) j)) = [0, 1, 2, 3] ∧ headTok P 1 0 = some done1 ∧ headTok P 1 1 = some (dat 5)) := by
  decide +kernel
def streamCmd (toMem : Bool) (toks : List Token) : Cmd := { aCmd 3 (.stream 0 toMem 0 0 1) with begun := true, toks := toks }
def streaming (kind : Nat) (c : Cmd) : State :=
  fireState (firePlane (fireElem kind 0) [(0, dat 5)] false) (fun x => { x with eng := { x.eng with qs := { Queues.empty with sr := [c] } } })
theorem witness_PortFirings : let s := streaming 12 (streamCmd false [tok1]); let k := streaming 13 (streamCmd true [])
    let v := fireState (firePlane (fireElem 14 0x20) [(0, dat 5)] false) (inbox 2 [tok1])
    ActivePlane s 256 0 ∧ ActivePlane k 256 0 ∧ ActivePlane v 256 0 ∧
    admits s.ctl 256 = true ∧ boundCmd s.ctl 256 0 1 = some (.sr, streamCmd false [tok1]) ∧ cmdToMem (streamCmd false [tok1]) = false ∧
    outFree (planeOf s.ctl 256 0) 1 0 = true ∧
    boundCmd k.ctl 256 0 1 = some (.sr, streamCmd true []) ∧ headTok (planeOf k.ctl 256 0) 1 0 = some (dat 5) ∧ cmdToMem (streamCmd true []) = true ∧
    0 < Config.streamDepth ∧ boundCmd v.ctl 256 0 1 = none ∧ vcHead v.ctl 256 2 = some tok1 ∧ admits v.ctl 256 = true := by
  refine ⟨⟨rfl, rfl, rfl, rfl, by decide, by decide, good _ _ rfl rfl _⟩, ⟨rfl, rfl, rfl, rfl, by decide, by decide, good _ _ rfl rfl _⟩, ⟨rfl, rfl, rfl, rfl, by decide, by decide, good _ _ rfl rfl _⟩, ?_⟩; decide +kernel
/-- A DONE at a SNK with its command and at a VCO, and neither head nor command there. -/
theorem witness_PortFirings_done :
    let d := fun (kind : Nat) (l : List (Nat × Token)) (c : List Cmd) =>
      fireState (firePlane (fireElem kind 0) l false) (fun x => { x with eng := { x.eng with qs := { Queues.empty with sw := c } } })
    let k := d 13 [(0, done1)] [streamCmd true []]; let v := d 15 [(0, done1)] []; let n := d 15 [] []; let b := d 13 [(0, dat 5)] []
    (ActivePlane k 256 0 ∧ ActivePlane v 256 0 ∧ ActivePlane n 256 0 ∧ ActivePlane b 256 0) ∧
    boundCmd k.ctl 256 0 1 = some (.sw, streamCmd true []) ∧ headTok (planeOf k.ctl 256 0) 1 0 = some ⟨1, 0⟩ ∧
    headTok (planeOf v.ctl 256 0) 1 0 = some ⟨1, 0⟩ ∧ headTok (planeOf n.ctl 256 0) 1 0 = none ∧ boundCmd b.ctl 256 0 1 = none := by
  refine ⟨⟨⟨rfl, rfl, rfl, rfl, by decide, by decide, good _ _ rfl rfl _⟩, ⟨rfl, rfl, rfl, rfl, by decide, by decide, good _ _ rfl rfl _⟩, ⟨rfl, rfl, rfl, rfl, by decide, by decide, good _ _ rfl rfl _⟩,
    ⟨rfl, rfl, rfl, rfl, by decide, by decide, good _ _ rfl rfl _⟩⟩, ?_⟩; decide +kernel
/-- VCO on a launched glade, with its way open and held; ENTRY on a ring with a slot filled, and without one. -/
theorem witness_PortFirings_ports :
    let net := fun (x : GladeCtx) => { x with net := { x.net with planes := x.net.planes.set 0 (firePlane (fireElem 15 0x20) [(0, dat 5)] false), active := some 0 } }
    let s := running net; let w := { s with ctl := { s.ctl with net := { s.ctl.net with fly := List.replicate Config.flyDepth (fly1 2) } } }
    let e := fun (B : Buf) => fireState (firePlane (fireElem 16 2) [] false) (fun x => { x with eng := { x.eng with bufs := [(2, B)] } })
    ActivePlane s 0 0 ∧ ActivePlane (e ring4) 256 0 ∧ sendWay (Work.start w) 0 2 = .wait ∧ sendWay (Work.start s) 0 2 = .direct ∧
    headTok (planeOf s.ctl 0 0) 1 0 = some (dat 5) ∧ (s.gladeAt 0).owner = some ⟨0, 1, 0⟩ ∧ destOf s.ctl 0 2 = some (0, 2) ∧
    gladeGuard s.ctl 0 0 0 = true ∧ (bufOf (e ring4).ctl 256 2).count ≠ 0 ∧ 0 < (bufOf (e ring4).ctl 256 2).filled ∧
    (bufOf (e ring4).ctl 256 2).space = 1 ∧ outFree (planeOf (e ring4).ctl 256 0) 1 0 = true ∧
    (bufOf (e { ring4 with filled := 0 }).ctl 256 2).filled = 0 := by
  refine ⟨⟨rfl, rfl, rfl, rfl, by decide, by decide, good _ _ rfl rfl _⟩, ⟨rfl, rfl, rfl, rfl, by decide, by decide, good _ _ rfl rfl _⟩, ?_⟩; decide +kernel
/-- VCO whose guard holds its word; ENTRY's entry without an error, its slot inside the store. -/
theorem witness_PortFirings_held :
    let net := fun (x : GladeCtx) => { x with net := { x.net with planes := x.net.planes.set 0 (firePlane (fireElem 15 0x20) [(0, dat 5)] false), active := some 0 } }
    let s := guardedVc net; let e := fireState (firePlane (fireElem 16 2) [] false) (fun x => { x with eng := { x.eng with bufs := [(2, ring4)] } })
    ActivePlane s 0 0 ∧ e.CtlGood 256 [.buf 2] ∧ sendWay (Work.start s) 0 2 = .held ∧ headTok (planeOf s.ctl 0 0) 1 0 = some (dat 5) ∧
    ring4.base + ring4.head * ring4.slot < 0x180000 ∧ (e.gladeAt 256).banks = [] ∧ e.ctl.marks.poison = [] ∧ e.ctl.marks.latent = [] ∧
    e.ctl.marks.soft = [] := by
  refine ⟨⟨rfl, rfl, rfl, rfl, by decide, by decide, good _ _ rfl rfl _⟩, good _ _ rfl rfl _, ?_⟩; decide +kernel
theorem witness_PortFirings_schedule : let s := fireState (firePlane (fireElem 3 0) [(0, dat 5)] false) id
    let i := withCtx (fun x => { x with net := { x.net with planes := x.net.planes.set 1 (firePlane (fireElem 3 0) [(0, dat 5)] false) } }) task0
    (withGlade 256 { gladeOne task0 with halted := true }).here.halted = true ∧ plain.here.ctx.net.active = none ∧
    (∀ r < 4, (planeOf plain.ctl 256 r).passed = 0) ∧ plain.here.ctx.net.redecide = false ∧
    (∀ r < 4, planeScore plain.ctl 256 r = 0) ∧ ActivePlane s 256 0 ∧ (∀ r < 4, (planeOf s.ctl 256 r).passed = 0) ∧ canFire (Work.start s) 256 = true ∧
    i.here.halted = false ∧ i.here.ctx.net.active = none ∧ 0 < planeScore i.ctl 256 1 ∧
    (∀ r < 4, planeScore i.ctl 256 r ≤ planeScore i.ctl 256 1 ∧ (planeScore i.ctl 256 r = planeScore i.ctl 256 1 → 1 ≤ r)) ∧
    (∀ r < 4, (planeOf i.ctl 256 r).passed < 4) := by
  refine ⟨rfl, rfl, ?_, rfl, ?_, ⟨rfl, rfl, rfl, rfl, by decide, by decide, good _ _ rfl rfl _⟩, ?_⟩ <;> decide +kernel
/-- The first beat after a restore, and the 256th beat of the active plane. -/
theorem witness_PortFirings_due : let P := firePlane (fireElem 3 0) [(0, dat 5)] false
    let a := fireState P (fun x => { x with net := { x.net with redecide := true } }); let b := fireState { P with beats := 256 } id
    a.here.ctx.net.redecide = true ∧ b.here.ctx.net.active = some 0 ∧ 256 ≤ (planeOf b.ctl 256 0).beats ∧
    ∀ s ∈ [a, b], s.here.halted = false ∧ 0 < planeScore s.ctl 256 0 ∧ (∀ r < 4, planeScore s.ctl 256 r ≤ planeScore s.ctl 256 0) ∧
      ∀ r < 4, (planeOf s.ctl 256 r).passed < 4 := by decide +kernel
/-- A load of 8 bytes by task 0 of glade 256 from the device, into x3. -/
def aReq (addr : Nat) : Req :=
  { storeReq with id := 5, sp := .dev, addr := addr, va := addr, acc := .read 8, stack := 8 }
def net (f : Net → Net) (s : State) : State := { s with ctl := { s.ctl with net := f s.ctl.net } }
def hop (h : Hop) (d : Home) (l : List Req) : State := net (fun n => { n with hops := [⟨h, d, l⟩] }) (on (withOuts [inFlight false false] task0))
def bridged (b : Bridge) : State := net (fun n => { n with bridges := [(8, b)] }) (on (withOuts [inFlight false false] task0))
def fifo (l : List Req) : Bridge := { Bridge.empty with fifo := l }
theorem witness_RequestsTravel_hops : let r := aReq 0x1000
    hopReqs plain.ctl.net (.dieSwitch 0) (.stack 8) = [] ∧
    hopReqs (hop (.gladeRouter 256) (.stack 8) [r]).ctl.net (.gladeRouter 256) (.stack 8) = [r] ∧
    nextHop (hop (.gladeRouter 256) (.stack 8) [r]).ctl (.stack 8) (.gladeRouter 256) = some (.dieSwitch 0) ∧
    hopReqs (hop (.gladeIn 0) (.glade 0) [r]).ctl.net (.gladeIn 0) (.glade 0) = [r] ∧
    nextHop (hop (.gladeIn 0) (.glade 0) [r]).ctl (.glade 0) (.gladeIn 0) = none ∧
    hopReqs (hop (.dieSwitch 2) (.stack 8) [r]).ctl.net (.dieSwitch 2) (.stack 8) = [r] ∧
    nextHop (hop (.dieSwitch 2) (.stack 8) [r]).ctl (.stack 8) (.dieSwitch 2) = none ∧
    (bridgeOf plain.ctl 8).fifo.length < Config.bridgeDepth ∧
    Config.bridgeDepth ≤ (bridgeOf (bridged (fifo (List.replicate Config.bridgeDepth r))).ctl (bridgeAtHop (.dieSwitch 2) (.stack 8))).fifo.length := by decide +kernel
/-- A word of a channel at a hop; a full bridge with and without a service request at its hop; a message the guard drops, with
the record of an earlier one waiting or not. -/
theorem witness_RequestsTravel_lanes : let r := { aReq 0x1000 with svc := false }; let v := { r with svc := true }
    let f := fun (h : Hop) => net (fun n => { n with fly := [{ fly1 2 with dst := 40, hop := some h }] }) plain
    let q := fun (l F : List Req) => net (fun n => { n with hops := [⟨.dieSwitch 2, .stack 8, l⟩] }) (bridged (fifo F))
    let m := { aReq (scrAt 40 0x100) with sp := .rscr }
    let ev : Event := { ring := some 0, tick := 0, d0 := 4, d1 := 0, d2 := 0, d3 := 0, own := none, guard := some (guardOf 256) }
    flyAt plain.ctl (.gladeRouter 0) 40 = [] ∧ (f (.groveSwitch 5)).ctl.net.fly = [{ fly1 2 with dst := 40, hop := some (.groveSwitch 5) }] ∧
    nextHop (f (.groveSwitch (groveOf 40))).ctl (.glade 40) (.groveSwitch (groveOf 40)) = some (.gladeIn 40) ∧
    nextHop plain.ctl (.glade 40) (.gladeRouter 0) = some (.groveSwitch (groveOf 0)) ∧
    (bridgeAtHop (.dieSwitch 2) (.stack 8)) = 8 ∧ Config.bridgeDepth ≤ (List.replicate Config.bridgeDepth r).length ∧
    [r].find? (·.svc) = none ∧ [r, v].find? (·.svc) = some v ∧ (∀ x ∈ List.replicate Config.bridgeDepth r, x.svc = false) ∧
    (∃ x ∈ (q [r, v] [v]).ctl.net.bridges, ∃ y ∈ x.2.fifo, y.svc = true) ∧
    (guardAt (.gladeRouter 256) m && guardDrops plain.ctl m (.glade 40)) = true ∧
    (guardAt (.gladeRouter 256) m && egressHeldFor plain.ctl m (.glade 40)) = false ∧
    (guardAt (.gladeRouter 256) m && egressHeldFor (net (fun n => { n with events := [ev] }) plain).ctl m (.glade 40)) = true := by decide +kernel
/-- A collective message at a hop; a bridge whose replay queue is full; one in which a service request stands. -/
theorem witness_RequestsTravel_colls : let x : CollFly := { src := 0, home := .stand 1, hop := .gladeRouter 0, msg := .probe 9 0 1 }
    let s := net (fun n => { n with colls := [x] }) plain; let r := { aReq 0x1000 with svc := true }
    let b := bridged { Bridge.empty with replay := List.replicate Config.replayDepth r }
    hopReqs s.ctl.net (.gladeRouter 0) (.stand 1) = [] ∧ s.ctl.net.colls = [] ++ x :: [] ∧
    nextHop s.ctl (.stand 1) (.gladeRouter 0) = some (.groveSwitch 0) ∧ Config.replayDepth ≤ (bridgeOf b.ctl 8).replay.length ∧
    (∀ y ∈ (bridgeOf b.ctl 8).fifo, y.svc = false) ∧ [r].find? (·.svc) = some r := by decide +kernel
/-- What a bridge's head meets besides: a word of a message, a home that has moved, a vacated address, a dead link. -/
theorem witness_RequestsTravel_verdicts : let r := aReq 0x1000; let l := { r with acc := .read 64, whole := 4 }; let s := bridged (fifo [r])
    let R := fun (f : Repair → Repair) => { s with ctl := { s.ctl with repair := f s.ctl.repair } }
    let d := { s with ctl := { s.ctl with links := { s.ctl.links with up := [] } } }
    bridgeNext plain.ctl 8 = none ∧ bridgeNext s.ctl 8 = some r ∧ cutReq r = (r, none) ∧ (cutReq l).2.isSome = true ∧
    verdict (bridged (fifo [l])).ctl 8 l = .perform ∧ verdict s.ctl 7 r = .resend ∧ bridgeNext (bridged (fifo [l])).ctl 8 = some l ∧
    verdict (R (fun R => { R with phaseAct := true, rstate := true, rstack := 8, frontier := 0 })).ctl 8
      { r with addr := 11 * Config.stackBytes, va := 11 * Config.stackBytes } = .vacated ∧
    verdict d.ctl 16 { r with addr := 2 ^ 44 } = .lost ∧
    revokedOr s.ctl 8 r (moveVerdict s.ctl 8 r []) = .perform ∧ revokedOr s.ctl 7 r (moveVerdict s.ctl 7 r []) = .resend ∧
    (let k := R (fun r => { r with sref := [8] })
     revokedOr k.ctl 8 r (moveVerdict k.ctl 8 r []) = .stay) := by decide +kernel
theorem witness_RequestsTravel_bridges : let r := aReq 0x1000; let s := bridged (fifo [r])
    let R := fun (f : Repair → Repair) => { s with ctl := { s.ctl with repair := f s.ctl.repair } }
    (bridgeOf plain.ctl 8).fifo = [] ∧ (bridgeOf s.ctl 8).fifo = [r] ∧ verdict s.ctl 8 r = .perform ∧
    verdict (R (fun r => { r with sref := [8] })).ctl 8 r = .stay ∧ verdict (R (fun r => { r with copying := some 0 })).ctl 8 r = .replay ∧
    verdict (bridged { fifo [r] with held := [r] }).ctl 8 { r with svc := false } = .hold ∧
    findOut (s.taskAt 256 0) 5 = some (inFlight false false) ∧ (inFlight false false).left = 1 ∧ (inFlight false false).dest = .x 3 ∧
    whereIs 0x1000 = .dev ∧ (bridgeOf plain.ctl 8).replay = [] ∧
    (let q := bridged { Bridge.empty with replay := [r] }
     (bridgeOf q.ctl 8).replay = [r] ∧ q.ctl.repair.copying ≠ some (0x1000 % 2 ^ 44 / 2 ^ 20)) ∧
    (R (fun r => { r with copying := some 0 })).ctl.repair.copying = some (0x1000 % 2 ^ 44 / 2 ^ 20) := by decide +kernel
theorem witness_RequestsTravel_messages : let r := { aReq (scrAt 256 0x100) with sp := .rscr }
    let s := fun (f : Glade → Glade) => withGlade 256 (f (gladeOne (withOuts [inFlight false false] task0)))
    (plain.gladeAt 256).inbox = [] ∧ Config.rmqDepth ≤ (s (fun G => { G with rmq := List.replicate Config.rmqDepth r })).here.rmq.length ∧
    (s (fun G => { G with inbox := [r] })).here.inbox = [r] ∧ (s (fun G => { G with inbox := [r] })).here.rmq.length < Config.rmqDepth ∧
    (plain.gladeAt 256).rmq = [] ∧ (s (fun G => { G with rmq := [r] })).here.rmq = [r] ∧
    (∀ q ∈ splitMsg r, banksRoom (s (fun G => { G with rmq := [r] })).ctl 256 q = true) ∧
    (∃ q ∈ splitMsg r, banksRoom (s (fun G => { G with rmq := [r], banks := (bankKeys r).map (fun k => (k, List.replicate Config.bankDepth r)) })).ctl 256 q = false) ∧
    Tab.getD (plain.gladeAt 256).returns 3 0 = 0 ∧ Tab.getD (s (fun G => { G with returns := [(3, 2)] })).here.returns 3 0 ≠ 0 ∧
    bankQ plain.ctl 256 64 = [] ∧
    (let b := s (fun G => { G with banks := (bankKeys r).map (fun k => (k, [r])) })
     bankQ b.ctl 256 64 = [r] ∧ ∀ k ∈ bankKeys r, (bankQ b.ctl 256 k).head? = some r) ∧
    (let b := s (fun G => { G with banks := [(64, [r]), (65, [storeReq])] })
     bankQ b.ctl 256 64 = [r] ∧ ∃ k ∈ bankKeys r, (bankQ b.ctl 256 k).head? ≠ some r) := by decide +kernel


/-! ## Engines, collectives, launches, contexts -/

def fillCmd : Cmd := { aCmd 3 (.fill 5) with kb := aKey 0x21 1 2 0 0 0x200 4 4 16 }
def queued (c : Cmd) (f : GladeCtx → GladeCtx) : State :=
  withCtx (fun x => f { x with eng := { x.eng with qs := { Queues.empty with cq0 := [c] } } }) task0
def put0 : Put := { sp := .scr, ea := 0x17FFFC, bytes := [1, 2, 3, 4], poison := false, nib := 0 }
theorem witness_EnginesRun : let s := queued fillCmd id; let b := { fillCmd with begun := true }
    findCmd plain.ctl 256 .cq0 3 = none ∧ findCmd s.ctl 256 .cq0 3 = some fillCmd ∧
    (kQb fillCmd.ka = false ∧ kQb fillCmd.kb = false ∧ kQb fillCmd.kc = false) ∧ fillCmd.begun = false ∧ admits s.ctl 256 = true ∧
    hasTurn s.ctl 256 .cq0 fillCmd = true ∧ storesDrained s.ctl 256 fillCmd = true ∧ copyDone s.ctl 256 fillCmd = true ∧
    findCmd (queued { b with puts := [put0] } id).ctl 256 .cq0 3 = some { b with puts := [put0] } ∧ put0.ea + put0.bytes.length ≤ 0x180000 ∧
    (queued b id).mem.wf = true ∧ findCmd (queued b id).ctl 256 .cq0 3 = some b ∧ b.puts = [] ∧ b.fin = false ∧ isMx (kFmt b.kb) = false ∧
    b.unit < kCount b.kb ∧ engDone b = false ∧ engDone { b with unit := 16 } = true ∧ (s.gladeAt 256).halted = false ∧
    b.flying = false ∧ put0.sp = .scr ∧ put0.nib = 0 ∧ put0.poison = false ∧ 0 < put0.bytes.length ∧ put0.bytes.length ≤ 8 ∧
    (queued b id).ctl.marks.poison = [] ∧ (queued b id).ctl.model.defer = false ∧ ((queued b id).gladeAt 256).banks = [] ∧
    (queued b id).ctl.net.hops = [] ∧ (histOf s.ctl 256 0).src ≠ 1 ∧ (histOf (queued b (fun x => { x with hists := [(0, { Hist.empty with src := 1 })] })).ctl 256 0).src = 1 := by
  decide +kernel
/-- A command bound to a ring that has no slot to read, with its queue and its entry good; and a gathering one that has been opened. -/
theorem witness_EnginesRun_bound : let c := { aCmd 3 (.fill 5) with kb := BitVec.ofNat 512 (2 ^ 31 + (2 ^ 31 + 2 * 2 ^ 16) * 2 ^ 480) }
    let s := queued c (fun x => { x with eng := { x.eng with bufs := [(2, { ring4 with filled := 4, tail := 3 })] } })
    let o := { aCmd 3 .gather with begun := true, opened := true, puts := [put0] }
    findCmd s.ctl 256 .cq0 3 = some c ∧ bindCmd s.ctl 256 c = none ∧
    findCmd (queued o id).ctl 256 .cq0 3 = some o ∧ isRows o = true ∧ o.opened = true ∧ isRows { fillCmd with begun := true } = false ∧
    (queued o id).ctl.marks.latent = [] ∧ fillCmd.cut = false := by decide +kernel
theorem witness_EnginesRun_good (c : Cmd) (us : List CtlUnit) : (queued c id).CtlGood 256 us := good _ _ rfl rfl _
/-- A group of two ranks of this package in slot 2 of glade 0, and its other member in slot 3. -/
def aGroup (reform : Reform) : Group :=
  { live := true, clash := false, reports := [], nranks := 2, myrank := 0, scope := 0, timeout := 10, rtab := 0, tag := 9, ranks := [0, 0]
    stale := false, contribs := [], formed := [], reform := reform }
def member (reform : Reform) : Group := { aGroup reform with myrank := 1 }
def grouped (G : Group) (tick : Nat) (cmds : List Cmd) : State :=
  let s := running (fun x => { x with eng := { x.eng with groups := [(2, G), (3, member (.probe 0 [1] none))], qs := { Queues.empty with xq := cmds } } })
  { s with ctl := { s.ctl with tick := tick } }
def collCmd (op : CmdOp) : Cmd := { aCmd 3 op with begun := true, slot := 2 }
theorem witness_CollectiveRounds_time : let c := collCmd (.coll 0 .add 0)
    groupOf plain.ctl 0 2 = none ∧ groupOf (grouped (aGroup .idle) 0 [c]).ctl 0 2 = some (aGroup .idle) ∧ (aGroup .idle).reform = .idle ∧
    openCmd (grouped (aGroup .idle) 0 [c]).ctl 0 2 = some c ∧ ¬(aGroup .idle).timeout ≤ sinceTick (grouped (aGroup .idle) 9 [c]).ctl c.starts ∧
    openCmd (grouped (aGroup .idle) 10 [c]).ctl 0 2 = some c ∧ (aGroup .idle).timeout ≤ sinceTick (grouped (aGroup .idle) 10 [c]).ctl c.starts ∧
    c.op = .coll 0 .add 0 := by decide +kernel
/-- A group that forms: still short of a rank, whole, late, or with a member that holds another TAG. -/
theorem witness_CollectiveRounds_forms : let c := collCmd (.form 0)
    (∀ p ∈ [(aGroup .idle, 9), ({ aGroup .idle with formed := [0, 1] }, 9), (aGroup .idle, 10), ({ aGroup .idle with clash := true }, 9)],
      groupOf (grouped p.1 p.2 [c]).ctl 0 2 = some p.1 ∧ openCmd (grouped p.1 p.2 [c]).ctl 0 2 = some c) ∧ c.op = .form 0 ∧
    (aGroup .idle).clash = false ∧ (aGroup .idle).formed.length ≠ (aGroup .idle).nranks ∧
    { aGroup .idle with formed := [0, 1] }.formed.length = (aGroup .idle).nranks ∧
    ¬(aGroup .idle).timeout ≤ sinceTick (grouped (aGroup .idle) 9 [c]).ctl c.starts ∧
    (aGroup .idle).timeout ≤ sinceTick (grouped (aGroup .idle) 10 [c]).ctl c.starts := by decide +kernel
theorem witness_CollectiveRounds_phases : let s := grouped (aGroup (.probe 0 [0] none)) 10 []
    groupOf s.ctl 0 2 = some (aGroup (.probe 0 [0] none)) ∧ (aGroup .idle).timeout ≤ sinceTick s.ctl 0 ∧ 1 < (aGroup .idle).nranks ∧
    ¬(aGroup .idle).timeout ≤ sinceTick (grouped (aGroup (.probe 0 [0] none)) 9 []).ctl 0 ∧
    groupOf (grouped (aGroup (.report 0 [1])) 10 []).ctl 0 2 = some (aGroup (.report 0 [1])) ∧ [1].head? ≠ some (aGroup .idle).myrank ∧
    entStand (((aGroup .idle).ranks[1]?).getD 0).toNat = myStand s.ctl ∧ entPkg (((aGroup .idle).ranks[1]?).getD 0).toNat = myPkg s.ctl ∧
    memberGlade s.ctl 0 0 = some 0 ∧ (0, 3) ∈ rankSlots s.ctl 0 9 1 ∧ groupOf s.ctl 0 3 = some (member (.probe 0 [1] none)) ∧
    egressHeld s.ctl 0 (aGroup (.probe 0 [0] none)).ranks = false ∧ egressHeld (grouped (aGroup (.report 0 [1])) 10 []).ctl 0 (aGroup .idle).ranks = false := by decide +kernel
/-- A member's messages are held: the guard's record waits, and rank 1 is of a package that PEER does not list. -/
theorem witness_CollectiveRounds_held : let G := { aGroup (.probe 0 [0] none) with ranks := [0, 256] }; let s := grouped G 10 []
    let s := { s with ctl := { s.ctl with net := { s.ctl.net with events := [
      { ring := some 0, tick := 0, d0 := evHead 1 0 0 0x12 4, d1 := 0, d2 := 0, d3 := 0, guard := some (guardOf 0) }] } } }
    groupOf s.ctl 0 2 = some G ∧ ¬egressHeld s.ctl 0 G.ranks = false := by decide +kernel
theorem witness_CollectiveRounds_results : let c := collCmd (.reform 0); let s := grouped (aGroup (.result 0)) 10 [c]
    groupOf s.ctl 0 2 = some (aGroup (.result 0)) ∧ waitingResult s.ctl 0 2 = true ∧ reformCmd s.ctl 0 2 = some c ∧
    (aGroup (.result 0)).myrank ∈ [1, 0].foldl insertRank [] ∧ (aGroup (.result 0)).myrank ∉ [1].foldl insertRank [] ∧
    (aGroup .idle).timeout ≤ sinceTick s.ctl 0 ∧ ¬(aGroup .idle).timeout ≤ sinceTick (grouped (aGroup (.result 0)) 9 [c]).ctl 0 ∧
    memberOf s.ctl 0 9 0 = [(0, 2)] ∧ memberOf plain.ctl 0 9 0 = [] ∧
    (let p := grouped (aGroup (.probe 0 [0] (some 9))) 9 []
     memberOf p.ctl 0 9 0 = [(0, 2)] ∧ groupOf p.ctl 0 2 = some (aGroup (.probe 0 [0] (some 9))) ∧ waitingResult p.ctl 0 2 = false ∧
     ¬(sinceTick p.ctl 9 < (aGroup .idle).timeout / 16) ∧ ¬(aGroup .idle).timeout ≤ sinceTick p.ctl 0) ∧
    (let q := { aGroup (.probe 0 [0] (some 9)) with timeout := 160 }
     groupOf (grouped q 9 []).ctl 0 2 = some q ∧ sinceTick (grouped q 9 []).ctl 9 < q.timeout / 16) := by decide +kernel
/-- Partition 0 with these launches and room for 8 images, the page table in memory; launch 1 owns the glades of its map. -/
def parted (ls : Tab Launch) (f : Part → Part) : State :=
  { State.reset with
    mem := tree
    ctl := { State.reset.ctl with
      parts := [(0, f { part0 (launch0 .ready) with launches := ls, sched := { PartSched.reset with next := 3, ptroot := 0x10000 }
                                                    trap := { PartTrap.reset with ctxlen := 8 } })] } }
def whole : LRec := { rec0 with glades := 8, binds := List.replicate 32 (0, 0, 0) }
def wideL (st : LState) (prio : Nat) : Launch := { Launch.fresh whole with st := st, eprio := prio }
def allGroves : State :=
  let s := parted [(1, { wideL .running 0 with map := (List.range 8).map (fun k => (k, k)) }), (2, wideL .ready 1)] id
  { s with ctl := { s.ctl with glades := (List.range 8).map (fun k => (k, { Glade.reset with owner := some ⟨0, 1, k⟩ })) } }
def lf (v : Word) (P : Part) : Part := { P with sched := { P.sched with lfault := v } }
theorem witness_LaunchLifecycle_picks : State.reset.launch 0 1 = none ∧ pick State.reset.ctl 0 = none ∧ preemptFor State.reset.ctl 0 = none ∧
    pick allGroves.ctl 0 = none ∧ preemptFor allGroves.ctl 0 = some [1] ∧ pick (parted [(1, wideL .ready 0)] id).ctl 0 = some (1, none) ∧
    (parted [(1, wideL .ready 0)] id).launch 0 1 = some (wideL .ready 0) := by decide +kernel
theorem witness_LaunchLifecycle_turns : let L := wideL .running 0; let s := parted [(1, L)] id
    s.launch 0 1 = some L ∧ sinceTick s.ctl L.since < (s.part 0).sched.quantum ∧ L.quantumUp = false ∧
    (s.part 0).sched.quantum ≤ sinceTick { s with ctl := { s.ctl with tick := 500000 } }.ctl L.since ∧ L.yielded = false ∧
    (let Y := { L with yielded := true, map := (List.range 8).map (fun k => (k, k)) }
     let y := parted [(1, Y)] id
     y.launch 0 1 = some Y ∧ Y.stopping = false ∧ Y.map.length ≤ freeSlots (y.part 0) ∧ Y.rotated = none) := by decide +kernel
/-- The leaf a walk found, and whether what came to nothing has to wait. -/
def leafOf : Except XErr Leaf → Option Leaf
  | .ok f => some f
  | .error _ => none
def errOf {α : Type} : Except XErr α → Option Bool
  | .ok _ => none
  | .error x => some (decide (x = .wait))
def leasingL (walked : Bool) : Launch := { wideL .leasing 0 with rec_ := { whole with ranges := [(0, 2, 3), (0x10000000, 1, 3)] }, walked := walked }
theorem witness_LaunchLifecycle_leases : let L := leasingL false; let M := { L with walk := (1, 0) }
    let s := parted [(1, L)] id; let t := parted [(1, M)] id
    (parted [(1, L)] (lf 0x8000000000000000)).launch 0 1 = some L ∧ ((parted [(1, L)] (lf 0x8000000000000000)).part 0).sched.lfault.getLsbD 63 = true ∧
    s.launch 0 1 = some L ∧ (s.part 0).sched.lfault.getLsbD 63 = false ∧
    (spansOf L.rec_)[L.walk.1]? = some ⟨0, 2, 3, false, 0⟩ ∧ (spansOf M.rec_)[M.walk.1]? = some ⟨0x10000000, 1, 3, false, 1⟩ ∧
    leafOf (schedLeaf (Work.start s) 0 1 0).1 = some ⟨0x20000, 0x001000000000000F, 28⟩ ∧
    leafReason s.ctl 0 3 0 ⟨0x20000, 0x001000000000000F, 28⟩ = none ∧ errOf (schedLeaf (Work.start t) 0 1 0x10000000).1 = some false ∧
    leafReason s.ctl 0 7 0 ⟨0x20000, 0x001000000000000B, 28⟩ = some 2 ∧
    (let z := { s with ctl := { s.ctl with repair := { s.ctl.repair with sref := List.range 12 } } }
     errOf (schedLeaf (Work.start z) 0 1 0).1 = some true ∧ z.ctl.repair.sref ≠ []) := by decide +kernel
/-- A launch that has ended but for its completion word, which waits for the memory. -/
theorem witness_LaunchLifecycle_fini : ∀ st ∈ [LState.leasing, .ready], let L := { wideL st 0 with fini := some (2, 0) }
    (parted [(1, L)] id).launch 0 1 = some L ∧ L.fini ≠ none ∧ L.st ≠ .running := by decide +kernel
theorem witness_LaunchLifecycle_dispatch : let L := leasingL true; let s := parted [(1, L)] id
    let B := { L with rec_ := { L.rec_ with keyva := 0x10000000 } }; let b := parted [(1, B)] id
    s.launch 0 1 = some L ∧ L.walked = true ∧ pick s.ctl 0 = some (1, none) ∧ placement s.ctl 0 L.rec_ [] = some [0, 1, 2, 3, 4, 5, 6, 7] ∧
    (match (loadImages (Work.start s) 0 1 L.rec_).1 with
      | .ok im => decide (∀ x ∈ im.planes, x = [])
      | .error _ => false) = true ∧
    entStart (launchEntry L.rec_ 0) = true ∧ entSleep (launchEntry L.rec_ 0) = false ∧
    pick b.ctl 0 = some (1, none) ∧ errOf (loadImages (Work.start b) 0 1 B.rec_).1 = some false ∧
    (let z := { b with ctl := { b.ctl with repair := { b.ctl.repair with sref := List.range 12 } } }
     pick z.ctl 0 = some (1, none) ∧ errOf (loadImages (Work.start z) 0 1 B.rec_).1 = some true) := by decide +kernel
/-- Launch 1 on glades 0 to 7, each without a task or with a runnable one. -/
def onGroves (L : Launch) (G : Nat → Glade → Glade) : State :=
  let s := parted [(1, { L with map := (List.range 8).map (fun k => (k, k)) })] id
  { s with ctl := { s.ctl with glades := (List.range 8).map (fun k => (k, G k { Glade.reset with owner := some ⟨0, 1, k⟩ })) } }
/-- A record of task 0 of launch 1 that has not been written. -/
def waitingRecord : Event := { ring := some 0, tick := 0, own := some (0, 0, 0), d0 := 0x100000001, d1 := 0, d2 := 0, d3 := 0 }
def busyAt (k : Nat) (G : Glade) : Glade := if k = 0 then { G with ctx := { G.ctx with tasks := [(0, userTask [])] } } else G
def credited (G : Glade) : Glade :=
  { G with ctx := { G.ctx with net := { G.ctx.net with credits := (List.range 8).map (fun k => (k, 64)) } } }
theorem witness_LaunchLifecycle_waves : let s := onGroves (wideL .running 0) (fun _ G => credited G); let b := onGroves (wideL .running 0) busyAt
    (s.launch 0 1).map (fun l => decide (l.st = .running ∧ l.map.length = gladesOf l.rec_ ∧ l.wave = none ∧ l.map.map (·.2) = [0, 1, 2, 3, 4, 5, 6, 7])) = some true ∧
    (∃ g ∈ [0, 1, 2, 3, 4, 5, 6, 7], gladeIdle b.ctl [0, 1, 2, 3, 4, 5, 6, 7] (creditStart 8) g = false) ∧
    (∀ g ∈ [0, 1, 2, 3, 4, 5, 6, 7], gladeIdle s.ctl [0, 1, 2, 3, 4, 5, 6, 7] (creditStart 8) g = true) ∧ recordsWait s.ctl 0 1 = false ∧
    recordsWait { b with ctl := { b.ctl with net := { b.ctl.net with events := [waitingRecord] } } }.ctl 0 1 = true ∧
    storesDone s.ctl [0, 1, 2, 3, 4, 5, 6, 7] = true ∧
    storesDone (onGroves (wideL .running 0) (fun k G => if k = 0 then { credited G with ctx := { G.ctx with tasks := [(0, withOuts [inFlight true false] { userTask [] with run := .retired })] } } else credited G)).ctl [0, 1, 2, 3, 4, 5, 6, 7] = false ∧
    (s.gladeAt 0).ctx.net.sent = (s.gladeAt 0).ctx.net.recv ∧ ((onGroves { wideL .running 0 with wave := some (0, 0) } (fun _ G => G)).launch 0 1).map (·.wave) = some (some (0, 0)) := by
  decide +kernel
theorem witness_LaunchLifecycle_ends : let s := onGroves (wideL .ending 0) (fun _ G => { G with halted := true })
    (1 : BitVec 64).toNat % 2 ^ 32 = 1 ∧ LState.ready ∈ [LState.waitdep, .ready, .leasing, .preempted] ∧
    (let f := parted [(1, leasingL false)] (lf 0x8000000000000001)
     (f.part 0).sched.lfault.getLsbD 63 = true ∧ (f.part 0).sched.lfault.toNat % 2 ^ 32 = 1 ∧ f.launch 0 1 = some (leasingL false) ∧ faultWaits f.ctl 0 1 = false ∧
     faultWaits { f with ctl := { f.ctl with net := { f.ctl.net with events := [{ waitingRecord with d0 := 0x100000003 }] } } }.ctl 0 1 = true) ∧
    (1 : BitVec 64).getLsbD 0 = true ∧ (0 : BitVec 64).getLsbD 0 = false ∧
    (s.launch 0 1).map (fun l => decide (l.st = .ending ∧ l.saved = []) && launchAtStop s.ctl l) = some true ∧
    recordsWait s.ctl 0 1 = false ∧ (∀ g < 8, (s.gladeAt g).ctx.tasks = []) ∧
    recordsWait { s with ctl := { s.ctl with net := { s.ctl.net with events := [waitingRecord] } } }.ctl 0 1 = true ∧
    ((parted [] id).part 0).sched.lfault.getLsbD 63 = false := by decide +kernel
def loadAt : Out := { inFlight false false with pc := 0xF8 }
def stoppingL (L : Launch) : Launch := { L with stopping := true }
theorem witness_Contexts_stop : let G := fun k (G : Glade) => if k = 0 then { G with ctx := { G.ctx with tasks := [(0, withOuts [loadAt] (userTask []))] } } else G
    let s := onGroves (stoppingL (wideL .running 0)) G; let h := onGroves (stoppingL (wideL .running 0)) (fun _ G => { G with halted := true })
    (plain.gladeAt 256).owner = none ∧ (h.gladeAt 0).halted = true ∧ (s.gladeAt 0).owner = some ⟨0, 1, 0⟩ ∧ (s.gladeAt 0).halted = false ∧
    (s.launch 0 1).map (·.stopping) = some true ∧ ((onGroves (wideL .running 0) G).launch 0 1).map (·.stopping) = some false ∧
    (s.taskAt 0 0).fl.outs = [loadAt] ∧ loadAt.store = false ∧ loadAt.last = true ∧
    (h.launch 0 1).map (fun l => decide (l.st = .running ∧ l.rotate = false ∧ Tab.find l.map 0 = some 0) && l.map.all (fun m => atStop h.ctl m.2)) = some true ∧
    openSlots (h.part 0) = [0, 1, 2, 3, 4, 5, 6, 7] ∧ h.mem.wf = true ∧ h.ctl.marks.poison = [] ∧ h.ctl.marks.latent = [] ∧ h.ctl.marks.soft = [] := by
  decide +kernel
/-- The save slots, and so the images in them, with every stack asleep. -/
def asleepAll (s : State) : State := { s with ctl := { s.ctl with repair := { s.ctl.repair with sref := List.range 12 } } }
theorem witness_Contexts_waits : let h := onGroves (stoppingL (wideL .running 0)) (fun _ G => { G with halted := true })
    let L := { wideL .preempted 0 with saved := [(0, { slot := 0, ctx := GladeCtx.empty, cells := [], acc := [], accPoison := [], tiles := [] })] }
    let s := parted [(1, L)] id
    spanMeets h.ctl (slotAddr h.ctl 0 0) Config.slotBytes ≠ .wait ∧ spanMeets (asleepAll h).ctl (slotAddr h.ctl 0 0) Config.slotBytes = .wait ∧
    openSlots ((asleepAll h).part 0) = [0, 1, 2, 3, 4, 5, 6, 7] ∧ (h.gladeAt 0).ctlBad = [] ∧ (h.gladeAt 0).ctlSoft = [] ∧
    s.launch 0 1 = some L ∧ (∀ x ∈ L.saved, spanMeets s.ctl (slotAddr s.ctl 0 x.2.slot) (imageSize L x.2) = .clear) ∧
    imagesWait (asleepAll s).ctl 0 L = true ∧ (asleepAll s).launch 0 1 = some L ∧ pick s.ctl 0 = some (1, none) ∧
    errOf (walk (Work.start (asleepAll s)) (some schedCache) 0 (ptRoot s.ctl 0) 0).1 = some true ∧
    errOf (walk (Work.start s) (some schedCache) 0 (ptRoot s.ctl 0) 0x10000000).1 = some false := by decide +kernel
theorem witness_Contexts_restore : let s := parted [(1, wideL .preempted 0)] id
    s.launch 0 1 = some (wideL .preempted 0) ∧ pick s.ctl 0 = some (1, none) ∧ placement s.ctl 0 (wideL .preempted 0).rec_ [] = some [0, 1, 2, 3, 4, 5, 6, 7] ∧
    (wideL .preempted 0).faults = 0 ∧ (wideL .running 0).st ≠ .preempted ∧
    leafOf (walk (Work.start s) (some schedCache) 0 (ptRoot s.ctl 0) 0).1 = some ⟨0x20000, 0x001000000000000F, 28⟩ ∧
    (0x001000000000000F : Nat).testBit 4 = false ∧ pte (Work.start s) 0x20000 = 0x001000000000000F ∧
    (let d := { s with mem := [(0x10000, 1), (0x10002, 2), (0x20000, 0x3F), (0x20006, 0x10)] }
     leafOf (walk (Work.start d) (some schedCache) 0 (ptRoot d.ctl 0) 0).1 = some ⟨0x20000, 0x001000000000003F, 28⟩) ∧
    (0x001000000000003F : Nat).testBit 5 = true ∧ leafOf (walk (Work.start s) (some schedCache) 0 (ptRoot s.ctl 0) 0x10000000).1 = none ∧ s.ctl.marks.spans = [] ∧ s.mem.wf = true ∧
    0x20000 + 8 ≤ 2 ^ 52 := by decide +kernel
def anEvent (tick : Nat) : Event := { ring := some 0, tick := tick, d0 := 1, d1 := 2, d2 := 3, d3 := 4 }
def ringing (evlen : Nat) (e : Event) : State :=
  let s := parted [] (fun P => { P with trap := { P.trap with evbase := 0x60000, evlen := evlen } })
  { s with ctl := { s.ctl with tick := 1, net := { s.ctl.net with events := [e] } } }
theorem witness_Contexts_rings : let L := { launch0 .running with exts := [ext0 false, { ext0 false with va := 0x10000, indexed := true, pa := 0x70000 }] }
    let s := launched L id (userTask [])
    ownLaunch plain.ctl 256 = none ∧ ownLaunch s.ctl 0 = some L ∧ (findExtent L false 0).or (findExtent L true 0) = some (0, ext0 false) ∧
    (findExtent L false 0x50000).or (findExtent L true 0x50000) = none ∧ (findExtent L false 0x10000).or (findExtent L true 0x10000) = some (1, { ext0 false with va := 0x10000, indexed := true, pa := 0x70000 }) ∧ (s.gladeAt 0).pvc = [] ∧
    (∀ e ∈ plain.ctl.net.events, e.ring ≠ some 0) ∧ ringFull (ringing 0 (anEvent 0)).ctl (some 0) = true ∧
    (ringing 4 (anEvent 0)).ctl.net.events.find? (fun e => decide (e.ring = some 0)) = some (anEvent 0) ∧ ringFull (ringing 4 (anEvent 0)).ctl (some 0) = false ∧
    (ringing 4 (anEvent 0)).ctl.tick ≠ (anEvent 0).tick ∧ (ringing 4 (anEvent 1)).ctl.tick = (anEvent 1).tick ∧
    devMeets (ringing 4 (anEvent 0)).ctl 0x60000 = .clear ∧ ringBase (ringing 4 (anEvent 0)).ctl (some 0) = 0x60000 ∧
    (let r := fun (f : Repair → Repair) => let s := ringing 4 (anEvent 0); { s with ctl := { s.ctl with repair := f s.ctl.repair } }
     devMeets (r (fun x => { x with sref := List.range 12 })).ctl 0x60000 = .wait ∧
     devMeets (r (fun x => { x with phaseAct := true, live := 1, frontier := 0 })).ctl 0x60000 = .gone) ∧
    (ringBase (ringing 4 (anEvent 0)).ctl (some 0)).toNat + 32 * ((ringTail (ringing 4 (anEvent 0)).ctl (some 0)).toNat % 2 ^ ringLog (ringing 4 (anEvent 0)).ctl (some 0)) + 32 ≤ 2 ^ 52 ∧
    (ringing 4 (anEvent 0)).ctl.marks.spans = [] ∧ (ringing 4 (anEvent 0)).mem.wf = true := by decide +kernel


/-! ## Time, debugger, partitions, repair, power, boot, keys; the step -/

theorem witness_TimebaseTick : let l := { plain with ctl := { plain.ctl with power := { plain.ctl.power with lostRef := true } } }
    let p := fun (b : Bool) => ((withGlade 3 { Glade.reset with power := { Power.reset with changing := some true, tripPend := b } }).gladeAt 3).power
    let e := { plain with ctl := { plain.ctl with tick := 1048575 } }
    l.ctl.power.lostRef = true ∧ plain.ctl.power.lostRef = false ∧ plain.ctl.elog.pend = [] ∧ plain.ctl.power.due = false ∧
    (plain.ctl.tick + 1) / 1048576 = plain.ctl.power.win ∧ (e.ctl.tick + 1) / 1048576 ≠ e.ctl.power.win ∧
    (p false).changing = some true ∧ (p false).tripPend = false ∧ (p true).changing = some true ∧ (p true).tripPend = true := by decide +kernel
def heldBy (sup dbg : Bool) (f : Task → Task) : State :=
  let s := launched (launch0 .running) id (f { userTask [] with held := some ⟨aCause 0xD, sup, dbg⟩ })
  { s with ctl := { s.ctl with
    dbg := { s.ctl.dbg with sel := 1 }
    parts := [(0, { part0 (launch0 .running) with trap := { PartTrap.reset with tsel := 1 } })] } }
def chosenTask (s : State) : Option Task := match dbgTask s.ctl with
  | some (.loaded 0 0, T) => some T
  | _ => none
def pickedTask (s : State) : Option Task := match findSel s.ctl 0 (s.part 0).trap.tsel true with
  | some (.loaded 0 0, T) => some T
  | _ => none
theorem witness_DebugPort : let at_ := fun (T : Task) => { T with dbg := { T.dbg with attach := true } }
    dbgTask plain.ctl = none ∧ findSel plain.ctl 0 (plain.part 0).trap.tsel true = none ∧
    (chosenTask (heldBy false true id)).map (·.held) = some (some ⟨aCause 0xD, false, true⟩) ∧
    (chosenTask (heldBy true true id)).map (·.held) = some (some ⟨aCause 0xD, true, true⟩) ∧
    (chosenTask (heldBy false true (fun T => { T with run := .retired }))).map (·.run) = some .retired ∧
    (chosenTask (heldBy false true (fun T => { T with held := none }))).map (fun T => decide (T.held = none ∧ T.run ≠ .retired ∧ T.dbg.attach = false)) = some true ∧
    (chosenTask (heldBy false true at_)).map (fun T => decide (T.dbg.attach = true ∧ T.run = .runnable)) = some true ∧
    (chosenTask (heldBy false true (fun T => { at_ T with run := .sleeping (.lwait 1 3) }))).map (·.run) = some (.sleeping (.lwait 1 3)) ∧
    (pickedTask (heldBy true false id)).map (·.held) = some (some ⟨aCause 0xD, true, false⟩) ∧
    (pickedTask (heldBy true true id)).map (·.held) = some (some ⟨aCause 0xD, true, true⟩) ∧
    (pickedTask (heldBy true true (fun T => { T with held := none }))).map (·.held) = some none := by decide +kernel
/-- Its record is written, its launch is not stopping; or the record waits, or the launch stops. -/
theorem witness_DebugPort_waits : let s := heldBy false true id; let T := s.taskAt 0 0
    let e := { s with ctl := { s.ctl with net := { s.ctl.net with events := [waitingRecord] } } }
    let h := { s with ctl := { s.ctl with parts := [(0, { part0 (stoppingL (launch0 .running)) with trap := { PartTrap.reset with tsel := 1 } })] } }
    selWaits s.ctl (.loaded 0 0, T) = false ∧ (ownLaunch s.ctl 0).any (·.stopping) = false ∧ selWaits e.ctl (.loaded 0 0, T) = true ∧
    (chosenTask e).isSome = true ∧ (pickedTask e).isSome = true ∧ (ownLaunch h.ctl 0).any (·.stopping) = true ∧ (chosenTask h).isSome = true ∧ T.pend = none := by decide +kernel
theorem witness_DebugPort_port : let d := fun (f : DbgCtl → DbgCtl) => { plain with ctl := { plain.ctl with dbg := f plain.ctl.dbg } }
    (d (fun x => { x with pbusy := true })).ctl.dbg.pbusy = true ∧ plain.ctl.dbg.pbusy = false ∧ plain.ctl.dbg.auth = false ∧
    (d (fun x => { x with auth := true })).ctl.dbg.auth = true ∧ portReg (0x040 : BitVec 12).toNat = false ∧ portReg (0x140 : BitVec 12).toNat = true ∧
    (0x140 : BitVec 12) ≠ 0x300 ∧ (0x100000000000 : BitVec 64).getLsbD 44 = true ∧ 4 < (5 : BitVec 4).toNat := by decide +kernel
theorem witness_PartitionsAndPorts : let s := launched (launch0 .running) id (userTask [])
    let P := fun (f : PartTen → PartTen) (own : Bool) => { s with ctl := { s.ctl with
      parts := [(0, { part0 (launch0 .running) with ten := f (part0 (launch0 .running)).ten }), (1, { Part.reset with ten := { PartTen.reset with pgroves := 1 } })]
      glades := if own then s.ctl.glades else [] } }
    let g := P (fun t => { t with pgroves := 0 }) false
    (plain.part 0).ten.groves.getLsbD 0 = false ∧ (s.part 0).ten.pgroves.getLsbD 0 = true ∧
    (List.range 8).any (fun k => decide (((s.gladeAt (8 * 0 + k)).owner.map (·.part)) = some 0)) = true ∧
    (g.part 0).ten.groves.getLsbD 0 = true ∧ (g.part 0).ten.pgroves.getLsbD 0 = false ∧
    (List.range 8).any (fun k => decide (((g.gladeAt (8 * 0 + k)).owner.map (·.part)) = some 0)) = false ∧
    1 ∈ g.ctl.parts.map (·.1) ∧ (g.part 1).ten.pgroves.getLsbD 0 = true ∧
    ((1 : BitVec 64).toNat / 2 ^ 32 % 2 ^ 12 = 0 ∧ 0 < (1 : BitVec 64).toNat % 2 ^ 13) ∧
    4096 < (0xFFF00000002 : BitVec 64).toNat / 2 ^ 32 % 2 ^ 12 + (0xFFF00000002 : BitVec 64).toNat % 2 ^ 13 ∧
    ¬(4096 < (0xFFF00000001 : BitVec 64).toNat / 2 ^ 32 % 2 ^ 12 + (0xFFF00000001 : BitVec 64).toNat % 2 ^ 13) ∧
    (plain.part 0).ten.mbbell.getLsbD 63 = false ∧
    (let b := P (fun t => { t with mbbell := 0x800000000017FFFC }) true
     (b.part 0).ten.mbbell.getLsbD 63 = true ∧ (b.part 0).ten.mbbell.toNat / 4 % 2 ^ 19 * 4 < 1572864 ∧ b.mem.wf = true) ∧
    1572864 ≤ (0x8000000000180000 : BitVec 64).toNat / 4 % 2 ^ 19 * 4 := by decide +kernel
def frame0 : EthFrame := { v6 := false, mac := 0x123456789ABC, ip := 0x200000000000000001, udp := 0x1000, part := 0, msg := .contrib 9 0 1 ⟨0, .add, 0x21, 0, 0, true⟩ [] [] }
theorem witness_PartitionsAndPorts_links : let L := { plain.ctl.links with ethcfg := 0x1000, ethmac := Vector.replicate 2 0x123456789ABC, ethip0 := Vector.replicate 2 1, ethip1 := Vector.replicate 2 0x20 }
    let down := { plain with ctl := { plain.ctl with links := { plain.ctl.links with up := [] } } }
    18 ∉ down.ctl.links.up ∧ 18 ∈ plain.ctl.links.up ∧ 17 ∉ down.ctl.links.up ∧ 17 ∈ plain.ctl.links.up ∧ (18 ≠ 16 ∧ 18 ≠ 17) ∧ plain.ctl.boot.ports.testBit 18 = true ∧ plain.ctl.boot.villum.testBit (22 - 19) = true ∧
    ({ plain with ctl := { plain.ctl with boot := { plain.ctl.boot with ports := 0 } } }).ctl.boot.ports.testBit 18 = false ∧
    (17 ∈ L.up ∧ frame0.v6 = L.ethcfg.getLsbD 16 ∧ frame0.udp.toNat = L.ethcfg.toNat % 65536 ∧ frame0.mac.toNat = ((L.ethmac.toList[1]?).getD 0).toNat % 2 ^ 48 ∧
      frame0.ip.toNat = ((L.ethip0.toList[1]?).getD 0).toNat + ((L.ethip1.toList[1]?).getD 0).toNat * 2 ^ 64) ∧
    ¬((18 = 16 ∨ 18 = 17) ∧ 18 ∈ L.up) := by decide +kernel
/-- Table traffic for launch 1 of partition 0, at an address its extent 0 maps. -/
theorem witness_PartitionsAndPorts_table : let q := running id
    let s := { q with ctl := { q.ctl with links := { q.ctl.links with ethcfg := 0x1000, ethmac := Vector.replicate 2 0x123456789ABC, ethip0 := Vector.replicate 2 1, ethip1 := Vector.replicate 2 0x20 } } }
    17 ∈ s.ctl.links.up ∧ frame0.udp.toNat = s.ctl.links.ethcfg.toNat % 65536 ∧ s.launch 0 1 = some (launch0 .running) ∧
    (match checkLaunch (Work.start s) ((((launch0 .running).map.head?).map (·.2)).getD 0) (launch0 .running) 0 .write with
      | .ok _ => true
      | .error _ => false) = true := by decide +kernel
theorem witness_Repairs : let R := fun (f : Repair → Repair) (n : Net) => { plain with ctl := { plain.ctl with repair := f plain.ctl.repair, net := n } }
    let act := fun (r : Repair) => { r with phaseAct := true, frontier := 1, rstack := 3 }
    let s := R act plain.ctl.net; let q := R act (bridged (fifo [aReq 0x1000])).ctl.net
    plain.ctl.repair.phaseAct = false ∧ s.ctl.repair.phaseAct = true ∧ s.ctl.repair.live.testBit 3 = true ∧ s.ctl.repair.sref = [] ∧
    (¬∃ n, n < 12 ∧ s.ctl.repair.live.testBit n = true ∧ n ∈ s.ctl.repair.sref) ∧ 0 < s.ctl.repair.frontier ∧ s.ctl.repair.copying = none ∧
    (∃ b ∈ q.ctl.net.bridges, b.1 < 12 ∧ ∃ x ∈ b.2.fifo, x.addr % 2 ^ 44 / 2 ^ 20 = q.ctl.repair.frontier - 1) ∧ s.ctl.net.bridges = [] ∧ s.ctl.net.hops = [] ∧
    (let p := R act (hop (.dieSwitch 0) (.stack 3) [{ aReq 0x1000 with whole := 1 }]).ctl.net
     ∃ q ∈ routed p.ctl, ownDev p.ctl q.addr = true ∧ q.addr % 2 ^ 44 / 2 ^ 20 = p.ctl.repair.frontier - 1 ∧ partDone p.ctl q = true) ∧
    (R (fun r => { act r with copying := some 0 }) plain.ctl.net).ctl.repair.copying = some 0 ∧
    1 < (R (fun r => { act r with frontier := 2, copying := some 1 }) plain.ctl.net).ctl.repair.frontier ∧
    (R (fun r => { r with sref := [3] }) plain.ctl.net).ctl.repair.sref = [3] ∧
    (R (fun r => { act r with sref := [3] }) plain.ctl.net).ctl.repair.live.testBit 3 = true ∧ plain.ctl.repair.live.testBit 12 = false := by decide +kernel
theorem witness_RailsAndPower : let s := fun (p : Power) (t : Nat) => { withGlade 255 { Glade.reset with power := p } with ctl := { (withGlade 255 { Glade.reset with power := p }).ctl with tick := t } }
    let low := { Power.reset with lowReq := true }
    255 < 256 ∧ (1 : BitVec 64).getLsbD 0 = true ∧ (0 : BitVec 64).getLsbD 0 = false ∧ plain.ctl.power.due = false ∧
    ({ plain with ctl := { plain.ctl with power := { plain.ctl.power with due := true } } }).ctl.power.due = true ∧ ((s Power.reset 0).gladeAt 255).power.lowReq = false ∧ ((s low 0).gladeAt 255).power.lowReq = true ∧
    barLeft (s low 0).ctl.tick ((s low 0).gladeAt 255).power = 0 ∧ ((s low 0).gladeAt 255).power.ceLast < (s low 0).ctl.power.cethr ∧
    barLeft 0 ((s { low with barTo := 1 } 0).gladeAt 255).power ≠ 0 ∧
    (s low 0).ctl.power.cethr ≤ ((s { low with ceLast := 4 } 0).gladeAt 255).power.ceLast ∧
    (∀ b ∈ [false, true], ((s { low with changing := some true, tripPend := b } 0).gladeAt 255).power.changing = some true ∧
      ((s { low with changing := some true, tripPend := b } 0).gladeAt 255).power.tripPend = b) ∧ ((s low 0).gladeAt 255).power.changing = none ∧
    (plain.ctl.tick + 0) / 1048576 = plain.ctl.power.win ∧ (let e := (s low 1048574).ctl; (e.tick + 2) / 1048576 ≠ e.power.win) ∧
    plain.ctl.power.spare = false ∧ plain.ctl.power.spareOk = true ∧ 256 ∈ plain.ctl.glades.map (·.1) ∧ 3 < 4 ∧ 95 ≤ 95 ∧ 94 < 95 := by decide +kernel
theorem witness_BootAndService : let b := { plain with ctl := { plain.ctl with boot := { plain.ctl.boot with code := 1, load := (0x1000, 100) } } }
    let m := { plain with ctl := { plain.ctl with boot := { plain.ctl.boot with mgmt := 0 } } }
    b.ctl.boot.code = 1 ∧ b.ctl.boot.mgmt ≠ 0 ∧ b.ctl.boot.load.2 ≤ 2 ^ 26 ∧ b.ctl.boot.load.1.toNat + b.ctl.boot.load.2 ≤ 2 ^ 52 ∧
    (∃ d < 4, b.ctl.boot.mgmt.testBit d = true) ∧ b.ctl.marks.poison = [] ∧ b.ctl.marks.latent = [] ∧ b.ctl.marks.soft = [] ∧ b.ctl.marks.spans = [] ∧
    b.mem.wf = true ∧ m.ctl.boot.mgmt = 0 ∧ (1 : BitVec 64).getLsbD 0 = true ∧ (0 : BitVec 64).getLsbD 0 = false ∧
    ({ b with ctl := { b.ctl with boot := { b.ctl.boot with code := 2 } } }).ctl.boot.code = 2 ∧
    ({ b with ctl := { b.ctl with boot := { b.ctl.boot with ports := 0 } } }).ctl.boot.ports.testBit 18 = false ∧ plain.ctl.boot.code ≠ 1 ∧ plain.ctl.boot.code ≠ 2 ∧
    plain.ctl.boot.ports.testBit 18 = true ∧ 255 / 64 < 4 ∧ m.ctl.boot.mgmt.testBit 0 = false ∧ plain.ctl.boot.mgmt.testBit 0 = true ∧
    ((plain.taskAt 256 0).run ≠ .free ∧ (plain.taskAt 256 0).run ≠ .retired) ∧ (State.reset.taskAt 256 0).run = .free ∧
    slotBusy plain.ctl 256 0 = true ∧ slotBusy State.reset.ctl 256 0 = false := by decide +kernel
/-- Whatever the host answers, and whether the management glades agree or not, one of the two outcomes holds. -/
theorem witness_BootAndService_cases (n : Nat) : (Config.hostReadFails n = true ∨ Config.hostReadFails n = false) ∧
    (Config.gladesAgree n = true ∨ Config.gladesAgree n = false) := by
  cases Config.hostReadFails n <;> cases Config.gladesAgree n <;> simp
theorem witness_AttestationAndKeys : let X := fun (f : Secure → Secure) => { plain with ctl := { plain.ctl with sec := f plain.ctl.sec } }
    (0 : BitVec 64).getLsbD 63 = false ∧ (0x8000000000000000 : BitVec 64).getLsbD 63 = true ∧ plain.ctl.sec.attBusy = none ∧
    (reportBody plain.ctl 0).length = 136 ∧ (X (fun x => { x with attBusy := some (reportBody plain.ctl 0) })).ctl.sec.attBusy = some (reportBody plain.ctl 0) ∧
    plain.ctl.boot.idValid = true ∧ ({ plain with ctl := { plain.ctl with boot := { plain.ctl.boot with idValid := false } } }).ctl.boot.idValid = false ∧
    plain.ctl.sec.attaddr.toNat + 7992 ≤ capacity plain.ctl ∧
    capacity plain.ctl < (X (fun x => { x with attaddr := BitVec.ofNat 64 (capacity plain.ctl - 7991) })).ctl.sec.attaddr.toNat + 7992 ∧
    plain.ctl.marks.spans = [] ∧ plain.ctl.marks.poison = [] ∧ plain.ctl.marks.latent = [] ∧ plain.ctl.marks.soft = [] ∧ plain.mem.wf = true ∧
    plain.ctl.sec.kBusy = none ∧ plain.ctl.sec.ksel.toNat / 2 ^ 16 % 2 ^ 12 = 0 ∧ (X (fun x => { x with ksel := 0x10000 })).ctl.sec.ksel.toNat / 2 ^ 16 % 2 ^ 12 ≠ 0 ∧
    (X (fun x => { x with kBusy := some (1, .installed 5) })).ctl.sec.kBusy = some (1, .installed 5) ∧
    (X (fun x => { x with kBusy := some (1, .fresh 4096) })).ctl.sec.kBusy = some (1, .fresh 4096) := by decide +kernel
theorem witness_StepKeepsMemOk : State.reset.MemOk := rfl
theorem witness_EncodeDecode : (Instr.addi m0 7 3 0xFFFFFFFB).wf = true := by decide +kernel
/-- NOP placed where the next step fetches. -/
def placed : State := State.reset.withFetchWord 64 0x0100000000000000
theorem witness_StepRunsDecoded : placed.ctl.power.lostRef = false ∧ Machine.inFlight (placed.taskAt 256 0) (.nop m0 0) = false ∧
    (let a := placed.ctl.links.pkgid.toNat / 2 ^ 24 % 256 * 2 ^ 44 + (placed.taskAt 256 0).pc.toNat
     devMeets placed.ctl a = .clear ∧ devMeets placed.ctl (a + 8) = .clear) ∧ placed.ctl.model.agenda = [] ∧ placed.ctl.model.nonce % 4 < 2 ∧ gladeTurns placed.ctl = (256, 256) :: [] ∧
    pickSlot (placed.gladeAt 256).ctx (((tries placed 256).filter (fun r => issued r.2)).map (·.1)) = some 0 ∧ (placed.taskAt 256 0).sys.priv = 2 ∧ placed.ctl.sec.mptroot = 0 ∧
    (placed.taskAt 256 0).pc.toNat + 16 ≤ capacity placed.ctl ∧ (placed.taskAt 256 0).dbg.bpa.toList.all (fun b => !b.getLsbD 0) = true ∧
    placed.ctl.marks.poison = [] ∧ placed.ctl.marks.latent = [] ∧ placed.ctl.marks.soft = [] ∧ placed.ctl.marks.spans = [] := by decide +kernel
theorem witness_StepRunsDecoded_good : placed.CtlGood 256 (ctlOf (fetch (select (Work.start placed) 256 0)).2 (.nop m0 0)) := good _ _ rfl rfl _
theorem witness_StepRunsDecoded_word : (match (fetch (select (Work.start placed) 256 0)).1 with
    | .instr i => decide (i = .nop m0 0)
    | _ => false) = true ∧
    (decodeBytes ((List.range 16).map (fun k => placed.byte ((placed.taskAt 256 0).pc.toNat + k)))).toOption = some (.nop m0 0) := by decide +kernel
/-- VGATH and VSCAT of one lane of the scratchpad (`gatherNow`); the entry of `fenced`, with its command gone and its store done. -/
theorem witness_VectorAndFenceForms : let s := gatherNow 0x100000; let f := fenced [] []
    s.Quiet ∧ s.Clear ∧ s.lanesOn 1 1 = [(0, 0x17FFFC)] ∧ (∀ l ∈ s.lanesOn 1 1, l.2.toNat % 4 = 0 ∧ l.2.toNat < 0x180000) ∧ f.g = 256 ∧
    ∃ F, (f.gladeAt f.g).ctx.eng.fences.find? (fun f => f.id == 9) = some F ∧ (∀ p ∈ F.cmds, ∀ c ∈ f.queue p.1, c.id ≠ p.2) ∧
      ∀ i ∈ F.stores, performedAt (f.taskAt f.g F.t) F.scope i = true := by
  refine ⟨⟨rfl, rfl, rfl, rfl⟩, ⟨rfl, rfl, rfl, rfl, rfl, rfl, rfl, rfl, by decide⟩, by decide +kernel, by decide +kernel, rfl, _, rfl, ?_⟩
  decide +kernel


/-! ## Single steps, with results worked out from the rules -/

def stateOf (i : Instr) (s : State) : Option State := match exec i s with
  | .next t => some t
  | _ => none
def xOf (i : Instr) (s : State) (r : XReg) : Option Word := (stateOf i s).map (fun t => t.x r)
def vOf (i : Instr) (s : State) (r : VReg) (w k : Nat) : Option (List Nat) :=
  (stateOf i s).map (fun t => (List.range k).map (fun j => lane w (t.v r) j))
def pcOf (i : Instr) (s : State) : Option Word := (stateOf i s).map (fun t => t.pc)
def trapOf (i : Instr) (s : State) : Option (Word × Word × Word) :=
  (stateOf i s).map (fun t => (t.sys.ecause, t.sys.epc, t.sys.eval))
def withTvec (s : List (Nat × Word)) : State := on (withSys (fun x => { x with tvec := 0x800 }) (regd s))

/-- R107: addition wraps modulo 2^64; a source that is the destination is read first. -/
theorem test_add_wraps : xOf (.add m0 1 1 2) (regs [(1, 0xFFFFFFFFFFFFFFFF), (2, 2)]) 1 = some 1 := by decide +kernel
/-- R77: x0 discards the result. -/
theorem test_add_x0 : xOf (.addi m0 0 1 5) (regs [(1, 7)]) 0 = some 0 := by decide +kernel
/-- R107: SAR shifts by b[5:0] and keeps the sign: -8 by 65. -/
theorem test_sar_sign : xOf (.sar m0 3 1 2) (regs [(1, 0xFFFFFFFFFFFFFFF8), (2, 65)]) 3 = some 0xFFFFFFFFFFFFFFFC := by decide +kernel
/-- R109: division by zero, and the most negative number by -1. -/
theorem test_div_corners : xOf (.div m0 3 1 0) (regs [(1, 9)]) 3 = some 0xFFFFFFFFFFFFFFFF ∧
    xOf (.div m0 3 1 2) (regs [(1, 0x8000000000000000), (2, 0xFFFFFFFFFFFFFFFF)]) 3 = some 0x8000000000000000 ∧
    xOf (.rem m0 3 1 2) (regs [(1, 0xFFFFFFFFFFFFFFF9), (2, 2)]) 3 = some 0xFFFFFFFFFFFFFFFF := by decide +kernel
/-- R109: MULH of -1 and 1 is -1, MULHU of the same words is 0. -/
theorem test_mulh : xOf (.mulh m0 3 1 2) (regs [(1, 0xFFFFFFFFFFFFFFFF), (2, 1)]) 3 = some 0xFFFFFFFFFFFFFFFF ∧
    xOf (.mulhu m0 3 1 2) (regs [(1, 0xFFFFFFFFFFFFFFFF), (2, 1)]) 3 = some 0 := by decide +kernel
/-- R110: CLZ and CTZ of 0 are 64. -/
theorem test_clz_zero : xOf (.clz m0 3 0) plain 3 = some 64 ∧ xOf (.ctz m0 3 0) plain 3 = some 64 := by decide +kernel
/-- R115: BLT compares signed, BLTU unsigned. -/
theorem test_blt : pcOf (.blt m0 1 0 4) (regs [(1, 0xFFFFFFFFFFFFFFFF)]) = some 0x120 ∧
    pcOf (.bltu m0 1 0 4) (regs [(1, 0xFFFFFFFFFFFFFFFF)]) = some 0x108 := by decide +kernel
/-- R118, R103: JR to an address that is no multiple of 8 traps MISALIGN into the handler. -/
theorem test_jr_misalign : trapOf (.jr m0 1 0) (withTvec [(1, 0x204)]) = some (3, 0x100, 8) ∧ pcOf (.jr m0 1 0) (withTvec [(1, 0x204)]) = some 0x800 := by
  decide +kernel
/-- R120: ENDL at a count of 2 goes back and counts down. -/
theorem test_endl : pcOf (.endl m0 0xFFFFFFFE) (looped [2]) = some 0xF0 ∧
    (stateOf (.endl m0 0xFFFFFFFE) (looped [2])).map (fun t => t.regs.loops) = some [1] := by decide +kernel
/-- R142: VADDS clamps to -(2^31 - 1) and sets SAT. -/
theorem test_vadds : vOf (.vadds m0 .w 2 1 1) (on lanesTask) 2 32 3 = some [0, 0x80000001, 0x7F000000] ∧
    (stateOf (.vadds m0 .w 2 1 1) (on lanesTask)).map (fun t => t.sys.sat) = some true := by decide +kernel
/-- R143: 1.0 + 1.0 = 2.0, and an infinity less an infinity is the canonical NaN. -/
theorem test_vfadd : vOf (.vfadd m0 .f .rne 2 1 1) (on lanesTask) 2 32 4 = some [0, 0x80000000, 0x40000000, 0x7F800000] ∧
    vOf (.vfsub m0 .f .rne 2 1 1) (on lanesTask) 2 32 4 = some [0, 0, 0, 0x7FC00000] := by decide +kernel
/-- R149: an inclusive sum scan of 1, 2, 3. -/
theorem test_vscan : vOf (.vscan m0 .i32 .add 2 1 none) (on { task0 with regs := task0.regs.putV 1 (ofLanes 32 [1, 2, 3]) }) 2 32 4 = some [1, 3, 6, 6] := by
  decide +kernel
/-- R125: LD.W zero-extends the bytes, the lowest address lowest. -/
theorem test_ld_bytes : xOf (.ldW m0 3 1 .scr 0 .plain 0) (scrBytes 0x17FFFC [0x78, 0x56, 0x34, 0x92] (regs [(1, 0x17FFFC)])) 3 = some 0x92345678 := by
  decide +kernel
/-- R200: AMO.MAX compares signed words and returns the old one. -/
theorem test_amo_max : let s := scrBytes 0x17FFFC [0xFF, 0xFF, 0xFF, 0xFF] (regs [(1, 0x17FFFC), (2, 1)])
    xOf (.amoMax m0 false 3 1 2 .scr 0 .acqrel) s 3 = some 0xFFFFFFFF ∧
    (stateOf (.amoMax m0 false 3 1 2 .scr 0 .acqrel) s).map (fun t => t.scr 0x17FFFC 4) = some [1, 0, 0, 0] := by decide +kernel
/-- R207, R208: a join of a fresh barrier is its first party. -/
theorem test_bar_join : xOf (.barJoin m0 3 1 .scr) (barrier [] []) 3 = some 1 := by decide +kernel
/-- R211: FLIFE of a tile born at tick 0 is 131,072 at tick 0, of an expired one 0. -/
theorem test_flife : xOf (.flife m0 3 1) (tiled [(1, 0x1000)]) 3 = some 131072 ∧ xOf (.flife m0 3 1) (tiled []) 3 = some 0 := by decide +kernel
/-- R157: QADV.C moves HEAD past the end of the ring to 0. -/
theorem test_qadv : (stateOf (.qadvC m0 1 0 1) (ringed ring4)).map (fun t => ((t.buf 2).head, (t.buf 2).filled)) = some (0, 0) := by decide +kernel
/-- R164: a key that is not VALID raises KEYINV with DETAIL 1. -/
theorem test_keyinv : trapOf (.mzero m0 7) (withTvec []) = some (6, 0x100, 7) ∧
    (stateOf (.mzero m0 7) (withTvec [])).map (fun t => t.sys.estat.toNat / 2 ^ 18) = some 1 := by decide +kernel
/-- R182: COPY enters its queue. -/
theorem test_copy_enters : (stateOf (.copy m0 1 false false 0 false 0 0 0) keyed).map (fun t => (t.queue .cq1).length) = some 1 := by decide +kernel
/-- R224: TRAP saves the next address and its immediate. -/
theorem test_trap : trapOf (.trap m0 0x77) (withTvec []) = some (0xD, 0x108, 0x77) := by decide +kernel
/-- R103: RTE in a handler goes to EPC and clears INH. -/
theorem test_rte : pcOf (.rte m0) (on (withSys (fun x => { x with inh := true, epc := 0x400 }) task0)) = some 0x400 ∧
    (stateOf (.rte m0) (on (withSys (fun x => { x with inh := true, epc := 0x400 }) task0))).map (fun t => t.sys.inh) = some false := by decide +kernel
/-- R225: SPRR of PTROOT below P1 raises PRIV with DETAIL 1. -/
theorem test_sprr_priv : (stateOf (.sprr m0 3 0x140) (on (withSys (fun x => { x with priv := 0, tvec := 0x800 }) task0))).map
    (fun t => (t.sys.ecause, t.sys.estat.toNat / 2 ^ 18)) = some (2, 1) := by decide +kernel
/-- R229: LEASE.REVOKE of an extent that is revoked already answers 3. -/
theorem test_lease_revoke : xOf (.leaseRevoke m0 4 1 2) (supervised { launch0 .running with exts := [ext0 true] } id 1 [(1, 1)]) 4 = some 3 := by decide +kernel
/-- R226: LAUNCH of a record of zeros is malformed. -/
theorem test_launch_malformed : xOf (.launch m0 4 3) launching 4 = some 0x8000000000000002 := by decide +kernel
/-- R239: an ALU element adds its two heads. -/
theorem test_alu_fire : (stateOf (.aluFire 256 1) (fireState (firePlane (fireElem 1 0) [(0, dat 5), (1, dat 7)] false) id)).map
    (fun t => (t.gladeAt 256).ctx.net.beats) = some 4 := by decide +kernel
/-- R27: the tick counts. -/
theorem test_tick : (stateOf .tick plain).map (fun t => t.ctl.tick) = some 1 := by decide +kernel
/-- R86: the step runs the placed NOP. -/
theorem test_step_nop : (match step placed with
    | .next t => decide (t.pc = placed.pc + 8)
    | _ => false) = true := by decide +kernel

end Sys2Proof.Tests
end

section
/-! PROOFS. The scalar and control words: what the decoder makes of their fields (R88, R107 to R120). -/
namespace Sys2Proof
open Machine

/-! ## Fields -/

theorem isX_eq_false {r : BitVec 6} (h : 32 ≤ r.toNat) : isX r = false := by
  revert r; decide

theorem ne_zero_of_toNat_ne {n : Nat} {r : BitVec n} (h : r.toNat ≠ 0) : r ≠ 0#n := by
  rintro rfl
  exact h BitVec.toNat_zero

@[simp] theorem mkOf_ofBool (m : Marks) : mkOf m.gap (BitVec.ofBool m.sw) = m := by
  obtain ⟨gap, sw⟩ := m
  cases sw <;> rfl

theorem wordR_eq_joinR (op : BitVec 8) (m : Marks) (d a b c : BitVec 6) (fn : BitVec 8) :
    wordR op m d a b c fn = joinR op ⟨m.gap, BitVec.ofBool m.sw, d, a, b, c, fn, 0#20⟩ := rfl
theorem wordI_eq_joinI (op : BitVec 8) (m : Marks) (d a : BitVec 6) (fn : BitVec 8) (imm : BitVec 32) :
    wordI op m d a fn imm = joinI op ⟨m.gap, BitVec.ofBool m.sw, d, a, fn, imm⟩ := rfl
theorem wordB_eq_joinB (op : BitVec 8) (m : Marks) (a b : BitVec 6) (cnd : BitVec 4) (off : BitVec 32) :
    wordB op m a b cnd off = joinB op ⟨m.gap, BitVec.ofBool m.sw, a, b, cnd, 0#4, off⟩ := rfl

section
variable {op : BitVec 8} (m : Marks) (d a b c : BitVec 6) (fn : BitVec 8) (imm : BitVec 32) (cnd : BitVec 4) (n : Word)
@[simp] theorem splitR_wordR : splitR (wordR op m d a b c fn) = ⟨m.gap, BitVec.ofBool m.sw, d, a, b, c, fn, 0#20⟩ := by
  rw [wordR_eq_joinR, splitR_joinR]
@[simp] theorem splitI_wordI : splitI (wordI op m d a fn imm) = ⟨m.gap, BitVec.ofBool m.sw, d, a, fn, imm⟩ := by
  rw [wordI_eq_joinI, splitI_joinI]
@[simp] theorem splitB_wordB : splitB (wordB op m a b cnd imm) = ⟨m.gap, BitVec.ofBool m.sw, a, b, cnd, 0#4, imm⟩ := by
  rw [wordB_eq_joinB, splitB_joinB]

theorem opOf_wordR : opOf (wordR op m d a b c fn) = op := by rw [wordR_eq_joinR, opOf_joinR]
theorem opOf_wordI : opOf (wordI op m d a fn imm) = op := by rw [wordI_eq_joinI, opOf_joinI]
theorem opOf_wordB : opOf (wordB op m a b cnd imm) = op := by rw [wordB_eq_joinB, opOf_joinB]

theorem decode_wordR (h8 : op ≠ 0x78#8 := by decide) (h0 : op ≠ 0#8 := by decide) :
    decode (wordR op m d a b c fn) n = decodeOp op.toNat (wordR op m d a b c fn) :=
  decode_op op _ n (opOf_wordR m d a b c fn) h8 h0
theorem decode_wordI (h8 : op ≠ 0x78#8 := by decide) (h0 : op ≠ 0#8 := by decide) :
    decode (wordI op m d a fn imm) n = decodeOp op.toNat (wordI op m d a fn imm) :=
  decode_op op _ n (opOf_wordI m d a fn imm) h8 h0
theorem decode_wordB (h8 : op ≠ 0x78#8 := by decide) (h0 : op ≠ 0#8 := by decide) :
    decode (wordB op m a b cnd imm) n = decodeOp op.toNat (wordB op m a b cnd imm) :=
  decode_op op _ n (opOf_wordB m a b imm cnd) h8 h0
end

/-! ## The checks of `finish` -/

/-- One failed check is enough to reject a word. -/
theorem finish_error {z4 cls : Bool} {i : Instr} (h : i.ok2 = false ∨ i.ok4 = false ∨ z4 = true ∨ cls = false) :
    ∃ e, finish z4 cls i = .error e := by
  unfold finish
  split_ifs with h2 h3 h4 h5
  · exact ⟨_, rfl⟩
  · exact ⟨_, rfl⟩
  · exact ⟨_, rfl⟩
  · exact ⟨_, rfl⟩
  · simp_all

/-- The values of a term's fields pass every check of the decoder. -/
structure Accepted (i : Instr) : Prop where
  ok2 : i.ok2 = true
  ok3 : i.ok3 = true
  ok4 : i.ok4 = true

theorem Accepted.finish {i : Instr} (h : Accepted i) : finish false true i = .ok i := finish_ok i h.ok2 h.ok3 h.ok4

/-! ## The operation tables -/

theorem aluOf_eq_none {n : Nat} (h : 0x12 ≤ n) : aluOf n = none := by
  simp (disch := omega) [aluOf]
theorem aluiOf_eq_none {n : Nat} (h : 0x12 ≤ n) : aluiOf n = none := by
  simp (disch := omega) [aluiOf]
theorem bitOpOf_eq_none {n : Nat} (h : 0x0A ≤ n) : bitOpOf n = none := by
  simp (disch := omega) [bitOpOf]

theorem aluOf_zip : ∀ p ∈ List.zip (List.range 18) [Instr.add, .sub, .and, .or, .xor, .shl, .shr, .sar, .rol, .ror,
    .min, .max, .minu, .maxu, .slt, .sltu, .seq, .sne], aluOf (BitVec.ofNat 8 p.1).toNat = some p.2 := by
  intro p hp
  fin_cases hp <;> rfl
theorem aluiOf_zip : ∀ p ∈ List.zip (List.range 18) [Instr.addi, .subi, .andi, .ori, .xori, .shli, .shri, .sari, .roli,
    .rori, .mini, .maxi, .minui, .maxui, .slti, .sltui, .seqi, .snei],
    (BitVec.ofNat 8 p.1).toNat = p.1 ∧ aluiOf p.1 = some p.2 := by
  intro p hp
  fin_cases hp <;> exact ⟨rfl, rfl⟩
theorem bitOpOf_zip : ∀ p ∈ List.zip (List.range 10) [Instr.clz, .ctz, .popc, .sextB, .sextH, .sextW, .zextB, .zextH,
    .zextW, .brev], bitOpOf (BitVec.ofNat 8 p.1).toNat = some p.2 := by
  intro p hp
  fin_cases hp <;> rfl

theorem aluOf_accepted {n : Nat} {k : RRR} (h : aluOf n = some k) (m : Marks) (d a b : XReg) : Accepted (k m d a b) := by
  unfold aluOf at h
  split at h <;> cases h <;> exact ⟨rfl, rfl, rfl⟩
theorem bitOpOf_accepted {n : Nat} {k : RR} (h : bitOpOf n = some k) (m : Marks) (d a : XReg) : Accepted (k m d a) := by
  unfold bitOpOf at h
  split at h <;> cases h <;> exact ⟨rfl, rfl, rfl⟩
/-- R108: only the shifts and rotates look at the size of the immediate. -/
theorem aluiOf_ok4 {n : Nat} {k : RRI} (h : aluiOf n = some k) (m : Marks) (d a : XReg) (imm : BitVec 32) :
    (k m d a imm).ok4 = (shiftImm imm || !decide (5 ≤ n ∧ n ≤ 9)) := by
  unfold aluiOf at h
  split at h <;> cases h <;> simp [Instr.ok4]
theorem aluiOf_accepted {n : Nat} {k : RRI} (h : aluiOf n = some k) (m : Marks) (d a : XReg) {imm : BitVec 32}
    (hi : 5 ≤ n → n ≤ 9 → imm.toNat < 64) : Accepted (k m d a imm) where
  ok2 := by unfold aluiOf at h; split at h <;> cases h <;> rfl
  ok3 := by unfold aluiOf at h; split at h <;> cases h <;> rfl
  ok4 := by
    rw [aluiOf_ok4 h]
    by_cases hn : 5 ≤ n ∧ n ≤ 9
    · simp [shiftImm, hi hn.1 hn.2]
    · simp [hn]

/-! ## Words of three registers, of two registers, of two registers and an immediate -/

theorem dRRR_error {t : Nat → Option RRR} {f : FmtR}
    (h : t f.fn.toNat = none ∨ f.c.toNat ≠ 0 ∨ 32 ≤ f.d.toNat ∨ 32 ≤ f.a.toNat ∨ 32 ≤ f.b.toNat) :
    ∃ e, dRRR t f = .error e := by
  unfold dRRR
  split
  · exact ⟨_, rfl⟩
  next k hk =>
  refine finish_error ?_
  rcases h with h | h | h | h | h
  · cases hk.symm.trans h
  · simp [ne_zero_of_toNat_ne h]
  all_goals simp [isX_eq_false h]

theorem dRR_error {t : Nat → Option RR} {f : FmtR}
    (h : t f.fn.toNat = none ∨ f.b.toNat ≠ 0 ∨ f.c.toNat ≠ 0 ∨ 32 ≤ f.d.toNat ∨ 32 ≤ f.a.toNat) :
    ∃ e, dRR t f = .error e := by
  unfold dRR
  split
  · exact ⟨_, rfl⟩
  next k hk =>
  refine finish_error ?_
  rcases h with h | h | h | h | h
  · cases hk.symm.trans h
  · simp [ne_zero_of_toNat_ne h]
  · simp [ne_zero_of_toNat_ne h]
  all_goals simp [isX_eq_false h]

theorem dRRI_aluiOf_error {f : FmtI}
    (h : aluiOf f.fn.toNat = none ∨ 32 ≤ f.d.toNat ∨ 32 ≤ f.a.toNat ∨ (5 ≤ f.fn.toNat ∧ f.fn.toNat ≤ 9 ∧ 64 ≤ f.imm.toNat)) :
    ∃ e, dRRI aluiOf f = .error e := by
  unfold dRRI
  split
  · exact ⟨_, rfl⟩
  next k hk =>
  refine finish_error ?_
  rcases h with h | h | h | ⟨h5, h9, h64⟩
  · cases hk.symm.trans h
  · simp [isX_eq_false h]
  · simp [isX_eq_false h]
  · simp [aluiOf_ok4 hk, shiftImm, h5, h9, h64]

theorem decode_wordR_alu {fn : BitVec 8} {k : RRR} (hk : aluOf fn.toNat = some k) (m : Marks) (d a b : XReg) (n : Word) :
    decode (wordR 0x10 m (x6 d) (x6 a) (x6 b) 0 fn) n = .ok (k m d a b) := by
  rw [decode_wordR]
  change dRRR aluOf (splitR _) = _
  simpa [dRRR, hk] using (aluOf_accepted hk m d a b).finish

theorem decode_wordI_alui {fn : BitVec 8} {k : RRI} (hk : aluiOf fn.toNat = some k) (m : Marks) (d a : XReg)
    {imm : BitVec 32} (hi : 5 ≤ fn.toNat → fn.toNat ≤ 9 → imm.toNat < 64) (n : Word) :
    decode (wordI 0x11 m (x6 d) (x6 a) fn imm) n = .ok (k m d a imm) := by
  rw [decode_wordI]
  change dRRI aluiOf (splitI _) = _
  simpa [dRRI, hk] using (aluiOf_accepted hk m d a hi).finish

theorem decode_wordR_bitOp {fn : BitVec 8} {k : RR} (hk : bitOpOf fn.toNat = some k) (m : Marks) (d a : XReg) (n : Word) :
    decode (wordR 0x13 m (x6 d) (x6 a) 0 0 fn) n = .ok (k m d a) := by
  rw [decode_wordR]
  change dRR bitOpOf (splitR _) = _
  simpa [dRR, hk] using (bitOpOf_accepted hk m d a).finish

/-! ## MOVI, MOVIH and LEA -/

theorem dMovi_error {f : FmtI} (h : f.fn.toNat ≠ 0 ∨ f.a.toNat ≠ 0 ∨ 32 ≤ f.d.toNat) : ∃ e, dMovi f = .error e := by
  unfold dMovi
  split
  · exact ⟨_, rfl⟩
  next hfn =>
  refine finish_error ?_
  rcases h with h | h | h
  · simp [ne_zero_of_toNat_ne h] at hfn
  · simp [ne_zero_of_toNat_ne h]
  · simp [isX_eq_false h]

theorem dMovih_error {f : FmtI} (h : f.fn.toNat ≠ 0 ∨ 32 ≤ f.a.toNat ∨ 32 ≤ f.d.toNat) : ∃ e, dMovih f = .error e := by
  unfold dMovih
  split
  · exact ⟨_, rfl⟩
  next hfn =>
  refine finish_error ?_
  rcases h with h | h | h
  · simp [ne_zero_of_toNat_ne h] at hfn
  all_goals simp [isX_eq_false h]

theorem dLea_error {f : FmtR} (h : (4 ≤ f.fn.toNat ∧ f.fn.toNat ≠ 0x10) ∨ f.c.toNat ≠ 0 ∨ 32 ≤ f.d.toNat ∨ 32 ≤ f.a.toNat ∨
    32 ≤ f.b.toNat) : ∃ e, dLea f = .error e := by
  have checks (hf : f.c.toNat ≠ 0 ∨ 32 ≤ f.d.toNat ∨ 32 ≤ f.a.toNat ∨ 32 ≤ f.b.toNat) :
      (f.c != 0 || f.z != 0) = true ∨ (isX f.d && isX f.a && isX f.b) = false := by
    rcases hf with h | h | h | h
    · simp [ne_zero_of_toNat_ne h]
    all_goals simp [isX_eq_false h]
  simp only [dLea]
  split_ifs with h4 h10
  · exact finish_error (.inr (.inr (checks (h.resolve_left (by omega)))))
  · exact finish_error (.inr (.inr (checks (h.resolve_left (by simp [h10])))))
  · exact ⟨_, rfl⟩

/-! ## Branches and loops -/

/-- The branches that compare two registers, by CND (R115). -/
def compareOf : Nat → Option RRI
  | 0 => some .beq | 1 => some .bne | 2 => some .blt | 3 => some .bge | 4 => some .bltu | 5 => some .bgeu
  | _ => none

theorem dBranch_compare {f : FmtB} {k : RRI} (hk : compareOf f.cnd.toNat = some k) :
    dBranch f = finish (f.z != 0) (isX f.a && isX f.b) (k (mkOf f.gap f.sw) (xOf f.a) (xOf f.b) f.off) := by
  unfold compareOf at hk
  split at hk <;> cases hk <;> simp [dBranch, *]
theorem dBranch_bfe {f : FmtB} (h : f.cnd.toNat = 6) :
    dBranch f = finish (f.z != 0 || f.a != 0 || f.b != 0) true (.bfe (mkOf f.gap f.sw) f.off) := by
  simp [dBranch, h]
theorem dBranch_bnfe {f : FmtB} (h : f.cnd.toNat = 7) :
    dBranch f = finish (f.z != 0 || f.a != 0 || f.b != 0) true (.bnfe (mkOf f.gap f.sw) f.off) := by
  simp [dBranch, h]
theorem dBranch_unassigned {f : FmtB} (h : 8 ≤ f.cnd.toNat) : dBranch f = bad 2 := by
  simp (disch := omega) [dBranch]

theorem compareOf_eq_some {n : Nat} (h : n < 6) : ∃ k, compareOf n = some k := by
  interval_cases n <;> exact ⟨_, rfl⟩
theorem compareOf_accepted {n : Nat} {k : RRI} (h : compareOf n = some k) (m : Marks)
    (a b : XReg) (off : BitVec 32) : Accepted (k m a b off) := by
  unfold compareOf at h
  split at h <;> cases h <;> exact ⟨rfl, rfl, rfl⟩
theorem compareOf_zip : ∀ p ∈ List.zip (List.range 6) [Instr.beq, .bne, .blt, .bge, .bltu, .bgeu],
    compareOf (BitVec.ofNat 4 p.1).toNat = some p.2 := by
  intro p hp
  fin_cases hp <;> rfl

theorem dBranch_error {f : FmtB} (h : 8 ≤ f.cnd.toNat ∨ 32 ≤ f.a.toNat ∨ 32 ≤ f.b.toNat ∨
    (6 ≤ f.cnd.toNat ∧ (f.a.toNat ≠ 0 ∨ f.b.toNat ≠ 0))) : ∃ e, dBranch f = .error e := by
  by_cases hlt : f.cnd.toNat < 6
  · obtain ⟨k, hk⟩ := compareOf_eq_some hlt
    rw [dBranch_compare hk]
    have hx : 32 ≤ f.a.toNat ∨ 32 ≤ f.b.toNat := by omega
    refine finish_error (.inr (.inr (.inr ?_)))
    rcases hx with h | h <;> simp [isX_eq_false h]
  by_cases hge : 8 ≤ f.cnd.toNat
  · exact ⟨_, dBranch_unassigned hge⟩
  have hz : (f.z != 0 || f.a != 0 || f.b != 0) = true := by
    have hab : f.a.toNat ≠ 0 ∨ f.b.toNat ≠ 0 := by omega
    rcases hab with h | h <;> simp [ne_zero_of_toNat_ne h]
  by_cases h6 : f.cnd.toNat = 6
  · rw [dBranch_bfe h6]
    exact finish_error (.inr (.inr (.inl hz)))
  · rw [dBranch_bnfe (by omega)]
    exact finish_error (.inr (.inr (.inl hz)))

theorem dB0_error {k : Marks → BitVec 32 → Instr} {f : FmtB}
    (h : f.a.toNat ≠ 0 ∨ f.b.toNat ≠ 0 ∨ f.cnd.toNat ≠ 0 ∨ ∀ m, (k m f.off).ok2 = false) : ∃ e, dB0 k f = .error e := by
  refine finish_error ?_
  rcases h with h | h | h | h
  · simp [ne_zero_of_toNat_ne h]
  · simp [ne_zero_of_toNat_ne h]
  · simp [ne_zero_of_toNat_ne h]
  · exact .inl (h _)

theorem dB1_error {k : Marks → XReg → BitVec 32 → Instr} {f : FmtB}
    (h : f.b.toNat ≠ 0 ∨ f.cnd.toNat ≠ 0 ∨ 32 ≤ f.a.toNat ∨ ∀ m a, (k m a f.off).ok2 = false) : ∃ e, dB1 k f = .error e := by
  refine finish_error ?_
  rcases h with h | h | h | h
  · simp [ne_zero_of_toNat_ne h]
  · simp [ne_zero_of_toNat_ne h]
  · simp [isX_eq_false h]
  · exact .inl (h _ _)

section
variable (m : Marks) (a b : XReg) (off : BitVec 32) (n : Word)

theorem decode_wordB_compare {cnd : BitVec 4} {k : RRI} (hk : compareOf cnd.toNat = some k) :
    decode (wordB 0x20 m (x6 a) (x6 b) cnd off) n = .ok (k m a b off) := by
  rw [decode_wordB]
  change dBranch (splitB _) = _
  rw [splitB_wordB, dBranch_compare hk]
  simpa using (compareOf_accepted hk m a b off).finish
theorem decode_wordB_bfe : decode (wordB 0x20 m 0 0 6 off) n = .ok (.bfe m off) := by
  rw [decode_wordB]
  change dBranch (splitB _) = _
  rw [splitB_wordB, dBranch_bfe rfl, mkOf_ofBool]
  rfl
theorem decode_wordB_bnfe : decode (wordB 0x20 m 0 0 7 off) n = .ok (.bnfe m off) := by
  rw [decode_wordB]
  change dBranch (splitB _) = _
  rw [splitB_wordB, dBranch_bnfe rfl, mkOf_ofBool]
  rfl
theorem dB0_wordB (op : BitVec 8) (k : Marks → BitVec 32 → Instr) (h : Accepted (k m off)) :
    dB0 k (splitB (wordB op m 0 0 0 off)) = .ok (k m off) := by
  rw [splitB_wordB, dB0, mkOf_ofBool]
  exact h.finish
theorem dB1_wordB (op : BitVec 8) (k : Marks → XReg → BitVec 32 → Instr) (h : Accepted (k m a off)) :
    dB1 k (splitB (wordB op m (x6 a) 0 0 off)) = .ok (k m a off) := by
  simpa [dB1] using h.finish
theorem decode_wordB_j : decode (wordB 0x21 m 0 0 0 off) n = .ok (.j m off) :=
  (decode_wordB ..).trans (dB0_wordB m off 0x21 .j ⟨rfl, rfl, rfl⟩)
theorem decode_wordB_jal : decode (wordB 0x22 m 0 0 0 off) n = .ok (.jal m off) :=
  (decode_wordB ..).trans (dB0_wordB m off 0x22 .jal ⟨rfl, rfl, rfl⟩)
theorem decode_wordB_endl (h : off.toInt ≤ 0) : decode (wordB 0x25 m 0 0 0 off) n = .ok (.endl m off) :=
  (decode_wordB ..).trans (dB0_wordB m off 0x25 .endl ⟨decide_eq_true h, rfl, rfl⟩)
theorem decode_wordB_loop (h : 0 < off.toInt) : decode (wordB 0x24 m (x6 a) 0 0 off) n = .ok (.loop m a off) :=
  (decode_wordB ..).trans (dB1_wordB m a off 0x24 .loop ⟨decide_eq_true h, rfl, rfl⟩)
end

/-! ## A word by its opcode -/

/-- What the decoder of the opcode rejects is no instruction. -/
theorem illegal_of_decodeOp {w : Word} {op : BitVec 8} (h : opOf w = op) (n : Word)
    (he : ∃ e, decodeOp op.toNat w = .error e) (h8 : op ≠ 0x78#8 := by decide) (h0 : op ≠ 0#8 := by decide) : Illegal w n := by
  obtain ⟨e, he⟩ := he
  exact ⟨e, (decode_op op w n h h8 h0).trans he⟩

end Sys2Proof
end
section
/-! PROOFS. What the scalar operations compute, as numbers (R107 to R114). -/
namespace Sys2Proof.Machine

/-! ## Registers as the second operand: R107 -/
section
variable (a b : Word)

theorem aShl_eq : aShl a b = BitVec.ofNat 64 (a.toNat * 2 ^ (b.toNat % 64)) := by
  apply BitVec.eq_of_toNat_eq
  simp [aShl, shAmount, Nat.shiftLeft_eq]
theorem aShr_eq : aShr a b = BitVec.ofNat 64 (a.toNat / 2 ^ (b.toNat % 64)) := by
  apply BitVec.eq_of_toNat_eq
  have hlt : a.toNat / 2 ^ (b.toNat % 64) < 2 ^ 64 := (Nat.div_le_self _ _).trans_lt a.isLt
  rw [BitVec.toNat_ofNat, Nat.mod_eq_of_lt hlt]
  simp [aShr, shAmount, Nat.shiftRight_eq_div_pow]
theorem sshiftRight_eq_ofInt (k : Nat) : a.sshiftRight k = BitVec.ofInt 64 (a.toInt / 2 ^ k) := by
  rw [← BitVec.ofInt_toInt (x := a.sshiftRight k), BitVec.toInt_sshiftRight, Int.shiftRight_eq_div_pow]
  norm_cast
theorem aSar_eq : aSar a b = BitVec.ofInt 64 (a.toInt / 2 ^ (b.toNat % 64)) := sshiftRight_eq_ofInt a _
theorem aRol_eq : aRol a b = a.rotateLeft (b.toNat % 64) := by
  rw [BitVec.rotateLeft_def, Nat.mod_mod]; rfl
theorem aRor_eq : aRor a b = a.rotateRight (b.toNat % 64) := by
  rw [BitVec.rotateRight_def, Nat.mod_mod]; rfl
theorem aMin_eq : aMin a b = BitVec.ofInt 64 (min a.toInt b.toInt) := by
  rw [aMin, BitVec.slt_eq_decide]
  rcases lt_or_ge b.toInt a.toInt with h | h
  · simp [h, min_eq_right h.le]
  · simp [not_lt.2 h, min_eq_left h]
theorem aMax_eq : aMax a b = BitVec.ofInt 64 (max a.toInt b.toInt) := by
  rw [aMax, BitVec.slt_eq_decide]
  rcases lt_or_ge a.toInt b.toInt with h | h
  · simp [h, max_eq_right h.le]
  · simp [not_lt.2 h, max_eq_left h]
theorem aMinu_eq : aMinu a b = BitVec.ofNat 64 (min a.toNat b.toNat) := by
  rw [aMinu, BitVec.ult_eq_decide]
  rcases lt_or_ge b.toNat a.toNat with h | h
  · simp [h, min_eq_right h.le]
  · simp [not_lt.2 h, min_eq_left h]
theorem aMaxu_eq : aMaxu a b = BitVec.ofNat 64 (max a.toNat b.toNat) := by
  rw [aMaxu, BitVec.ult_eq_decide]
  rcases lt_or_ge a.toNat b.toNat with h | h
  · simp [h, max_eq_right h.le]
  · simp [not_lt.2 h, max_eq_left h]
theorem aSlt_eq : aSlt a b = if a.toInt < b.toInt then 1 else 0 := by simp [aSlt, BitVec.slt_eq_decide]
theorem aSltu_eq : aSltu a b = if a.toNat < b.toNat then 1 else 0 := by simp [aSltu, BitVec.ult_eq_decide]
end

/-! ## Immediates as the second operand: R108 -/
section
variable (a : Word) (imm : BitVec 32)

theorem immS_eq : immS imm = BitVec.ofInt 64 imm.toInt := rfl
theorem toInt_immS : (immS imm).toInt = imm.toInt := BitVec.toInt_signExtend_of_le (by decide)
/-- The amount of a shift is IMM[5:0]. -/
theorem shAmount_immShift : shAmount (immShift imm) = imm.toNat % 64 := by
  simp [shAmount, immShift]

theorem aShl_immShift : aShl a (immShift imm) = a <<< (imm.toNat % 64) := by rw [aShl, shAmount_immShift]
theorem aShr_immShift : aShr a (immShift imm) = a >>> (imm.toNat % 64) := by rw [aShr, shAmount_immShift]
theorem aSar_immShift : aSar a (immShift imm) = BitVec.ofInt 64 (a.toInt / 2 ^ (imm.toNat % 64)) := by
  rw [aSar, shAmount_immShift, sshiftRight_eq_ofInt]
theorem aRol_immShift : aRol a (immShift imm) = a.rotateLeft (imm.toNat % 64) := by
  rw [aRol_eq, ← shAmount, shAmount_immShift]
theorem aRor_immShift : aRor a (immShift imm) = a.rotateRight (imm.toNat % 64) := by
  rw [aRor_eq, ← shAmount, shAmount_immShift]
end

/-- R114: a target is counted in words of 8 bytes. -/
theorem branchTo_eq (pc : Word) (off : BitVec 32) : branchTo pc off = pc + BitVec.ofInt 64 (8 * off.toInt) := by
  rw [branchTo, BitVec.ofInt_mul]; rfl

/-! ## Counts, extensions and reversal: R110 -/

theorem zerosDown_le (n : Nat) (a : Word) : zerosDown n a ≤ n := by
  induction n with
  | zero => exact Nat.le_refl 0
  | succ n ih => simp only [zerosDown]; split <;> omega

/-- The bits that `zerosDown` counts are zeros. -/
theorem getLsbD_of_lt_zerosDown {n : Nat} {a : Word} {i : Nat} (h : i < zerosDown n a) : a.getLsbD (n - 1 - i) = false := by
  induction n generalizing i with
  | zero => simp [zerosDown] at h
  | succ n ih =>
    simp only [zerosDown] at h
    split at h
    · omega
    next hn =>
    cases i with
    | zero => simpa using hn
    | succ i => simpa [Nat.sub_sub, Nat.add_comm] using ih (i := i) (by omega)

/-- The bit at which `zerosDown` stops is a one. -/
theorem getLsbD_zerosDown {n : Nat} {a : Word} (h : zerosDown n a < n) : a.getLsbD (n - 1 - zerosDown n a) = true := by
  induction n with
  | zero => omega
  | succ n ih =>
    simp only [zerosDown] at h ⊢
    split at h
    next hn => simp [hn]
    next hn =>
    simpa [hn, Nat.sub_sub] using ih (by omega)

theorem zerosFrom_le (n i : Nat) (a : Word) : zerosFrom n i a ≤ n := by
  induction n generalizing i with
  | zero => exact Nat.le_refl 0
  | succ n ih =>
    have := ih (i + 1)
    simp only [zerosFrom]; split <;> omega

/-- The bits that `zerosFrom` counts are zeros. -/
theorem getLsbD_of_lt_zerosFrom {n i : Nat} {a : Word} {j : Nat} (h : j < zerosFrom n i a) : a.getLsbD (i + j) = false := by
  induction n generalizing i j with
  | zero => simp [zerosFrom] at h
  | succ n ih =>
    simp only [zerosFrom] at h
    split at h
    · omega
    next hi =>
    cases j with
    | zero => simpa using hi
    | succ j => simpa [Nat.add_assoc, Nat.add_comm 1] using ih (i := i + 1) (j := j) (by omega)

/-- The bit at which `zerosFrom` stops is a one. -/
theorem getLsbD_zerosFrom {n i : Nat} {a : Word} (h : zerosFrom n i a < n) : a.getLsbD (i + zerosFrom n i a) = true := by
  induction n generalizing i with
  | zero => omega
  | succ n ih =>
    simp only [zerosFrom] at h ⊢
    split at h
    next hi => simp [hi]
    next hi =>
    simpa [hi, Nat.add_assoc] using ih (i := i + 1) (by omega)

theorem onesBelow_eq_countP (n : Nat) (a : Word) : onesBelow n a = (List.range n).countP a.getLsbD := by
  induction n with
  | zero => rfl
  | succ n ih => simp [onesBelow, ih, List.range_succ, List.countP_singleton, b2n]

/-- The bits reversed so far lie above bit `63 - n`. -/
theorem dvd_revBits {n : Nat} (a : Word) (h : n ≤ 64) : 2 ^ (64 - n) ∣ revBits n a := by
  induction n with
  | zero => exact Dvd.intro 0 rfl
  | succ n ih =>
    have hlow : 2 ^ (64 - (n + 1)) ∣ 2 ^ (64 - n) := Nat.pow_dvd_pow 2 (by omega)
    refine Nat.dvd_add (hlow.trans (ih (by omega))) ?_
    split
    · exact Nat.pow_dvd_pow 2 (by omega)
    · exact Nat.dvd_zero _

theorem revBits_succ {n : Nat} (a : Word) (h : n < 64) :
    revBits (n + 1) a = revBits n a ||| (if a.getLsbD n then 2 ^ (63 - n) else 0) := by
  obtain ⟨q, hq⟩ := dvd_revBits a h.le
  have hlt : (if a.getLsbD n then 2 ^ (63 - n) else 0) < 2 ^ (64 - n) := by
    split
    · exact Nat.pow_lt_pow_right (by decide) (by omega)
    · exact Nat.two_pow_pos _
  rw [revBits, hq, Nat.two_pow_add_eq_or_of_lt hlt]

theorem testBit_revBits {n : Nat} (a : Word) (h : n ≤ 64) {i : Nat} (hi : i < 64) :
    (revBits n a).testBit i = (decide (63 - i < n) && a.getLsbD (63 - i)) := by
  induction n with
  | zero => simp [revBits]
  | succ n ih =>
    rw [revBits_succ a (by omega), Nat.testBit_or, ih (by omega)]
    rcases Nat.lt_trichotomy (63 - i) n with hn | hn | hn
    · have : 63 - n ≠ i := by omega
      have : 63 - i < n + 1 := by omega
      split <;> simp [*]
    · have hr : 63 - n = i := by omega
      rw [hn, hr]
      cases a.getLsbD n <;> simp
    · have : ¬ 63 - i < n := by omega
      have : ¬ 63 - i < n + 1 := by omega
      have : 63 - n ≠ i := by omega
      split <;> simp [*]

theorem bClz_spec (a : Word) : ∃ n : Nat, bClz a = BitVec.ofNat 64 n ∧ n ≤ 64 ∧
    (∀ i < n, a.getLsbD (63 - i) = false) ∧ (n < 64 → a.getLsbD (63 - n) = true) :=
  ⟨zerosDown 64 a, rfl, zerosDown_le 64 a, fun _ => getLsbD_of_lt_zerosDown, getLsbD_zerosDown⟩
theorem bCtz_spec (a : Word) : ∃ n : Nat, bCtz a = BitVec.ofNat 64 n ∧ n ≤ 64 ∧
    (∀ i < n, a.getLsbD i = false) ∧ (n < 64 → a.getLsbD n = true) :=
  ⟨zerosFrom 64 0 a, rfl, zerosFrom_le 64 0 a, fun i hi => by simpa using getLsbD_of_lt_zerosFrom hi,
    fun h => by simpa using getLsbD_zerosFrom h⟩
theorem bPopc_eq (a : Word) : bPopc a = BitVec.ofNat 64 ((List.range 64).countP a.getLsbD) :=
  congrArg (BitVec.ofNat 64) (onesBelow_eq_countP 64 a)
theorem getLsbD_bBrev (a : Word) {i : Nat} (hi : i < 64) : (bBrev a).getLsbD i = a.getLsbD (63 - i) := by
  have hlt : 63 - i < 64 := by omega
  rw [bBrev, w64, BitVec.getLsbD_ofNat, testBit_revBits a (Nat.le_refl 64) hi, decide_eq_true hi, decide_eq_true hlt]
  rfl
theorem bZext_eq (n : Nat) (a : Word) : bZext n a = BitVec.ofNat 64 (a.toNat % 2 ^ n) := by
  rw [bZext, ← BitVec.ofNat_toNat, BitVec.toNat_setWidth]

/-! ## Constants and addresses: R111 to R113 -/

theorem append_eq_ofNat {j k : Nat} (x : BitVec j) (y : BitVec k) :
    x ++ y = BitVec.ofNat (j + k) (x.toNat * 2 ^ k + y.toNat) := by
  rw [← Nat.shiftLeft_eq, Nat.shiftLeft_add_eq_or_of_lt y.isLt, ← BitVec.toNat_append, BitVec.ofNat_toNat,
    BitVec.setWidth_eq]

theorem movih_eq (imm : BitVec 32) (v : Word) :
    (imm ++ v.setWidth 32 : Word) = BitVec.ofNat 64 (imm.toNat * 2 ^ 32 + v.toNat % 2 ^ 32) := by
  rw [append_eq_ofNat, BitVec.toNat_setWidth]
theorem lea_eq (x y : Word) (k : Nat) : x + y <<< k = BitVec.ofNat 64 (x.toNat + y.toNat * 2 ^ k) := by
  apply BitVec.eq_of_toNat_eq
  simp [Nat.shiftLeft_eq]
theorem leaRg_eq (x y : Word) :
    (x.setWidth 8 ++ y.setWidth 21).setWidth 64 = BitVec.ofNat 64 (x.toNat % 2 ^ 8 * 2 ^ 21 + y.toNat % 2 ^ 21) := by
  rw [← BitVec.ofNat_toNat, append_eq_ofNat, BitVec.toNat_ofNat, BitVec.toNat_setWidth, BitVec.toNat_setWidth,
    Nat.mod_eq_of_lt (by omega)]

theorem setWidth_immS (imm : BitVec 32) : (immS imm).setWidth 32 = imm := by
  ext i hi
  simp [immS, BitVec.getElem_signExtend, Nat.lt_trans hi (show 32 < 64 by decide), hi]

/-- R112: the high half beside the sign-extended low half is the constant. -/
theorem movih_movi_eq (k : Word) : (k.extractLsb' 32 32 ++ (immS (k.extractLsb' 0 32)).setWidth 32 : Word) = k := by
  rw [setWidth_immS]
  exact (BitVec.extractLsb'_append_extractLsb'_eq_extractLsb' (start₁ := 0) rfl).trans (extract_self k 0 rfl)

end Sys2Proof.Machine
end
section
/-! PROOFS. What a scalar or control instruction makes of a state with no promise open (R105 to R120). -/
namespace Sys2Proof.Machine

section
variable {s : State} {m : Marks} {d a b : XReg} {v : Word} {off : BitVec 32}

/-- Two works that agree on the state commit the same. -/
theorem commit_of_eq {f g : Work → Work} (h : f (Work.start s) = g (Work.start s)) : commit s f = .next (s.after g) := by
  rw [commit_after, State.after, State.after, h]

theorem commit_opRR (h : s.Settled) {f : Word → Word → Word} (hv : f (s.x a) (s.x b) = v) :
    commit s (opRR m d a b f) = .next (s.wroteX m d v) :=
  commit_of_eq (by rw [opRR, rx_start h, rx_start h, hv])
theorem commit_opRI (h : s.Settled) {i : Word} {f : Word → Word → Word} (hv : f (s.x a) i = v) :
    commit s (opRI m d a i f) = .next (s.wroteX m d v) :=
  commit_of_eq (by rw [opRI, rx_start h, hv])
theorem commit_opR (h : s.Settled) {f : Word → Word} (hv : f (s.x a) = v) :
    commit s (opR m d a f) = .next (s.wroteX m d v) :=
  commit_of_eq (by rw [opR, rx_start h, hv])

/-! ## A written register -/

theorem wroteX_settled (h : s.Settled) (hm : m.gap = 0) : (s.wroteX m d v).Settled := by
  have hp : s.task.fl.promises = [] := h
  simp [State.Settled, State.wroteX, after_task, wx, hm, hp]
theorem wroteX_x_self (hd : d ≠ 0) : (s.wroteX m d v).x d = v := by
  simp [State.x, State.regs, State.wroteX, after_task, wx, regX_putX_self _ _ _ hd]

/-! ## Branches and jumps -/

theorem commit_branchOn {p : Word → Word → Bool} {P : Prop} [Decidable P] (h : s.Settled) (hp : p (s.x a) (s.x b) = decide P) :
    commit s (branchOn m a b off p) =
      .next (if P then s.wentTo m (s.pc + BitVec.ofInt 64 (8 * off.toInt)) else s.went m) := by
  rw [← branchTo_eq]
  split
  next hP => exact commit_of_eq (by rw [branchOn, rx_start h, rx_start h, hp, if_pos (decide_eq_true hP)]; rfl)
  next hP => exact commit_of_eq (by rw [branchOn, rx_start h, rx_start h, hp, if_neg (by simpa using hP)])
/-- A branch on the opposite of a condition. -/
theorem commit_branchOn_not {p : Word → Word → Bool} {P : Prop} [Decidable P] (h : s.Settled)
    (hp : p (s.x a) (s.x b) = !decide P) :
    commit s (branchOn m a b off p) =
      .next (if P then s.went m else s.wentTo m (s.pc + BitVec.ofInt 64 (8 * off.toInt))) := by
  rw [commit_branchOn (P := ¬P) h (hp.trans decide_not.symm), ite_not]

theorem exec_j : exec (.j m off) s = .next (s.wentTo m (s.pc + BitVec.ofInt 64 (8 * off.toInt))) := by
  rw [← branchTo_eq]; rfl
theorem exec_jal : exec (.jal m off) s =
    .next (s.after (fun w => goto m (s.pc + BitVec.ofInt 64 (8 * off.toInt)) (wx w m 31 (s.pc + 8)))) := by
  rw [← branchTo_eq]; rfl

theorem execJr_aligned (h : s.Settled) (ht : (s.x a + BitVec.ofInt 64 (8 * off.toInt)).toNat % 8 = 0) :
    execJr m a off s = .next (s.wentTo m (s.x a + BitVec.ofInt 64 (8 * off.toInt))) := by
  rw [← branchTo_eq, ← rx_start h a] at ht ⊢
  exact commit_of_eq (by exact if_neg (not_not.2 ht))
theorem execJr_misaligned (h : s.Settled) (ht : (s.x a + BitVec.ofInt 64 (8 * off.toInt)).toNat % 8 ≠ 0) :
    execJr m a off s = .next (s.trapped m 3 (s.x a + BitVec.ofInt 64 (8 * off.toInt)) 8 1) := by
  rw [← branchTo_eq, ← rx_start h a] at ht ⊢
  exact commit_of_eq (by exact if_pos ht)

/-! ## The FE tests: R116 -/

/-- A change that leaves PC where it is, and then the next instruction. -/
theorem next_updMe {f : Task → Task} (hf : (f s.task).pc = s.pc) :
    next m (updMe (Work.start s) f) = goto m (s.pc + 8) (updMe (Work.start s) f) := by
  simp [next, goto, hf]

/-- The task with STATUS.FE at 0. -/
def clearedFe (T : Task) : Task := { T with sys := { T.sys with fe := false } }

theorem branchFe_ready {w : Work} (h : fePending (me w) = false) (want : Bool) :
    branchFe m off want w = if (me w).sys.fe = want then goto m (branchTo (me w).pc off) (updMe w clearedFe)
      else next m (updMe w clearedFe) := by
  simp only [branchFe, h, decide_eq_true_eq, Bool.false_eq_true, if_false]
  rfl

theorem commit_branchFe_waits (h : fePending s.task = true) (want : Bool) :
    commit s (branchFe m off want) = .next (s.waits m) :=
  commit_of_eq (if_pos h)
theorem commit_branchFe_taken (h : fePending s.task = false) {want : Bool} (hw : s.sys.fe = want) :
    commit s (branchFe m off want) =
      .next (s.after (fun w => goto m (s.pc + BitVec.ofInt 64 (8 * off.toInt)) (updMe w clearedFe))) := by
  rw [← branchTo_eq]
  exact commit_of_eq ((branchFe_ready (w := Work.start s) h want).trans (if_pos hw))
theorem commit_branchFe_untaken (h : fePending s.task = false) {want : Bool} (hw : s.sys.fe ≠ want) :
    commit s (branchFe m off want) = .next (s.after (fun w => goto m (s.pc + 8) (updMe w clearedFe))) :=
  commit_of_eq ((branchFe_ready (w := Work.start s) h want).trans ((if_neg hw).trans (next_updMe rfl)))

/-! ## LOOP and ENDL: R119, R120 -/

/-- The task with the counts `l` on its loop stack. -/
def withLoops (l : List Word) (T : Task) : Task := { T with regs := { T.regs with loops := l } }

theorem execLoop_full (h : s.Settled) (hl : 4 ≤ s.regs.loops.length) :
    execLoop m a off s = .next (s.trapped m 0x14 0 (s.x a) 0) := by
  rw [← rx_start h a]
  exact commit_of_eq (by exact if_pos hl)
theorem execLoop_zero (h : s.Settled) (hl : s.regs.loops.length < 4) (hx : s.x a = 0) :
    execLoop m a off s = .next (s.wentTo m (s.pc + BitVec.ofInt 64 (8 * off.toInt) + 8)) := by
  rw [← rx_start h a] at hx
  rw [← branchTo_eq]
  exact commit_of_eq (by exact (if_neg (Nat.not_le.2 hl)).trans (if_pos hx))
theorem execLoop_push (h : s.Settled) (hl : s.regs.loops.length < 4) (hx : s.x a ≠ 0) : execLoop m a off s =
    .next (s.after (fun w => goto m (s.pc + 8) (updMe w (withLoops (s.x a :: s.regs.loops))))) := by
  rw [← rx_start h a] at hx ⊢
  exact commit_of_eq (by exact (if_neg (Nat.not_le.2 hl)).trans ((if_neg hx).trans (next_updMe rfl)))

theorem execEndl_empty (hl : s.regs.loops = []) : execEndl m off s = .next (s.went m) := by
  have hl : s.task.regs.loops = [] := hl
  exact commit_of_eq (by simp only [me_start, hl])
theorem execEndl_pop {c : Word} {l : List Word} (hl : s.regs.loops = c :: l) (hc : c.toNat ≤ 1) :
    execEndl m off s = .next (s.after (fun w => goto m (s.pc + 8) (updMe w (withLoops l)))) := by
  have hl : s.task.regs.loops = c :: l := hl
  exact commit_of_eq (by simp only [me_start, hl, if_pos hc]; exact next_updMe rfl)
theorem execEndl_back {c : Word} {l : List Word} (hl : s.regs.loops = c :: l) (hc : 1 < c.toNat) :
    execEndl m off s = .next (s.after (fun w =>
      goto m (s.pc + BitVec.ofInt 64 (8 * off.toInt)) (updMe w (withLoops ((c - 1) :: l))))) := by
  have hl : s.task.regs.loops = c :: l := hl
  rw [← branchTo_eq]
  exact commit_of_eq (by simp only [me_start, hl, if_neg (Nat.not_le.2 hc)]; rfl)
end
end Sys2Proof.Machine
end
section
/-! PROOFS. The statements about the scalar and control instructions (R105 to R120). -/
namespace Sys2Proof.Machine

/-- Settles O4: the shape `opRR` or `opRI` commits the operation's result, which is the number of R107; the words go through
the tables `aluOf` and `aluiOf`. -/
theorem integerOperations : Obligations.IntegerOperations := by
  unfold Obligations.IntegerOperations
  refine ⟨fun m d a b s h => ?_, fun m d a imm s h => ?_, fun w n =>
    ⟨fun m d a b p hp => ?_, fun m d a imm p hp hi => ?_, fun hop hf => ?_, fun hop hf => ?_⟩⟩
  · exact ⟨commit_opRR h rfl, commit_opRR h rfl, commit_opRR h rfl, commit_opRR h rfl, commit_opRR h rfl,
      commit_opRR h (aShl_eq _ _), commit_opRR h (aShr_eq _ _), commit_opRR h (aSar_eq _ _), commit_opRR h (aRol_eq _ _),
      commit_opRR h (aRor_eq _ _), commit_opRR h (aMin_eq _ _), commit_opRR h (aMax_eq _ _), commit_opRR h (aMinu_eq _ _),
      commit_opRR h (aMaxu_eq _ _), commit_opRR h (aSlt_eq _ _), commit_opRR h (aSltu_eq _ _), commit_opRR h rfl,
      commit_opRR h rfl⟩
  · rw [← immS_eq, ← toInt_immS imm]
    exact ⟨commit_opRI h rfl, commit_opRI h rfl, commit_opRI h rfl, commit_opRI h rfl, commit_opRI h rfl,
      commit_opRI h (aShl_immShift _ _), commit_opRI h (aShr_immShift _ _), commit_opRI h (aSar_immShift _ _),
      commit_opRI h (aRol_immShift _ _), commit_opRI h (aRor_immShift _ _),
      commit_opRI h (aMin_eq _ _), commit_opRI h (aMax_eq _ _), commit_opRI h (aMinu_eq _ _),
      commit_opRI h (aMaxu_eq _ _), commit_opRI h (aSlt_eq _ _), commit_opRI h (aSltu_eq _ _), commit_opRI h rfl,
      commit_opRI h rfl⟩
  · exact decode_wordR_alu (aluOf_zip p hp) m d a b n
  · obtain ⟨hfn, hk⟩ := aluiOf_zip p hp
    rw [← hfn] at hi
    exact decode_wordI_alui (hfn.symm ▸ hk) m d a hi n
  · refine illegal_of_decodeOp hop n (dRRR_error (f := splitR w) ?_)
    exact hf.imp_left aluOf_eq_none
  · refine illegal_of_decodeOp hop n (dRRI_aluiOf_error (f := splitI w) ?_)
    exact hf.imp_left aluiOf_eq_none

/-- Settles O6: the counts by recursion on the bits looked at, the reversal by the bits of the sum it builds up. -/
theorem bitOperations : Obligations.BitOperations := by
  unfold Obligations.BitOperations
  refine ⟨fun m d a s h => ?_, fun w n => ⟨fun m d a p hp => ?_, fun hop hf => ?_⟩⟩
  · obtain ⟨z, hz, hclz⟩ := bClz_spec (s.x a)
    obtain ⟨y, hy, hctz⟩ := bCtz_spec (s.x a)
    exact ⟨⟨z, commit_opR h hz, hclz⟩, ⟨y, commit_opR h hy, hctz⟩, commit_opR h (bPopc_eq _), commit_opR h rfl,
      commit_opR h rfl, commit_opR h rfl, commit_opR h (bZext_eq 8 _), commit_opR h (bZext_eq 16 _),
      commit_opR h (bZext_eq 32 _), ⟨bBrev (s.x a), commit_opR h rfl, fun _ => getLsbD_bBrev _⟩⟩
  · exact decode_wordR_bitOp (bitOpOf_zip p hp) m d a n
  · refine illegal_of_decodeOp hop n (dRR_error (f := splitR w) ?_)
    exact hf.imp_left bitOpOf_eq_none

/-- R112: MOVI of the low half and MOVIH of the high half leave the constant in the register. -/
theorem movi_then_movih {d : XReg} {s : State} (h : s.Settled) (hd : d ≠ 0) (k : Word) : ∃ t u,
    exec (.movi ⟨0, false⟩ d (k.extractLsb' 0 32)) s = .next t ∧
    exec (.movih ⟨0, false⟩ d d (k.extractLsb' 32 32)) t = .next u ∧ u.x d = k := by
  have ht : (s.wroteX ⟨0, false⟩ d (immS (k.extractLsb' 0 32))).Settled := wroteX_settled h rfl
  refine ⟨_, _, rfl, commit_opR ht ?_, wroteX_x_self hd⟩
  rw [wroteX_x_self hd]
  exact movih_movi_eq k

/-- Settles O7: the constants and addresses as numbers, and a pair MOVI, MOVIH through the state between them. -/
theorem constantsAndAddresses : Obligations.ConstantsAndAddresses := by
  unfold Obligations.ConstantsAndAddresses
  refine ⟨fun m d a b imm sh tag s h => ?_, fun d k w n s h =>
    ⟨fun hd => movi_then_movih h hd k, fun hop hf => ?_, fun hop hf => ?_, fun hop hf => ?_⟩⟩
  · exact ⟨rfl, rfl, commit_opR h (movih_eq _ _), commit_opRR h (lea_eq _ _ _), commit_opRR h (leaRg_eq _ _), rfl⟩
  · exact illegal_of_decodeOp hop n (dMovi_error (f := splitI w) hf)
  · exact illegal_of_decodeOp hop n (dMovih_error (f := splitI w) hf)
  · exact illegal_of_decodeOp hop n (dLea_error (f := splitR w) hf)

/-- Settles O8: each case of a branch, an FE test, LOOP or ENDL is one branch of its meaning; the words go through the
decoders `dBranch`, `dB0` and `dB1`. -/
theorem branchesAndLoops : Obligations.BranchesAndLoops := by
  unfold Obligations.BranchesAndLoops
  refine ⟨fun m a b off s h => ?_, fun m off s => ⟨fun hf => ?_, fun hf => ?_⟩, fun m a off s h => ?_, fun w n => ?_⟩
  · exact ⟨commit_branchOn h rfl, commit_branchOn_not h decide_not, commit_branchOn h BitVec.slt_eq_decide,
      commit_branchOn_not h (congrArg not BitVec.slt_eq_decide), commit_branchOn h BitVec.ult_eq_decide,
      commit_branchOn_not h (congrArg not BitVec.ult_eq_decide), exec_j, exec_jal⟩
  · cases hfe : s.sys.fe
    · exact ⟨commit_branchFe_untaken hf (by simp [hfe]), commit_branchFe_taken hf hfe⟩
    · exact ⟨commit_branchFe_taken hf hfe, commit_branchFe_untaken hf (by simp [hfe])⟩
  · exact ⟨commit_branchFe_waits hf _, commit_branchFe_waits hf _⟩
  · exact ⟨execLoop_full h, execLoop_zero h, execLoop_push h, execEndl_empty, fun _ _ => execEndl_pop,
      fun _ _ => execEndl_back⟩
  · refine ⟨fun m a b o => ⟨fun p hp => decode_wordB_compare m a b o n (compareOf_zip p hp), decode_wordB_bfe m o n,
      decode_wordB_bnfe m o n, decode_wordB_j m o n, decode_wordB_jal m o n, decode_wordB_loop m a o n,
      decode_wordB_endl m o n⟩, fun hop hf => ?_, fun hop hf => ?_, fun hop hf => ?_, fun hop hf => ?_⟩
    · exact illegal_of_decodeOp hop n (dBranch_error (f := splitB w) hf)
    · have hf {k : Marks → BitVec 32 → Instr} : ∃ e, dB0 k (splitB w) = .error e :=
        dB0_error (hf.imp_right fun hf => hf.imp_right .inl)
      rcases hop with hop | hop | hop
      · exact illegal_of_decodeOp hop n hf
      · exact illegal_of_decodeOp hop n hf
      · exact illegal_of_decodeOp hop n hf
    · refine illegal_of_decodeOp hop n (dB1_error (f := splitB w) ?_)
      exact hf.imp_right (Or.imp_right (Or.imp_right fun hoff m a => decide_eq_false (Int.not_lt.2 hoff)))
    · refine illegal_of_decodeOp hop n (dB0_error (f := splitB w) ?_)
      exact .inr (.inr (.inr fun m => decide_eq_false (Int.not_le.2 hf)))

/-- Settles O9, by whether the target is a multiple of 8. -/
theorem jumpRegister : Obligations.JumpRegister := by
  unfold Obligations.JumpRegister
  refine ⟨fun m a off s h => ⟨execJr_aligned h, execJr_misaligned h⟩, fun w n hop hf => ?_⟩
  exact illegal_of_decodeOp hop n
    (dB1_error (f := splitB w) (hf.imp_right (Or.imp_right .inl)))

end Sys2Proof.Machine
end
